-- ==== Sys2Proof/Word.lean ====
section
/-! DEFINITION. The word types of the ERC-5164 and the names of its numbered objects (Table 0.3). -/

namespace Sys2Proof

/-- One byte. -/
abbrev Byte := BitVec 8

/-- A half-word: one transfer of the host bus. -/
abbrev Half := BitVec 16

/-- A 32-bit internal register or word (Notation, 00_scope.md). -/
abbrev Word := BitVec 32

/-- A 64-bit mews word's data bits (R298). -/
abbrev Quad := BitVec 64

/-- A stored memory word: check field in bits 71:64, data in bits 63:0 (R300). -/
abbrev Code := BitVec 72

/-- A level of the data plane: u24, all ones meaning 1 (R317). -/
abbrev Lvl := BitVec 24

/-- Kestrel index K0-K3. -/
abbrev KIdx := Fin 4

/-- Session index S0-S15. -/
abbrev SIdx := Fin 16

/-- Voice index V0-V511. -/
abbrev VIdx := Fin 512

/-- Window index 0-1. -/
abbrev WIdx := Fin 2

/-- Ring port: 0 WEST, 1 EAST. -/
abbrev PortIdx := Fin 2

/-- The 16 bytes of an event (R211). -/
abbrev EvBytes := Vector Byte 16

/-- The 72 bytes of a ring cell (R176). -/
abbrev CellBytes := Vector Byte 72

/-- A sparse array: strictly rising keys, no entry equal to what an unlisted key reads as. -/
abbrev Cells (w : Nat) := List (Nat × BitVec w)

end Sys2Proof
end

