-- ==== Sys2Proof/Syntax.lean ====
section
/-! DEFINITION. The commands of the ERC-5164 block: one constructor for each row of spec/opcode_table.json, with the
operands that the outside world decides. What the device itself decides is read from the state by the meaning. -/

namespace Sys2Proof

/-- Who issues an internal access or a gate command (R26, R92, Table 4.7): the numbering is that of SYS_GATESTAT.SRC. -/
inductive Requester where
  | window (w : WIdx)
  | kestrel (k : KIdx)
  | mgmt
  | mode
  | jtag
  deriving DecidableEq, Repr

/-- One host-bus access at half-word index `off` (byte offset `2 * off`, Table 5.1). -/
inductive HostAccess where
  | read (off : Fin 64)
  | write (off : Fin 64) (v : Half)
  /-- both strobes low, with data on HD (R115) -/
  | both (off : Fin 64) (v : Half)
  deriving DecidableEq, Repr

/-- An access of REGISTER_WRITE: on the host bus, or on a 32-bit internal register by a requester. -/
inductive RegAccess where
  | host (a : HostAccess)
  | internal (r : Requester) (addr : Word) (v : Word)
  deriving DecidableEq, Repr

/-- The two kinds of owl kick (R135). -/
inductive OwlKick where
  | key (v : Half)
  | access
  deriving DecidableEq, Repr

/-- The clocks that the monitor watches (R63): the XO, the recovered clocks and the PLL outputs of Table 3.2. `core` is the
1,000 MHz output of PLL_CORE and `core500` its 500 MHz output, `pwm` the 400 MHz output of PLL_PWM and `pwm12` its
12.8 MHz output; the lane and PCS clocks of a SerDes PLL are one. -/
inductive Clk where
  | xo | crw | cre | sdw | sde | core | core500 | pwm | pwm12 | aud
  deriving DecidableEq, Repr

/-- The PLLs, in the order of their lock bits in CKP_SRC (Tables 3.2 and 3.6). -/
inductive Pll where
  | sdw | sde | core | pwm | aud
  deriving DecidableEq, Repr

/-- A frame as received on one ring: both lane frames as they are on the wire, scrambled after MARK (R168, R169), and the
local CTIME at the timing instant (R170, R182). `half0` and `half1` are bytes 0-56 of the lanes (Table 7.2), `rest0` and
`rest1` what follows them. `ring` is false for a frame that enters by WEST and true for one that enters by EAST. -/
structure FrameRx where
  ring : Bool
  half0 : Vector Byte 57
  half1 : Vector Byte 57
  at_ : Quad
  rest0 : List Byte := []
  rest1 : List Byte := []
  deriving DecidableEq, Repr

/-- A downstream cell as the tap of one port delivers it (R174, R190): `ring` is false for the tap of WEST and true for that
of EAST, `ok` says that every codeword that holds its bits was correctable, and `flag` is the RING flag of its frame's header,
which differs from `ring` in a turned copy; the key is (frame, flag, index). -/
structure CellRx where
  frame : BitVec 40
  ring : Bool
  idx : Nat
  ok : Bool
  bytes : CellBytes
  flag : Bool := ring
  deriving DecidableEq, Repr

/-- Where an event reaches dispatch from (Table 8.1). -/
inductive EvSource where
  | ring (n : SIdx)
  | house
  | kestrel (k : KIdx)
  deriving DecidableEq, Repr

/-- A request at one memory (R299): requester code of Table 12.4, the byte address, and a read, or a write of 1, 2, 4 or 8
bytes (codes 0-3) with its data and marker. -/
structure MemReq where
  src : BitVec 4
  addr : Word
  op : Option (Fin 4 × Quad × Bool)
  deriving DecidableEq, Repr

/-- The samples of one scan slot (Table 13.3): pin voltages in mV before and with the sink on, sink current in uA. -/
structure ScanMeas where
  v0 : Vector Nat 64
  v1 : Vector Nat 64
  i : Nat
  deriving DecidableEq, Repr

/-- The addressing part of an RDM request (R400): the destination UID, whether it is a broadcast, the transaction
number and the source UID. -/
structure RdmReq where
  dest : BitVec 48
  src : BitVec 48
  tn : Byte
  deriving DecidableEq, Repr

/-- The commands, in the order of the table. -/
inductive Instr where
  /-- REGISTER_WRITE (R10) -/
  | registerWrite (a : RegAccess)
  /-- POWER_ON_RESET (R43) -/
  | powerOnReset
  /-- POWER_GOOD (R43) -/
  | powerGood
  /-- PIN_RESET (R44) -/
  | pinReset (lowNs : Nat)
  /-- SOFT_RESET (R45) -/
  | softReset (keep : Bool)
  /-- WAKE_HCS (R53) -/
  | wakeHcs
  /-- WAKE_GP0 (R53): GP0 has been at the level of WAKEPOL for at least 1 us -/
  | wakeGp0
  /-- WAKE_POWER_GOOD (R53) -/
  | wakePowerGood
  /-- FUSE_DONE (R54) -/
  | fuseDone
  /-- CLOCK_STEP_DONE (R65) -/
  | clockStepDone
  /-- CLOCK_STEP_FAIL (R55) -/
  | clockStepFail
  /-- MEMTEST_DONE (R312) -/
  | memtestDone (banks : BitVec 8) (kests : BitVec 4) (addr : Word)
  /-- ROOSTCHK_DONE (R406) -/
  | roostchkDone
  /-- RINGWAIT_END (R56) -/
  | ringwaitEnd
  /-- REQUEST_DORMANT (R38) -/
  | requestDormant
  /-- REQUEST_BOOT (R38) -/
  | requestBoot
  /-- REQUEST_MUSTER (R38) -/
  | requestMuster
  /-- REQUEST_RELAY (R38) -/
  | requestRelay
  /-- REQUEST_SHOW (R38) -/
  | requestShow
  /-- REQUEST_SOLO (R38) -/
  | requestSolo
  /-- REQUEST_SERVICE (R38) -/
  | requestService
  /-- REQUEST_ROOST (R38) -/
  | requestRoost
  /-- MODE_REQUEST_EVAL (R39) -/
  | modeRequestEval
  /-- MODE_TRANSITION_DONE (R37) -/
  | modeTransitionDone
  /-- SHOW_CONDITION (R36) -/
  | showCondition
  /-- SAG (R402) -/
  | sag
  /-- ROOST_CAPTURE_DONE (R404) -/
  | roostCaptureDone
  /-- SAVE_END (R404) -/
  | saveEnd (powerGood rstLow : Bool)
  /-- DLINK_KEEPALIVE (R19) -/
  | dlinkKeepalive
  /-- DLINK_LOSS (R108) -/
  | dlinkLoss
  /-- DLINK_RESUME (R109) -/
  | dlinkResume
  /-- DLINK_REPORT (R337) -/
  | dlinkReport
  /-- TEMP_REPORT (R326) -/
  | tempReport (t : BitVec 9)
  /-- DRV_ACCESS_END (R18) -/
  | drvAccessEnd (r : Requester)
  /-- XOQ_WINDOW (R64) -/
  | xoqWindow (count : BitVec 24)
  /-- REQUAL (R64) -/
  | requal
  /-- CLOCK_DEAD (R63) -/
  | clockDead (c : Clk)
  /-- CLOCK_LIVE (R63) -/
  | clockLive (c : Clk)
  /-- ICLK_WRITE (R71) -/
  | iclkWrite (n : Fin 7) (v : Word)
  /-- CLOCK_DISENGAGE (R71) -/
  | clockDisengage (n : Fin 7)
  /-- CLOCK_FORCED (R75) -/
  | clockForced (mux : Fin 8)
  /-- CLOCK_ENGAGE (R71) -/
  | clockEngage (n : Fin 7)
  /-- CLOCK_RAMP_STEP (R71) -/
  | clockRampStep (n : Fin 7)
  /-- REF_SELECT (R79) -/
  | refSelect (sel : BitVec 2)
  /-- REF_SWITCH_ENGAGE (R80) -/
  | refSwitchEngage (forced : Bool)
  /-- PLL_LOCK (R62) -/
  | pllLock (p : Pll)
  /-- PERIPHERAL_ENABLE (R84) -/
  | peripheralEnable (v : BitVec 6)
  /-- GATE_NOP (R91) -/
  | gateNop (r : Requester) (pd : BitVec 7)
  /-- GATE_DOWN (R95) -/
  | gateDown (r : Requester) (pd : BitVec 7)
  /-- GATE_UP (R98) -/
  | gateUp (r : Requester) (pd : BitVec 7)
  /-- GATE_RESET (R98) -/
  | gateReset (r : Requester) (pd : BitVec 7)
  /-- GATE_UPDATE (R111) -/
  | gateUpdate (r : Requester) (pd : BitVec 7)
  /-- GATE_REOPEN (R112) -/
  | gateReopen (r : Requester) (pd : BitVec 7)
  /-- GATE_DRAIN_END (R96) -/
  | gateDrainEnd
  /-- GATE_OFF_DONE (R95) -/
  | gateOffDone
  /-- GATE_POWERUP_DONE (R98) -/
  | gatePowerupDone
  /-- GATE_RESET_RELEASE (R98) -/
  | gateResetRelease
  /-- UPDATE_TIMEOUT (R112) -/
  | updateTimeout
  /-- AON_HOST_ACCESS (R117) -/
  | aonHostAccess (a : HostAccess)
  /-- WINDOW_DATA_LO_WRITE (R121) -/
  | windowDataLoWrite (w : WIdx) (d : Half)
  /-- WINDOW_DATA_HI_WRITE (R121) -/
  | windowDataHiWrite (w : WIdx) (d : Half)
  /-- WINDOW_DATA_LO_READ (R122) -/
  | windowDataLoRead (w : WIdx)
  /-- WINDOW_REPLY (R123) -/
  | windowReply (w : WIdx)
  /-- WINDOW_TIMEOUT (R124) -/
  | windowTimeout (w : WIdx)
  /-- EVENT_POST_HALF (R131) -/
  | eventPostHalf (d : Half)
  /-- EVENT_STAGE_CLEAR (R132) -/
  | eventStageClear
  /-- EVENT_HANDOVER (R133) -/
  | eventHandover
  /-- DOORBELL_RING (R134) -/
  | doorbellRing (m : BitVec 4)
  /-- OWL_KICK (R135) -/
  | owlKick (kick : OwlKick)
  /-- OWL_CONFIG (R139) -/
  | owlConfig (v : Half)
  /-- OWL_EXPIRY (R137) -/
  | owlExpiry
  /-- OWL_HRDY_EXPIRY (R136) -/
  | owlHrdyExpiry
  /-- ROOST_SAVE_REQUEST (R140) -/
  | roostSaveRequest
  /-- LOOK_RELEASE (R408) -/
  | lookRelease
  /-- HOST_HOOD (R141) -/
  | hostHood (v : Half)
  /-- EPOCH_COMMIT (R262) -/
  | epochCommit
  /-- EPOCH_SNAPSHOT_DONE (R263) -/
  | epochSnapshotDone
  /-- EPOCH_MIGRATION_DONE (R264) -/
  | epochMigrationDone
  /-- LANE_LOS (R160) -/
  | laneLos (p : PortIdx) (l : Fin 2)
  /-- LANE_CDR_LOCK (R151) -/
  | laneCdrLock (p : PortIdx) (l : Fin 2) (rate : BitVec 2) (hopDly : Half)
  /-- LANE_LOCK_LOSS (R149) -/
  | laneLockLoss (p : PortIdx) (l : Fin 2)
  /-- LANE_CONVERGED (R153) -/
  | laneConverged (p : PortIdx) (l : Fin 2) (deskewed : Bool)
  /-- LANE_RATE_TIMEOUT (R150) -/
  | laneRateTimeout (p : PortIdx) (l : Fin 2)
  /-- MODULE_REMOVED (R160) -/
  | moduleRemoved (p : PortIdx)
  /-- FORCE_WRAP (R161) -/
  | forceWrap (p : PortIdx) (on : Bool)
  /-- TURN_ENGAGE (R163) -/
  | turnEngage (p : PortIdx)
  /-- PORT_ARMED (R161) -/
  | portArmed (p : PortIdx)
  /-- PORT_UP (R161) -/
  | portUp (p : PortIdx)
  /-- MSB_GO (R165) -/
  | msbGo (p : PortIdx) (v : Word)
  /-- MSB_DONE (R165) -/
  | msbDone (p : PortIdx) (nack : Bool) (rdata : Byte)
  /-- MSB_TIMEOUT (R165) -/
  | msbTimeout (p : PortIdx)
  /-- FRAME_RECEIVED (R173) -/
  | frameReceived (f : FrameRx)
  /-- FRAME_MISSING (R189) -/
  | frameMissing
  /-- FRAME_BOUNDARY (R181) -/
  | frameBoundary
  /-- TICK_BOUNDARY (R29) -/
  | tickBoundary
  /-- HEAD_FRAME_LAUNCH (R194) -/
  | headFrameLaunch
  /-- HEAD_PROBE (R194) -/
  | headProbe
  /-- HEAD_REMUSTER (R191) -/
  | headRemuster
  /-- HEAD_CANDIDATE_ENABLE (R193) -/
  | headCandidateEnable (v : Word)
  /-- HEAD_CELL_QUEUE (R194) -/
  | headCellQueue (ring : BitVec 2)
  /-- CTSET_LOAD (R194) -/
  | ctsetLoad (hi : Byte)
  /-- GENLOCK_EDGE (R195) -/
  | genlockEdge (rising : Bool) (t : Quad)
  /-- GENLOCK_LOSS (R195) -/
  | genlockLoss
  /-- UPLINK_CELL (R180) -/
  | uplinkCell (ring : Bool) (u : Fin 1024) (c : CellBytes)
  /-- STREAM_CELL (R177) -/
  | streamCell (c : CellRx)
  /-- STRIKE_CELL (R176) -/
  | strikeCell (c : CellRx)
  /-- PARAM_CELL (R219) -/
  | paramCell (c : CellRx)
  /-- RANGE_ASSIGN (R192) -/
  | rangeAssign (c : CellRx)
  /-- EVENT_ACCEPT (R214) -/
  | eventAccept (src : EvSource) (ev : EvBytes)
  /-- STRIKE (R212) -/
  | strike (n : SIdx) (ev : EvBytes)
  /-- EVENT_RELEASE (R212) -/
  | eventRelease (n : SIdx) (ev : EvBytes)
  /-- KILL (R212) -/
  | kill (n : SIdx) (ev : EvBytes)
  /-- KILLALL (R212) -/
  | killall (n : SIdx) (ev : EvBytes)
  /-- EVENT_NOP (R211) -/
  | eventNop (n : SIdx) (ev : EvBytes)
  /-- CLAIM (R208) -/
  | claim (c : CellRx)
  /-- CLAIM_RELEASE (R208) -/
  | claimRelease (c : CellRx)
  /-- SESSION_OPEN (R203) -/
  | sessionOpen (n : SIdx)
  /-- SESSION_FREE (R205) -/
  | sessionFree (n : SIdx)
  /-- SESSION_KEY_WRITE (R210) -/
  | sessionKeyWrite (n : SIdx) (w : Fin 4) (v : Word)
  /-- PATCH_READ_DONE (R223) -/
  | patchReadDone
  /-- ENV_SEGMENT_END (R232) -/
  | envSegmentEnd (v : VIdx) (e : Fin 3)
  /-- WAVETABLE_READ_REPLY (R242) -/
  | wavetableReadReply (v : VIdx) (o : Fin 2)
  /-- FHOLD_EXPIRY (R244) -/
  | fholdExpiry (v : VIdx)
  /-- STOOP_END (R258) -/
  | stoopEnd (v : VIdx)
  /-- VOX_KILL (R266) -/
  | voxKill (m : Half)
  /-- ADD (R272) -/
  | kAdd (k : KIdx)
  /-- SUB (R272) -/
  | kSub (k : KIdx)
  /-- AND (R272) -/
  | kAnd (k : KIdx)
  /-- IOR (R272) -/
  | kIor (k : KIdx)
  /-- EOR (R272) -/
  | kEor (k : KIdx)
  /-- LSL (R272) -/
  | kLsl (k : KIdx)
  /-- LSR (R272) -/
  | kLsr (k : KIdx)
  /-- ASR (R272) -/
  | kAsr (k : KIdx)
  /-- CLT (R272) -/
  | kClt (k : KIdx)
  /-- CLTU (R272) -/
  | kCltu (k : KIdx)
  /-- MLO (R272) -/
  | kMlo (k : KIdx)
  /-- MHI (R272) -/
  | kMhi (k : KIdx)
  /-- MHIU (R272) -/
  | kMhiu (k : KIdx)
  /-- MIN (R272) -/
  | kMin (k : KIdx)
  /-- MAX (R272) -/
  | kMax (k : KIdx)
  /-- ADDK (R272) -/
  | kAddk (k : KIdx)
  /-- ANDK (R272) -/
  | kAndk (k : KIdx)
  /-- IORK (R272) -/
  | kIork (k : KIdx)
  /-- EORK (R272) -/
  | kEork (k : KIdx)
  /-- CLTK (R272) -/
  | kCltk (k : KIdx)
  /-- CLTUK (R272) -/
  | kCltuk (k : KIdx)
  /-- LSLK (R272) -/
  | kLslk (k : KIdx)
  /-- LSRK (R272) -/
  | kLsrk (k : KIdx)
  /-- ASRK (R272) -/
  | kAsrk (k : KIdx)
  /-- KHI (R272) -/
  | kKhi (k : KIdx)
  /-- GO (R272) -/
  | kGo (k : KIdx)
  /-- CALL (R272) -/
  | kCall (k : KIdx)
  /-- GOR (R272) -/
  | kGor (k : KIdx)
  /-- CALLR (R272) -/
  | kCallr (k : KIdx)
  /-- BR_EQ (R272) -/
  | kBrEq (k : KIdx)
  /-- BR_NE (R272) -/
  | kBrNe (k : KIdx)
  /-- BR_LT (R272) -/
  | kBrLt (k : KIdx)
  /-- BR_GE (R272) -/
  | kBrGe (k : KIdx)
  /-- BR_LTU (R272) -/
  | kBrLtu (k : KIdx)
  /-- BR_GEU (R272) -/
  | kBrGeu (k : KIdx)
  /-- LD_W (R277) -/
  | kLdW (k : KIdx)
  /-- LD_H (R277) -/
  | kLdH (k : KIdx)
  /-- LD_HU (R277) -/
  | kLdHu (k : KIdx)
  /-- LD_B (R277) -/
  | kLdB (k : KIdx)
  /-- LD_BU (R277) -/
  | kLdBu (k : KIdx)
  /-- ST_W (R278) -/
  | kStW (k : KIdx)
  /-- ST_H (R278) -/
  | kStH (k : KIdx)
  /-- ST_B (R278) -/
  | kStB (k : KIdx)
  /-- SWAP (R281) -/
  | kSwap (k : KIdx)
  /-- CAS (R281) -/
  | kCas (k : KIdx)
  /-- FENCE (R281) -/
  | kFence (k : KIdx)
  /-- SPR_RD (R273) -/
  | kSprRd (k : KIdx)
  /-- SPR_WR (R273) -/
  | kSprWr (k : KIdx)
  /-- SPR_SET (R273) -/
  | kSprSet (k : KIdx)
  /-- SPR_CLR (R273) -/
  | kSprClr (k : KIdx)
  /-- POST (R288) -/
  | kPost (k : KIdx)
  /-- WAIT (R286) -/
  | kWait (k : KIdx)
  /-- RTT (R274) -/
  | kRtt (k : KIdx)
  /-- BRK (R293) -/
  | kBrk (k : KIdx)
  /-- LOAD_REPLY (R277) -/
  | loadReply (k : KIdx)
  /-- STORE_REPLY (R278) -/
  | storeReply (k : KIdx)
  /-- STORE_BUFFER_ROOM (R278) -/
  | storeBufferRoom (k : KIdx)
  /-- ATOMIC_REPLY (R281) -/
  | atomicReply (k : KIdx)
  /-- FENCE_DONE (R281) -/
  | fenceDone (k : KIdx)
  /-- WAIT_DONE (R286) -/
  | waitDone (k : KIdx)
  /-- TIME_TARGET_REACHED (R284) -/
  | timeTargetReached (k : KIdx)
  /-- KESTREL_START (R290) -/
  | kestrelStart (k : KIdx) (v : Word)
  /-- KESTREL_RESET (R291) -/
  | kestrelReset (k : KIdx) (v : Word)
  /-- HALT_REQUEST (R293) -/
  | haltRequest (k : KIdx)
  /-- KESTREL_RESUME (R294) -/
  | kestrelResume (k : KIdx)
  /-- KESTREL_STEP (R294) -/
  | kestrelStep (k : KIdx)
  /-- BREAKPOINT_HALT (R293) -/
  | breakpointHalt (k : KIdx)
  /-- MEWS_ACCESS (R299) -/
  | mewsAccess (q : MemReq)
  /-- ECC_CLEAR_WORD (R306) -/
  | eccClearWord (addr : Word)
  /-- SCRUB (R309) -/
  | scrub
  /-- BUCKET_LEAK (R307) -/
  | bucketLeak
  /-- FLIP_ARM (R313) -/
  | flipArm (v : Word)
  /-- STREAM_LEVEL_WRITE (R317) -/
  | streamLevelWrite (r : Requester) (v : Word)
  /-- ACTIVITY_TIMEOUT (R322) -/
  | activityTimeout (n : SIdx)
  /-- MISS_HOLD_EXPIRY (R324) -/
  | missHoldExpiry
  /-- MISS_FADE_END (R324) -/
  | missFadeEnd
  /-- EMT_WRAP (R329) -/
  | emtWrap (f : Fin 4)
  /-- SHORT_TRIP (R337) -/
  | shortTrip (n : Fin 64)
  /-- OPEN_TRIP (R338) -/
  | openTrip (n : Fin 64)
  /-- HICCUP_EXPIRY (R337) -/
  | hiccupExpiry (n : Fin 64)
  /-- SHORT_CLEAR (R337) -/
  | shortClear (n : Fin 64)
  /-- OPEN_CLEAR (R338) -/
  | openClear (n : Fin 64)
  /-- SCAN_START (R339) -/
  | scanStart
  /-- SCAN_CHANNEL (R339) -/
  | scanChannel (m : ScanMeas)
  /-- SCAN_COMPLETE (R340) -/
  | scanComplete
  /-- RUNTIME_TIE (R341) -/
  | runtimeTie (n : Fin 64)
  /-- TIE_ACK (R341) -/
  | tieAck (hi : Bool) (m : Word)
  /-- LINK_HOOD_RELEASE (R342) -/
  | linkHoodRelease
  /-- AO_PERIOD (R344) -/
  | aoPeriod
  /-- AO_QUEUE_WRITE (R345) -/
  | aoQueueWrite (n : Fin 16) (v : Half)
  /-- AO_QUEUE_CLEAR (R345) -/
  | aoQueueClear (n : Fin 16)
  /-- AO_STROBE_FIRE (R346) -/
  | aoStrobeFire
  /-- AO_STROBE_MARK (R347) -/
  | aoStrobeMark
  /-- AO_STROBE_LOAD (R346) -/
  | aoStrobeLoad
  /-- AO_MARK_LOAD (R347) -/
  | aoMarkLoad (hi : Word)
  /-- AO_STAGE_CHANGE (R352) -/
  | aoStageChange (n : Fin 16) (mode range : Bool)
  /-- AO_CHANGEOVER_END (R352) -/
  | aoChangeoverEnd (n : Fin 16)
  /-- AO_CONTENTION (R354) -/
  | aoContention (n : Fin 16)
  /-- AO_OVERVOLTAGE (R355) -/
  | aoOvervoltage (n : Fin 16)
  /-- AO_RECONNECT (R355) -/
  | aoReconnect (n : Fin 16) (stillHigh : Bool)
  /-- VAO_LOCKOUT (R417) -/
  | vaoLockout
  /-- VAO_LOCKOUT_END (R417) -/
  | vaoLockoutEnd
  /-- PIX_REFRESH_END (R357) -/
  | pixRefreshEnd (p : Fin 4)
  /-- PIX_GAP_END (R357) -/
  | pixGapEnd (p : Fin 4)
  /-- SNS_RUN (R365) -/
  | snsRun (on : Bool)
  /-- SNS_START (R365) -/
  | snsStart
  /-- SNS_SAMPLE (R365) -/
  | snsSample (raw : Int) (clip : Bool)
  /-- SNS_ENTRY_WRITE (R367) -/
  | snsEntryWrite (i : Fin 32) (v : Word)
  /-- SNS_FIFO_POP (R369) -/
  | snsFifoPop
  /-- AUDIO_SAMPLE (R371) -/
  | audioSample (lrck : Bool) (len : Nat) (raw : Word)
  /-- AUDIO_RATE_CHECK (R372) -/
  | audioRateCheck (cycles : Nat)
  /-- AUDIO_LRCK_LOSS (R372) -/
  | audioLrckLoss
  /-- BEAT_TRACK_MS (R374) -/
  | beatTrackMs
  /-- TEMPO_UPDATE (R374) -/
  | tempoUpdate
  /-- GPT_MATCH (R378) -/
  | gptMatch (n : Fin 8)
  /-- GPT_OVERFLOW (R375) -/
  | gptOverflow (n : Fin 8)
  /-- GPT_CAPTURE (R379) -/
  | gptCapture (n : Fin 8) (rising : Bool) (cnt : Word)
  /-- GPT_SWCAP (R379) -/
  | gptSwcap (n : Fin 8) (cnt : Word)
  /-- GPT_CAP_READ (R379) -/
  | gptCapRead (n : Fin 8)
  /-- MGMT_COMMAND_QUEUE (R387) -/
  | mgmtCommandQueue (c : CellRx)
  /-- MGMT_NOP (R383) -/
  | mgmtNop
  /-- MGMT_READ (R386) -/
  | mgmtRead
  /-- MGMT_WRITE (R386) -/
  | mgmtWrite
  /-- MGMT_MODE (R383) -/
  | mgmtMode
  /-- MGMT_GATE (R383) -/
  | mgmtGate
  /-- MGMT_COMMIT (R383) -/
  | mgmtCommit
  /-- MGMT_KEYSET (R390) -/
  | mgmtKeyset
  /-- CONTENT_BEGIN (R393) -/
  | contentBegin (host : Bool)
  /-- CONTENT_CHECK (R394) -/
  | contentCheck (host : Bool)
  /-- CONTENT_ACTIVATE (R395) -/
  | contentActivate (host : Bool)
  /-- CONTENT_ABORT (R395) -/
  | contentAbort (host : Bool)
  /-- CONTENT_CHECK_DONE (R394) -/
  | contentCheckDone
  /-- CONTENT_ACTIVATE_DONE (R395) -/
  | contentActivateDone
  /-- BULK_CELL (R393) -/
  | bulkCell (c : CellRx)
  /-- FAULT_LOG_CLEAR (R391) -/
  | faultLogClear (host : Bool)
  /-- MGMT_KEY_WRITE (R390) -/
  | mgmtKeyWrite (v : Word)
  /-- DMX_PACKET_END (R398) -/
  | dmxPacketEnd (p : Fin 2) (slots : List Byte) (framingError : Bool)
  /-- DMX_LOST (R397) -/
  | dmxLost (p : Fin 2)
  /-- DISC_UNIQUE_BRANCH (R400) -/
  | discUniqueBranch (p : Fin 2) (q : RdmReq) (lo hi : BitVec 48)
  /-- DISC_MUTE (R400) -/
  | discMute (p : Fin 2) (q : RdmReq)
  /-- DISC_UN_MUTE (R400) -/
  | discUnMute (p : Fin 2) (q : RdmReq)
  /-- SUPPORTED_PARAMETERS (R400) -/
  | supportedParameters (p : Fin 2) (q : RdmReq)
  /-- DEVICE_INFO (R400) -/
  | deviceInfo (p : Fin 2) (q : RdmReq)
  /-- DEVICE_MODEL_DESCRIPTION (R400) -/
  | deviceModelDescription (p : Fin 2) (q : RdmReq)
  /-- MANUFACTURER_LABEL (R400) -/
  | manufacturerLabel (p : Fin 2) (q : RdmReq)
  /-- DEVICE_LABEL_GET (R400) -/
  | deviceLabelGet (p : Fin 2) (q : RdmReq)
  /-- DEVICE_LABEL_SET (R400) -/
  | deviceLabelSet (p : Fin 2) (q : RdmReq) (label : List Byte)
  /-- SOFTWARE_VERSION_LABEL (R400) -/
  | softwareVersionLabel (p : Fin 2) (q : RdmReq)
  /-- DMX_START_ADDRESS_GET (R400) -/
  | dmxStartAddressGet (p : Fin 2) (q : RdmReq)
  /-- DMX_START_ADDRESS_SET (R400) -/
  | dmxStartAddressSet (p : Fin 2) (q : RdmReq) (start : Half)
  /-- IDENTIFY_DEVICE_GET (R400) -/
  | identifyDeviceGet (p : Fin 2) (q : RdmReq)
  /-- IDENTIFY_DEVICE_SET (R400) -/
  | identifyDeviceSet (p : Fin 2) (q : RdmReq) (on : Byte)
  /-- RESET_DEVICE (R400) -/
  | resetDevice (p : Fin 2) (q : RdmReq) (kind : Byte)
  /-- RDM_FORWARD (R401) -/
  | rdmForward (p : Fin 2) (q : RdmReq) (req : List Byte)
  /-- RDM_RESPONSE_GO (R401) -/
  | rdmResponseGo (len : BitVec 9)
  /-- RDM_FORWARD_TIMEOUT (R401) -/
  | rdmForwardTimeout
  /-- EXTEST (R432) -/
  | extest
  /-- SAMPLE_PRELOAD (R432) -/
  | samplePreload
  /-- IDCODE (R432) -/
  | idcode
  /-- EXTEST_PULSE (R166) -/
  | extestPulse
  /-- EXTEST_TRAIN (R166) -/
  | extestTrain
  /-- HIGHZ (R432) -/
  | highz
  /-- CLAMP (R432) -/
  | clamp
  /-- KDEBUG (R433) -/
  | kdebug
  /-- BYPASS (R432) -/
  | bypass
  /-- KDEBUG_UPDATE (R433) -/
  | kdebugUpdate (dr : BitVec 65)
  /-- KDEBUG_ACCESS_END (R433) -/
  | kdebugAccessEnd
  /-- TRAIN_RECEIVED (R160) -/
  | trainReceived (p : PortIdx)
  /-- ALIGNMENT_LOSS (R144) -/
  | alignmentLoss (p : PortIdx)
  /-- ILLEGAL_INSTRUCTION (R272) -/
  | illegalInstruction (k : KIdx)
  /-- DMX_TX_PACKET_END (R399) -/
  | dmxTxPacketEnd (p : Fin 2)
  /-- VFIELD_PRESENT (R414) -/
  | vfieldPresent (present : Bool)
  deriving DecidableEq, Repr

end Sys2Proof
end

