-- ==== Sys2Proof/Decode.lean ====
section
/-! DEFINITION. The host's question of which command a word spells. The table of this block gives no row any bits: its
commands are events and register accesses, not words, so no word spells one. -/

namespace Sys2Proof

/-- The command that a word spells by the table's bits: none, since no row has bits. -/
def decodeTableWord (_nbits _w : Nat) : Option Instr := none

end Sys2Proof
end

