-- ==== Sys2Proof/Config.lean ====
section
/-! DEFINITION. What an implementation fixes and the spec does not: the fuses of one part (R436), the two "may" choices
(R44, R124), and the free values. Every constant is opaque: nothing can be proved about its value, so a claim holds for
every value. Each is named in the assumption log. -/

namespace Sys2Proof

/-- The 48-bit UID in the fuses (Table 7.6, UID). Log entry 1. -/
opaque Config.uid : BitVec 48

/-- Fuse AUTH: CLAIM MACs are checked (R206). Log entry 1. -/
opaque Config.auth : Bool

/-- Fuse MAUTH: management MACs are checked (R384). Log entry 1. -/
opaque Config.mauth : Bool

/-- Fuse SIGREQ: an image signature failure fails the check (R394). Log entry 1. -/
opaque Config.sigreq : Bool

/-- Fuse MKLOCK: host writes of the management key are ignored (R390). Log entry 1. -/
opaque Config.mklock : Bool

/-- Fuse JTAGDBG: JTAG may reach the internal map (R293, R433). Log entry 1. -/
opaque Config.jtagdbg : Bool

/-- Fuse MKEY: the management key loaded at FUSE (R390). Log entry 1. -/
opaque Config.mkey : BitVec 128

/-- The two fuse public keys of the content check, as points of the curve (R394). Log entry 1. -/
opaque Config.publicKey : Nat → Nat × Nat

/-- R44: whether a low pulse of 100 ns to 1 us on RST_N performs a pin reset; applied to the free counter. Log entry 3. -/
opaque Config.shortPulseResets : Nat → Bool

/-- R124: whether a window write ended by timeout is performed at its target; applied to the free counter. Log entry 3. -/
opaque Config.lateWritePerformed : Nat → Bool

/-- The direction of a rounding that the spec leaves open: at site `n`, of the quotient `num / den`. Log entry 4. -/
opaque Config.roundsUp : Nat → Int → Int → Bool

/-- The sine error within 2^-20 that R228 allows, in units of 2^-23, before its bound is applied. Log entry 5. -/
opaque Config.sineError : Nat → Int

/-- The relative pitch error within 0.01 % that Table 10.3 allows, in millionths, before its bound. Log entry 5. -/
opaque Config.pitchError : Nat → Int → Int

/-- The correction of one frame by the CTIME servo (R183), from ERR and the loop's frequency error, before its bound of 100
ppm. Log entry 6. -/
opaque Config.servoSlew : Int → Int → Int

/-- The frequency error that the servo's second-order loop holds after a comparison: from ERR and the one held before (R183).
Log entry 6. -/
opaque Config.servoFreq : Int → Int → Int

/-- The latency of a regenerating hop at a rate and a repeat latency, in CTIME units, before the bound of R158. Log entry
97. -/
opaque Config.regenDelay : BitVec 2 → BitVec 16 → Nat

/-- The data symbols that a regenerator sends for a codeword it cannot correct, from the codeword received (R157). Log entry
94. -/
opaque Config.uncorrected : List Nat → List Nat

/-- The trim step of one genlock comparison (R195), before its bound. Log entry 6. -/
opaque Config.genlockTrim : Int → Nat → Int

/-- What an audio band filter (R373) holds after a sample; the spec does not give its discrete form: filter, detected rate,
what it held, input sample. Log entry 7. -/
opaque Config.bandStep : Nat → Nat → Nat → Int → Nat

/-- The output of an audio band filter that holds a value, in units of 2^-24. Log entry 7. -/
opaque Config.bandOutput : Nat → Nat → Int

/-- Values of CYC counted between instructions, and other time-dependent counts the table has no row for:
applied to the free counter. Log entry 8. -/
opaque Config.freeWord : Nat → BitVec 32

end Sys2Proof
end

