-- ==== Sys2Proof/Machine/State.lean ====
section
/-! DEFINITION. The state of the ERC-5164, block by block, as plain data. Every field's default value is its value
after reset (State.reset), the Reset column of the register table that the docstring cites; a register that is only
configuration is one 32-bit word, its fields read by fld and bit (Machine/Ops.lean). A value the spec does not give is
named in the assumption log. -/

namespace Sys2Proof.Machine

/-! ## Modes, boot, owl and gates (AON) -/

/-- The eight modes, in the order of their codes (Table 1.5). -/
inductive Mode where
  | dormant | boot | muster | relay | show | solo | service | roost
  deriving DecidableEq, Repr

/-- HB_MODE.SRC (Table 2.7). -/
inductive ModeSrc where
  | host | mgmt | ring | device
  deriving DecidableEq, Repr

/-- Triggers of Table 2.2 that an event, not a standing condition, gives: the lost election, the head's re-muster command,
and CHN_HEAD.EN written to 1 in SOLO. -/
inductive Trigger where
  | lost | remuster | candidate
  deriving DecidableEq, Repr

/-- The mode controller and the boot sequencer (R31-R58). -/
structure ModeCtl where
  /-- HB_MODE.CODE -/
  code : Mode := .boot
  /-- HB_MODE.BUSY -/
  busy : Bool := false
  /-- HB_MODE.PEND -/
  pend : Bool := false
  /-- HB_MODE.PCODE -/
  pcode : BitVec 3 := 0
  /-- the management request waiting for evaluation (R40) -/
  mgmtReq : Option (BitVec 3) := none
  /-- HB_MODE.RESULT: 0 none, 1 ACCEPTED, 2 REFUSED, 3 SUPERSEDED -/
  result : BitVec 2 := 0
  /-- HB_MODE.SRC of the most recent completed transition -/
  src : ModeSrc := .host
  /-- source of the transition in progress (R42) -/
  tsrc : ModeSrc := .device
  /-- mode left by the transition in progress (Table 2.4) -/
  from_ : Mode := .boot
  /-- triggers that came while BUSY was set, taken when it clears (R39, R40) -/
  held : List Trigger := []
  /-- HB_RSTCAUSE, bits 6:0 (Table 2.10) -/
  rstcause : BitVec 7 := 0x01
  /-- HB_BOOTSTEP.STEP (Table 2.6) -/
  step : BitVec 4 := 0
  /-- HB_BOOTSTEP.DONE -/
  done : Bool := false
  /-- HB_BOOTSTEP.CLKFAIL -/
  clkfail : Bool := false
  /-- HB_BOOTSTEP.MEMFAIL -/
  memfail : Bool := false
  /-- HB_BOOTSTEP.SCANSKIP -/
  scanskip : Bool := false
  /-- HB_BOOTSTEP.ROOSTVALID -/
  roostvalid : Bool := false
  /-- HB_BOOTSTEP.KEPT -/
  kept : Bool := false
  /-- HB_BOOTSTEP.BCAUSE (R47) -/
  bcause : BitVec 3 := 0
  /-- this boot follows a soft reset with KEEP = 1 (R54) -/
  keepBoot : Bool := false
  /-- HB_BOOTCFG (Table 2.12) -/
  bootcfg : Half := 0x4C00
  /-- held in power-on reset: a core rail is below its threshold (R43) -/
  inPor : Bool := false
  /-- DORMANT was entered because a save ended without power-good (R53) -/
  roostSleep : Bool := false
  /-- the save in progress was entered on request (Table 16.9, REQ) -/
  saveReq : Bool := false
  /-- mode at entry to ROOST (Table 16.9, FLAGS) -/
  saveFrom : Mode := .boot
  /-- CTIME at entry to ROOST (Table 16.9) -/
  saveTime : Quad := 0
  /-- the capture of the save is complete (R404) -/
  captured : Bool := false
  deriving DecidableEq, Repr

/-- The owl (R135-R139). -/
structure Owl where
  /-- HB_OWLCFG (Table 5.9) -/
  cfg : Half := 0x057D
  /-- HB_OWLSTAT.EXP -/
  exp : Bool := false
  /-- HB_OWLSTAT.HRDYX -/
  hrdyx : Bool := false
  /-- HB_OWLSTAT.BADKICK -/
  badkick : Bool := false
  /-- HB_OWLSTAT.HOODED -/
  hooded : Bool := false
  /-- HB_OWLCNT.REMAIN, in steps of 0.125 ms -/
  count : Half := 0
  /-- the host-bus access just before was a kick (R139) -/
  lastKick : Bool := false
  /-- ACT = 3 has expired once with no kick since (Table 5.5) -/
  strike : Bool := false
  deriving DecidableEq, Repr

/-- A domain's state (Table 4.4). -/
inductive PdState where
  | off | on | closed | transit
  deriving DecidableEq, Repr

/-- The gate commands (Table 4.3). -/
inductive GateCmd where
  | nop | down | up | reset | update | reopen
  deriving DecidableEq, Repr

/-- The power domains and the island gate controller (R87-R114). -/
structure Gate where
  /-- SYS_PDSTATEn: the state of PD0-PD66 (Table 4.9) -/
  pd : Vector PdState 67 := (Vector.replicate 67 .off).set 0 .on
  /-- SYS_GATESTAT.BUSY -/
  busy : Bool := false
  /-- SYS_GATESTAT.PHASE -/
  phase : BitVec 3 := 0
  /-- SYS_GATESTAT.RESULT: 1 DONE, 2 BUSY, 3 RULE, 4 MODE, 5 UPDTMO -/
  result : BitVec 4 := 0
  /-- SYS_GATESTAT.SRC -/
  src : BitVec 3 := 0
  /-- SYS_GATESTAT.CMD -/
  cmd : BitVec 3 := 0
  /-- SYS_GATESTAT.LOST -/
  lost : BitVec 5 := 0
  /-- SYS_GATESTAT.PD -/
  pdReg : BitVec 7 := 0
  /-- the command being executed, its domain and issuer -/
  run : Option (GateCmd × Fin 67 × Requester) := none
  /-- the updater of each CLOSED domain (R111) -/
  updater : List (Nat × Requester) := []
  /-- SYS_GATECFG.UPDTMO -/
  updtmo : BitVec 10 := 100
  /-- reservations of the vacate: voice and its reserved place (R101) -/
  resv : List (VIdx × VIdx) := []
  /-- B1 of the vacate has passed (R101) -/
  b1Done : Bool := false
  /-- domains PD46-PD57 that the latest MEMTEST failed and no UP has powered since: bit d is PD46 + d (R312) -/
  failed : BitVec 12 := 0
  deriving DecidableEq, Repr

/-! ## Host bus and SYS -/

/-- How an internal access ends (R23, R83). -/
inductive Ending where
  | data | absent | berr
  deriving DecidableEq, Repr

/-- An internal access in progress: its address, the write data or none for a read, and the ending that its issue settled,
DATA when its target has accepted it (R84, R96). -/
structure Access where
  addr : Word
  data : Option Word
  adm : Ending
  deriving DecidableEq, Repr

/-- One indirect window (R120-R128). -/
structure Window where
  /-- HB_Wn_ADDR_HI : HB_Wn_ADDR_LO -/
  addr : Word := 0
  /-- the write staging register (R121) -/
  staging : Half := 0
  /-- the read latch (R122) -/
  latch : Half := 0
  /-- the last DATA_LO value returned -/
  dataLo : Half := 0
  /-- CTRL.INC -/
  inc : Bool := false
  /-- STAT.STAGED -/
  staged : Bool := false
  /-- STAT.TMO -/
  tmo : Bool := false
  /-- STAT.BERR -/
  berr : Bool := false
  /-- STAT.ABS -/
  abs : Bool := false
  /-- the internal access in progress (STAT.BUSY) -/
  acc : Option Access := none
  /-- timed-out writes that are still to be performed at their targets, oldest first (R124, R128) -/
  late : List (Word × Word) := []
  deriving DecidableEq, Repr

/-- The host bus in PD1 and its interrupt registers in PD0 (R115-R142). -/
structure HostBus where
  /-- HB_ISR1 : HB_ISR0 (Table 5.8), bit = cause -/
  isr : Word := 0
  /-- HB_IER1 : HB_IER0 -/
  ier : Word := 0
  win : Vector Window 2 := Vector.replicate 2 {}
  /-- HB_STATUS.POISON -/
  poison : Bool := false
  /-- HB_STATUS.PWIN -/
  pwin : Bool := false
  /-- the post FIFO, oldest first (R131) -/
  evFifo : List EvBytes := []
  /-- staged half-words, first written first (R131) -/
  evStage : List Half := []
  /-- HB_EVCTRL.LOWAT -/
  lowat : BitVec 5 := 8
  /-- HB_EVDROP.COUNT -/
  evdrop : Half := 0
  /-- HB_DBK.RING -/
  dbk : BitVec 4 := 0
  /-- HB_DBH.FROM -/
  dbh : BitVec 4 := 0
  /-- HB_DBMSG.MSG -/
  dbmsg : Half := 0
  /-- HB_DBRSP.MSG -/
  dbrsp : Half := 0
  /-- HB_HOOD (Table 5.16) -/
  hood : Half := 0
  /-- HB_HOODST as last mirrored (R141) -/
  hoodst : BitVec 7 := 0x22
  /-- HB_AOHOOD as last mirrored -/
  aohood : Half := 0xFFFF
  /-- HB_FLHOOD as last mirrored: PART 7:4, FULL 3:0 -/
  flhood : Byte := 0x0F
  /-- the HD pins: the data of the most recent completed read (Table 5.1) -/
  hd : Half := 0
  deriving DecidableEq, Repr

/-- The SYS block (Tables 1.7, 1.8, 17.16) and the DLINK master (R18, R19). -/
structure Sys where
  /-- SYS_ABSENT.COUNT -/
  absCount : Half := 0
  /-- SYS_LASTABS.ADDR -/
  lastAbs : Word := 0
  /-- SYS_GPIO.OUT -/
  gpioOut : Byte := 0
  /-- SYS_GPIO.OE -/
  gpioOe : Byte := 0
  /-- DLINK traffic passed its check within the last 64 us (HB_STATUS.DLINK) -/
  dlink : Bool := false
  deriving DecidableEq, Repr

/-! ## Clocks -/

/-- A qualification reference (R64). -/
inductive QualRef where
  | rco | crw | cre
  deriving DecidableEq, Repr

/-- An island switch in progress (R71): the sequence of Table 3.5. -/
structure Switch where
  /-- new source: 0 NOMINAL, 1 XO, 2 RCO -/
  dst : BitVec 2
  /-- divider exponent to reach -/
  div : BitVec 3
  /-- the old source has disengaged -/
  stopped : Bool
  /-- the new source has engaged -/
  engaged : Bool
  /-- started by failover (R78), not by a write -/
  failover : Bool
  /-- the ramp goes on from the step it had reached when its source died (R77) -/
  cont : Bool := false
  deriving DecidableEq, Repr

/-- One island clock, CKP_ICLKn (Table 3.12). -/
structure Iclk where
  /-- DWELL, DIV, SRC as stored -/
  cfg : Word := 0x0400
  sw : Option Switch := none
  /-- a write is held (R73): the register as it stood before the first held one -/
  held : Option Word := none
  /-- WAITSRC -/
  waitsrc : Bool := false
  /-- FAILED -/
  failed : Bool := false
  /-- ACT -/
  act : BitVec 2 := 3
  /-- STEP -/
  step : BitVec 3 := 0
  deriving DecidableEq, Repr

/-- Clock sources, PLLs, references and islands (R59-R86). -/
structure Ckp where
  /-- the monitor's view of XO, CRW, CRE and the PLL outputs, in the order of Clk (R63) -/
  live : Vector Bool 10 := Vector.replicate 10 false
  /-- PLL locks SDW, SDE, CORE, PWM, AUD (CKP_SRC 12:8) -/
  lock : BitVec 5 := 0
  /-- CKP_SRC.XOQ -/
  xoq : Bool := false
  /-- CKP_STAT.FORCED -/
  forced : Bool := false
  /-- CKP_STAT.FAILOVER -/
  failover : Bool := false
  /-- CKP_STAT.HOLDOVER -/
  holdover : Bool := false
  /-- CKP_STAT.REFSW -/
  refsw : Bool := false
  /-- CKP_STAT.XOLOST -/
  xolost : Bool := false
  /-- CKP_STAT.FMUX -/
  fmux : BitVec 3 := 0
  /-- CKP_XOQ.RUN -/
  run : BitVec 3 := 0
  /-- consecutive failing windows (R66) -/
  fails : Nat := 0
  /-- the reference of the present run (R64) -/
  runRef : QualRef := .rco
  /-- CKP_XOQ: TOLREC and TOLRCO -/
  xoqCfg : Word := 0x0000_080C
  /-- CKP_XOCNT.COUNT -/
  xocnt : BitVec 24 := 0
  /-- CKP_XOCNT.REF -/
  xocntRec : Bool := false
  /-- CKP_REF.SEL -/
  refSel : BitVec 2 := 0
  /-- CKP_REF.NOW -/
  refNow : BitVec 2 := 0
  /-- a reference switch waiting to engage (R80) -/
  refNext : Option (BitVec 2) := none
  /-- CKP_EN -/
  en : BitVec 6 := 0
  iclk : Vector Iclk 7 := (Vector.replicate 7 {}).set 1 { act := 2 }
  /-- the failover hood (R78) -/
  hood : Bool := false
  deriving DecidableEq, Repr

/-! ## Daril lanes -/

/-- RX lane states (Table 6.3). -/
inductive RxState where
  | off | hunt | adapt | ready
  deriving DecidableEq, Repr

/-- Port states (Table 6.6). -/
inductive PortState where
  | up | wrapped | armed | isolated
  deriving DecidableEq, Repr

/-- One RX lane. -/
structure RxLane where
  st : RxState := .off
  /-- CHx_LSTAT.LOS -/
  los : Bool := true
  /-- the rate being tried in HUNT (R150) -/
  rate : BitVec 2 := 0
  /-- the lane has locked before, so a new lock is a relock (R155) -/
  locked : Bool := false
  deriving DecidableEq, Repr

/-- One ring port and its lanes (R143-R167). -/
structure LanePort where
  rx : Vector RxLane 2 := Vector.replicate 2 {}
  /-- CHx_LCFG -/
  lcfg : Word := 0x3
  /-- CHx_LSTAT.RATE -/
  rate : BitVec 2 := 0
  /-- CHx_LSTAT.ALIGNED -/
  aligned : Bool := false
  /-- CHx_LSTAT.HOPCHG -/
  hopchg : Bool := false
  /-- CHx_PORT.STATE -/
  state : PortState := .wrapped
  /-- CHx_PORT.CAUSE -/
  cause : BitVec 3 := 0
  /-- CHx_PORT.WRAPCNT -/
  wrapcnt : Half := 0
  /-- CHx_WRAPCFG -/
  wrapcfg : Word := 0x1000
  /-- CHx_RGN: MODE and INTERVAL -/
  rgn : Word := 0x20
  /-- CHx_HOPDLY -/
  hopdly : Half := 0
  /-- CHx_FECCORR -/
  feccorr : Word := 0
  /-- CHx_FECUNC -/
  fecunc : Word := 0
  /-- CHx LOSCNT -/
  loscnt : Half := 0
  /-- CHx RELOCK -/
  relock : Half := 0
  /-- CHx_MSBCMD -/
  msbCmd : Word := 0x00A0_0000
  /-- sideband transaction running -/
  msbBusy : Bool := false
  msbNack : Bool := false
  msbTmo : Bool := false
  msbRdata : Byte := 0
  /-- LPMODE -/
  lpmode : Bool := false
  /-- PRS: module present -/
  prs : Bool := false
  /-- the repeat path of the ring entering here has started (R49) -/
  repeating : Bool := false
  /-- the turn of the ring entering here has engaged and sends (R163) -/
  turned : Bool := false
  /-- TRAIN is received on both lanes while UP (R160) -/
  trainDef : Bool := false
  /-- alignment is lost (R144) -/
  alignDef : Bool := false
  /-- module-present has deasserted (R160) -/
  moduleDef : Bool := false
  /-- the tap is in step with a frame header since alignment and since the port's domain went ON (R107, R153) -/
  tap : Bool := false
  /-- the running sideband transaction is a read (R165) -/
  msbRd : Bool := false
  deriving DecidableEq, Repr

/-- Both ports: 0 WEST (CHW, Ring A in), 1 EAST (CHE, Ring B in); and N_eff as received (R157). -/
structure Lanes where
  port : Vector LanePort 2 := Vector.replicate 2 {}
  /-- CHx_RGN.NEFF -/
  neff : BitVec 6 := 32
  /-- N_eff was received at END (R157) -/
  neffRecv : Bool := false
  deriving DecidableEq, Repr

/-! ## CHN: frames, chain time, position, head role -/

/-- What CHN keeps of the latest frame received on a ring (R182, R186). -/
structure RingFrame where
  frame : BitVec 40
  at_ : Quad
  valid : Bool
  turned : Bool
  count : Bool
  probe : Bool
  usable : Bool
  acc : BitVec 24
  /-- frames that have arrived on the other ring since (R186, R188) -/
  since : Nat := 0
  deriving DecidableEq, Repr

/-- CHN in fixture role (R168-R196, Table 7.6). -/
structure Chn where
  ctime : Quad := 0
  /-- number of the latest tick boundary: frame * 6 + tick (R181) -/
  tick : Nat := 0
  /-- tick boundaries passed, whatever steps chain time made: the model's own count of elapsed ticks -/
  ticks : Nat := 0
  /-- CTHI latch -/
  cthi : Word := 0
  lock : Bool := false
  ranged : Bool := false
  frozen : Bool := false
  freerun : Bool := false
  tring : Bool := false
  /-- CHN_STAT.ROLE: 0 fixture, 1 head, 2 LOST -/
  role : BitVec 2 := 0
  step : Bool := false
  miss : Bool := false
  held : Bool := false
  /-- the held position is latched: by END, by a late ASSIGN, as kept across a reset, or as position 0 (R36, R191) -/
  fixed : Bool := false
  late : Bool := false
  overflow : Bool := false
  npos : BitVec 10 := 0
  pos : BitVec 10 := 0
  mepoch : Half := 0
  huid : BitVec 48 := 0
  offset : BitVec 24 := 0
  ctot : BitVec 24 := 0
  err : Word := 0
  /-- TRSEL and LINKDLY -/
  cfg : Word := 100
  cellerr : Half := 0
  uperr : Half := 0
  filled : Half := 0
  last : Vector (Option RingFrame) 2 := Vector.replicate 2 none
  /-- the last cable delays c_a, newest first, at most 16 (R182) -/
  caHist : List Int := []
  /-- consecutive frames with |ERR| at most 5 ns (R184) -/
  lockRun : Nat := 0
  /-- frequency error that the second-order loop of the servo has found, in CTIME units a frame (R183) -/
  freq : Int := 0
  /-- in MUSTER, END has not been received (R179) -/
  mustering : Bool := false
  /-- SPLIT flag of the latest valid frame (R190) -/
  split : Bool := false
  /-- keys of cells already delivered in recent frames (R190) -/
  delivered : List (BitVec 40 × Bool × Nat) := []
  /-- the composed uplink cell for each ring; empty without a position (R179) -/
  uplink : Vector (List Byte) 2 := Vector.replicate 2 []
  /-- both lane frames of the latest frame sent on along each ring (R156, R172), or launched there by a head (R194); a lane
  that sent none of it holds nothing -/
  sent : Vector (List Byte × List Byte) 2 := Vector.replicate 2 ([], [])
  /-- what CHW_FECUNC and CHE_FECUNC rose by since the previous status record (Table 16.3) -/
  fecNew : Nat := 0
  /-- valid frames arrived within the last two frames (R36, R56) -/
  framesNow : Bool := false
  deriving DecidableEq, Repr

/-- The head role (R193-R195). -/
structure Head where
  /-- 0x40: PROBEINT, EN, SPLIT, AUTOASSIGN, NEFF -/
  cfg : Word := 0x0008_2020
  hloop : BitVec 24 := 0
  ctsetLo : Word := 0
  ctsetHi : Byte := 0
  /-- the frame count loads at the next frame -/
  ctsetGo : Bool := false
  /-- 0x50: EN, EDGE, PERIODS, FRAMES -/
  gen : Word := 0x0001_0140
  pherr : BitVec 24 := 0
  genlk : Bool := false
  /-- consecutive comparisons within 50 ns (R195) -/
  genRun : Nat := 0
  /-- GENLOCK edges since the last compared one -/
  genEdges : Nat := 0
  /-- trim of the lane frequency, in ppm / 1000 -/
  trim : Int := 0
  htxRing : BitVec 2 := 0
  htxdrop : Bool := false
  htxbuf : Cells 8 := []
  /-- the queue of cells, oldest first (R194) -/
  queue : List (List Byte × BitVec 2) := []
  found : BitVec 48 := 0
  /-- COUNT frames are being sent (R191) -/
  counting : Bool := false
  /-- returned ACC of the last COUNT frame, its FRAME, and in how many frames running it has been the same -/
  countAcc : BitVec 24 := 0
  countFrame : BitVec 40 := 0
  countRun : Nat := 0
  /-- positions whose HELLO has passed in this count -/
  hellos : List Nat := []
  /-- CMD of the next frame: 1 REMUSTER, 2 END -/
  cmd : Byte := 0
  /-- frames since the last PROBE -/
  sinceProbe : Nat := 0
  /-- UID range of the probe search (R194) -/
  probeLo : BitVec 48 := 0
  probeHi : BitVec 48 := 0xFFFF_FFFF_FFFF
  /-- the next frame is a PROBE -/
  probing : Bool := false
  /-- the searched range is known to hold an unassigned device -/
  probeKnown : Bool := false
  /-- positions assigned since the last END -/
  assigned : List Nat := []
  /-- frames since a foreign frame was discarded; none when longer than 16 (R193) -/
  foreign : Option Nat := none
  /-- consecutive frames of its own that returned valid on both ports, and the latest of them -/
  ownRun : Nat := 0
  ownFrame : BitVec 40 := 0
  ctotal : BitVec 24 := 0
  /-- loop measurements minus ACC, newest first, at most 16 -/
  loopHist : List Int := []
  /-- downstream cells of the latest launched frame that are not IDLE: the cell with its CRC, the ring and the index; in
  MIRROR each goes to both rings -/
  txCells : List (List Byte × Bool × Nat) := []
  deriving DecidableEq, Repr

/-! ## Sessions and dispatch -/

/-- Session states (R197). -/
inductive SessState where
  | free | open_ | claimed
  deriving DecidableEq, Repr

/-- A session's entry: what R22 reads whole. -/
structure SessEntry where
  state : SessState := .free
  prec : BitVec 4 := 0
  /-- MERGE: false HTP, true LTP -/
  ltp : Bool := false
  acttmo : Byte := 0
  limit : BitVec 10 := 512
  reserve : BitVec 10 := 0
  /-- RANGE0-RANGE3: LO, HI -/
  ranges : Vector (Half × Half) 4 := Vector.replicate 4 (0xFFFF, 0)
  owner : BitVec 48 := 0
  deriving DecidableEq, Repr

/-- The patch copy of a voice: the 256 bytes of a record after R225. -/
abbrev Patch := Vector Byte 256

/-- A queued event: its number in the order of acceptance, the tick number at which it plays, and its prefetched record
(R200, R214, R223). -/
structure QEntry where
  no : Nat
  ev : EvBytes
  play : Nat
  copy : Option Patch := none
  /-- its place among the events that the latest boundary deferred, from 1; 0 when it was not deferred (R217) -/
  deferred : Nat := 0
  deriving DecidableEq, Repr

/-- One session (Table 8.5). -/
structure Session where
  /-- the entry in force this tick -/
  cur : SessEntry := {}
  /-- the entry from the next boundary (R22) -/
  nxt : SessEntry := {}
  key : BitVec 128 := 0
  seq : Word := 0
  late : Half := 0
  drop : Half := 0
  qovf : Half := 0
  outrange : Half := 0
  queue : List QEntry := []
  /-- the session becomes FREE at the next boundary (R205) -/
  freeing : Bool := false
  /-- count of elapsed ticks at the latest activity (R322); 0 when there was none -/
  active : Nat := 0
  deriving DecidableEq, Repr

/-- A patch-record read issued for a queued event (R223): its session, the event's number, and the record's byte address as
VOX_PATCHBASE stood at the issue. The 32 words are read one by one, and a store may fall between two of them (R282). -/
structure PatchRead where
  sess : SIdx
  no : Nat
  addr : Nat
  /-- bytes of the words read so far -/
  got : List Byte := []
  /-- a word read so far ended ABSENT or was poisoned -/
  bad : Bool := false
  deriving DecidableEq, Repr

/-- The DIS block (R197-R220). -/
structure Dis where
  /-- DIS_LOCK -/
  lock : Half := 1
  /-- DIS_STAT.DEFER -/
  defer : Half := 0
  /-- DIS_STAT.DUE -/
  due : BitVec 10 := 0
  /-- DIS_CLAIMLOG: RESULT, OP, SESS, CUIDLO -/
  clRes : BitVec 3 := 0
  clOp : Bool := false
  clSess : BitVec 4 := 0
  clCuid : Half := 0
  sess : Vector Session 16 := (Vector.replicate 16 {}).set 0
    { cur := { state := .open_, prec := 8, ranges := (Vector.replicate 4 (0xFFFF, 0)).set 0 (0, 0x4FFF) },
      nxt := { state := .open_, prec := 8, ranges := (Vector.replicate 4 (0xFFFF, 0)).set 0 (0, 0x4FFF) } }
  /-- PARAM entries for the next boundary: session, TAG, PID, VALUE (R219) -/
  params : List (SIdx × Half × Byte × Word) := []
  /-- events accepted so far, which numbers the queue entries (R200) -/
  arrivals : Nat := 0
  /-- patch-record reads outstanding, oldest first (R223) -/
  reads : List PatchRead := []
  deriving DecidableEq, Repr

/-! ## Voices and allocation -/

/-- Voice states (Table 9.8). ABSENT is the reading of a voice whose eyrie is not ON. -/
inductive VState where
  | absent | free | sounding | held | releasing | stooping | faulted
  deriving DecidableEq, Repr

/-- The pending event of a STOOPING voice (R258). -/
structure Pending where
  sess : SIdx
  ev : EvBytes
  play : Nat
  copy : Patch
  /-- ranges of the session when the event was handed over -/
  ranges : Vector (Half × Half) 4
  deriving DecidableEq, Repr

/-- The reply of a wavetable read (R229, R242, R243). -/
inductive WtReply where
  | value (s0 s1 : Half)
  | absent
  | poisoned (s0 s1 : Half)
  deriving DecidableEq, Repr

/-- One voice: the record of Table 9.10, its patch copy and what its rules carry from tick to tick. -/
structure Voice where
  state : VState := .absent
  prio : BitVec 4 := 0
  sess : SIdx := 0
  reld : Bool := false
  tag : Half := 0
  patch : BitVec 12 := 0
  tbase : Half := 0
  tlast : Half := 0
  rand : Half := 0
  key : Byte := 0
  vel : Byte := 0
  sframe : Word := 0
  stick : BitVec 3 := 0
  hold : Vector Bool 3 := Vector.replicate 3 false
  seg : Vector (BitVec 3) 3 := Vector.replicate 3 0
  phase : Vector Word 2 := Vector.replicate 2 0
  lfsr : Word := 0
  /-- SHA, SHB -/
  sh : Vector Lvl 2 := Vector.replicate 2 0
  env : Vector Lvl 3 := Vector.replicate 3 0
  /-- level at the start of the current segment (R231) -/
  envStart : Vector Lvl 3 := Vector.replicate 3 0
  k : Vector Word 3 := Vector.replicate 3 0
  /-- the envelope is complete (R232) -/
  done : Vector Bool 3 := Vector.replicate 3 false
  /-- the envelope completes at the end of this tick (R233, holding at SUS = NSEG - 1) -/
  finish : Vector Bool 3 := Vector.replicate 3 false
  low : Int := 0
  band : Int := 0
  /-- HIGH of the previous tick (Table 10.1) -/
  high : Int := 0
  /-- LASTA, LASTB -/
  last : Vector Lvl 2 := Vector.replicate 2 0
  out : Lvl := 0
  stoopg : Lvl := 0
  age : Word := 0
  copy : Patch := Vector.replicate 256 0
  /-- the slot contributions of the latest rendered tick (R238, R244) -/
  contrib : Vector Lvl 4 := Vector.replicate 4 0
  /-- ranges of the session when the event was handed over (R205, R213) -/
  ranges : Vector (Half × Half) 4 := Vector.replicate 4 (0xFFFF, 0)
  /-- ticks presented since start; 0 in the first tick (R242) -/
  rendered : Nat := 0
  /-- starts rendering at this count of elapsed ticks (R224) -/
  startTick : Nat := 0
  /-- RELD as it stood at the end of the previous tick (R237) -/
  reldEnd : Bool := false
  /-- wavetable replies of the tick, per oscillator (R229) -/
  wt : Vector (Option WtReply) 2 := Vector.replicate 2 none
  /-- clamped modulation sums of the tick by destination, in 2^-24 (R249) -/
  msum : Vector Int 16 := Vector.replicate 16 0
  /-- ticks left of the FAULTED hold (R244) -/
  faultLeft : Nat := 0
  /-- stoop: ticks done, length, factor at its start (R258) -/
  stoopK : Nat := 0
  stoopT : Nat := 0
  stoopG0 : Lvl := 0xFFFFFF
  pend : Option Pending := none
  /-- stolen at the current boundary (R256) -/
  stolen : Bool := false
  deriving DecidableEq, Repr

/-- The VOX block (Tables 9.11-9.14, 10.5) and the voices. -/
structure Vox where
  voice : Vector Voice 512 := Vector.replicate 512 {}
  /-- the records and table sets as of the end of the most recent rendered tick, which a read returns (R245) -/
  shown : Vector Voice 512 := Vector.replicate 512 {}
  shownSet : BitVec 32 := 0
  patchbase : BitVec 2 := 0
  fhold : Byte := 20
  abssmp : Half := 0
  faults : Half := 0
  slip : Half := 0
  steals : Vector Half 16 := Vector.replicate 16 0
  novoice : Vector Half 16 := Vector.replicate 16 0
  /-- VOX_RESVs.RES as computed at the latest boundary -/
  res : Vector (BitVec 10) 16 := Vector.replicate 16 0
  /-- VOX_RESVs.LIM -/
  lim : Vector (BitVec 10) 16 := Vector.replicate 16 512
  /-- VOX_KILL bits for the next boundary -/
  kill : Half := 0
  deriving DecidableEq, Repr

/-- One table set (R261): allocation entries, overlays, merge entries, curves. -/
structure TableSet where
  /-- EYRIES masks -/
  eyries : Vector Word 16 := Vector.replicate 16 0xFFFF_FFFF
  /-- POLICY 9:8 and XSTEAL 0 -/
  policy : Vector Word 16 := Vector.replicate 16 1
  ovl : Vector (Vector Word 4) 16 := Vector.replicate 16 (Vector.replicate 4 0)
  /-- merge target entries (Table 13.5), e = 0-95 -/
  ent : Vector Word 96 := Vector.replicate 96 20
  /-- curve points, key 1024 * curve + point; unlisted points are the identity (R325) -/
  curves : Cells 16 := []
  deriving DecidableEq, Repr

/-- Table sets and epochs (R261-R266). -/
structure Epoch where
  cur : Bool := false
  snap : Bool := false
  mig : Bool := false
  held : Bool := false
  commitDrop : Bool := false
  num : Half := 0
  /-- VOX_EPOCH_PROGRESS -/
  eyries : BitVec 6 := 0
  groups : BitVec 5 := 0
  /-- steps taken since B0; none before B0 (R264) -/
  stepNo : Option Nat := none
  /-- set used by each eyrie and each merge group: bit 1 is set 1 -/
  eyrieSet : BitVec 32 := 0
  groupSet : BitVec 16 := 0
  set0 : TableSet := {}
  set1 : TableSet := {}
  stage : TableSet := {}
  deriving DecidableEq, Repr

/-- One chain-locked LFO (R251): EN and PERIOD in cfg. -/
structure Lfo where
  cfg : Word := 48000
  ofs : Word := 0
  posk : Word := 0
  wave : BitVec 3 := 0
  deriving DecidableEq, Repr

/-- The MOD block (R251, R252). -/
structure ModBlk where
  lfo : Vector Lfo 4 := Vector.replicate 4 {}
  hmac : Vector Half 12 := Vector.replicate 12 0
  kmod : Vector Half 16 := Vector.replicate 16 0
  deriving DecidableEq, Repr

/-! ## Kestrels and memory -/

/-- A memory operation on its way to its target (R278, R281, R288): a store of `size` bytes, a posted event, or a SWAP, CAS or
load that crossed before its kestrel stopped (R97, R106). `adm` is the ending that its issue settled, none before the
issue. -/
inductive SbEntry where
  | store (addr : Word) (size : Nat) (data : Word) (poison : Bool) (adm : Option Ending)
  | post (ev : EvBytes) (sess : BitVec 4) (adm : Option Ending)
  | atomic (addr : Word) (new : Word) (poison : Bool) (cmp : Option Word) (adm : Ending)
  | load (addr : Word) (adm : Ending)
  deriving DecidableEq, Repr

/-- What a kestrel waits for inside an instruction. -/
inductive KWait where
  | none
  /-- a load: register, address, size, sign-extended (R277), and the ending that its issue settled -/
  | load (rt : Fin 16) (addr : Word) (size : Nat) (sx : Bool) (adm : Option Ending)
  /-- SWAP or CAS: register, address, new value with marker, compare value for CAS (R281), and the ending that its issue
  settled -/
  | atomic (rd : Fin 16) (addr : Word) (new : Word) (poison : Bool) (cmp : Option Word) (adm : Option Ending)
  /-- FENCE -/
  | fence
  /-- WAIT: destination and mask (R286) -/
  | event (rd : Fin 16) (mask : Word)
  /-- a store or post that waits for room in the buffer (R278), and the instruction word as it was fetched -/
  | room (e : SbEntry) (w : Word)
  deriving DecidableEq, Repr

/-- One kestrel (R267-R297). -/
structure Kestrel where
  regs : Vector Word 16 := Vector.replicate 16 0
  /-- poison markers (R276) -/
  mark : Vector Bool 16 := Vector.replicate 16 false
  pc : BitVec 14 := 0
  sbuf : List SbEntry := []
  /-- entries that had crossed to their target when the kestrel was reset or restarted (R106, R290, R291) -/
  crossed : List SbEntry := []
  rst : Bool := true
  brkh : Bool := false
  sess : BitVec 4 := 0
  bootpc : BitVec 14 := 0
  halted : Bool := false
  parked : Bool := false
  dfault : Bool := false
  hcause : BitVec 3 := 0
  traps : Half := 0
  pdrop : Half := 0
  brk : Vector Word 4 := Vector.replicate 4 0
  cyc : Quad := 0
  cychi : Word := 0
  cthi : Word := 0
  tgtlo : Word := 0
  tgthi : Word := 0
  /-- the loaded time target (R284) -/
  target : Quad := 0
  /-- PEND bits other than TIME and DBELL -/
  pend : Half := 0
  tpc : BitVec 14 := 0
  tcause : BitVec 4 := 0
  tinfo : Word := 0
  tentry : BitVec 14 := 0
  intrap : Bool := false
  wait : KWait := .none
  /-- HALTREQ waits for the current instruction (R293) -/
  haltReq : Bool := false
  /-- a STEP is executing (R294) -/
  stepping : Bool := false
  /-- the next instruction does not match a breakpoint (R294) -/
  skipBrk : Bool := false
  /-- RST = 1 is written and the current instruction still runs (R291) -/
  stopping : Bool := false
  /-- a park waits for the current instruction (R292) -/
  parkReq : Bool := false
  /-- RST = 0 was written in BOOT (R290) -/
  startPend : Bool := false
  deriving DecidableEq, Repr

/-- The four kestrels. -/
structure Kst where
  core : Vector Kestrel 4 := Vector.replicate 4 {}
  deriving DecidableEq, Repr

/-- Mews, perch RAM and scratch (R298, R270): stored words of 72 bits, keyed by byte address / 8; an unlisted word is
the zero word with a clean check field. -/
structure Mem where
  words : Cells 72 := []
  deriving DecidableEq, Repr

/-- An ECC capture (R308). -/
structure Capture where
  addr : Word := 0
  data : Quad := 0
  valid : Bool := false
  src : BitVec 4 := 0
  chk : Byte := 0
  syn : Byte := 0
  deriving DecidableEq, Repr

/-- Counters of one bank (Table 12.4). -/
structure Bank where
  cor : Half := 0
  unc : Byte := 0
  bucket : Byte := 0
  scrub : Nat := 0
  deriving DecidableEq, Repr

/-- The ECC block (R298-R315). -/
structure Ecc where
  cfg : Word := 0x0010_03E8
  thr : Byte := 16
  corst : Byte := 0
  kfail : BitVec 4 := 0
  fail : Byte := 0
  bistaddr : Word := 0
  bank : Vector Bank 8 := Vector.replicate 8 {}
  kcor : Half := 0
  kunc : Half := 0
  rcor : Half := 0
  runc : Half := 0
  ccap : Capture := {}
  ucap : Capture := {}
  /-- ECC_FLIPCTL: ARM, TGT, CK -/
  flipctl : Word := 0
  flip : Quad := 0
  deriving DecidableEq, Repr

/-! ## Merge, emitters, D-die -/

/-- A stream level in force, or waiting for its boundary (R317, R318). -/
structure StreamLvl where
  sess : SIdx
  target : Half
  level : Half
  /-- key of the cell (frame, ring, index) when it came in one -/
  key : Option (BitVec 40 × Bool × Nat)
  /-- tick number at which it takes effect, then the count of elapsed ticks at which it did -/
  tick : Nat
  /-- it came in a packet of DMX port 1 (R398) -/
  dmx1 : Bool := false
  deriving DecidableEq, Repr

/-- A session's value for a target at the latest boundary, with its change stamp (R321): the boundary, and within it
the rank, earlier changes lower. -/
structure Stamp where
  sess : SIdx
  target : Half
  value : Lvl
  tick : Nat
  rank : Nat
  /-- the combined voice and vacate contributions, none without any (R321) -/
  rest : Option Nat
  /-- the stream level, widened -/
  lvl : Option Nat
  deriving DecidableEq, Repr

/-- MRG_OUT of one entry (Table 13.5). -/
structure MrgOut where
  none : Bool := true
  owner : BitVec 4 := 0
  out : Lvl := 0
  deriving DecidableEq, Repr

/-- The MRG block outside the table sets (R316-R327). -/
structure Mrg where
  cfg : Word := 0x8001_000A
  mhold : Bool := false
  mact : Bool := false
  ato : Half := 0
  derate : Word := 0x0040_146E
  factor : Half := 0xFFFF
  tdie : BitVec 9 := 0
  /-- f in force, in units of 1/1024 of 1/256 (R326) -/
  fnow : Int := 262144
  /-- levels in force -/
  lvls : List StreamLvl := []
  /-- levels that take effect at a later boundary -/
  wait : List StreamLvl := []
  /-- vacate contributions (R323): session, target, value -/
  vac : List (SIdx × Half × Lvl) := []
  stamps : List Stamp := []
  out : Vector MrgOut 80 := Vector.replicate 80 {}
  slew : Vector Lvl 64 := Vector.replicate 64 0
  /-- OUT of the pixel components at the latest presentation, by target; one that is not listed presented 0 -/
  px : Cells 24 := []
  /-- count of elapsed ticks at which the missing-frame hold began (R324) -/
  missTick : Int := 0
  /-- a temperature report waits for the next boundary (R326) -/
  newT : Bool := false
  deriving DecidableEq, Repr

/-- One emitter channel of the timer array (Table 13.6). -/
structure EmtCh where
  ofs : Half := 0
  eff : Half := 0
  level : BitVec 20 := 0
  /-- presented by merge (R29) -/
  pre : BitVec 20 := 0
  /-- presented one boundary earlier, for a wrap inside the 800-cycle margin -/
  preOld : BitVec 20 := 0
  acc : Nat := 0
  width : Nat := 0
  deriving DecidableEq, Repr

/-- One flight (R328-R334): the registers and the copies in force. -/
structure Flight where
  fcfg : Word := 0xC000_07D0
  gang : Word := 0
  en : Half := 0
  skip : Half := 0
  /-- FCFG in force -/
  actCfg : Word := 0xC000_07D0
  /-- offsets, enables and gangs in force -/
  actEn : Half := 0
  actGang : Word := 0
  /-- wraps since the counter restarted (R330) -/
  wraps : Nat := 0
  /-- PWM cycles since the frame start at the latest wrap, with FLOCK = 1 -/
  frameIdx : Nat := 0
  /-- the presentation whose levels the flight loaded last, as `Emt.preTick` numbers it (R29) -/
  took : Nat := 0
  ch : Vector EmtCh 16 := Vector.replicate 16 {}
  deriving DecidableEq, Repr

/-- The emitter timer array. -/
structure Emt where
  fl : Vector Flight 4 := Vector.replicate 4 {}
  /-- count of elapsed ticks at the boundary that presented the levels `pre` (R29) -/
  preTick : Nat := 0
  deriving DecidableEq, Repr

/-- One emitter sink of the D-die (Table 13.7). -/
structure DrvEm where
  cfg : Word := 0x1150_0000
  short : Bool := false
  open_ : Bool := false
  rtie : Bool := false
  valid : Bool := false
  scan : BitVec 2 := 0
  tiep : BitVec 6 := 0
  fcnt : Half := 0
  /-- the reaction of a short in force: ACT code at the trip (Table 13.2) -/
  shortHood : Option (BitVec 2) := none
  /-- that reaction is LATCHED: RETRY was 0 at the trip (R337) -/
  latched : Bool := false
  /-- hooded, latched, by a short that a scan found (R340) -/
  scanHood : Bool := false
  /-- hooded by an open string (R338) -/
  openHood : Bool := false
  /-- its flight is hooded by a run-time tie of this channel (R341) -/
  rtieHood : Bool := false
  deriving DecidableEq, Repr

/-- One analog output stage (Table 14.4). -/
structure DrvAo where
  /-- MODE bit 31, RANGE bit 30 -/
  cfg : Word := 0x4000_0000
  cont : Bool := false
  ov : Bool := false
  iso : Bool := false
  ovcnt : Half := 0
  /-- hooded for a change of MODE or RANGE (R352) -/
  change : Bool := false
  deriving DecidableEq, Repr

/-- A report that the D-die sends in its next DLINK frame (R337, R338, R340, R341, R354, R355). -/
inductive DrvReport where
  | fault (n : Fin 64)
  | tie (n : Fin 64)
  | analog (n : Fin 16)
  deriving DecidableEq, Repr

/-- The D-die: DRV registers and what hoods its outputs (R335-R342, R351-R355). -/
structure Drv where
  linkloss : Bool := false
  lhood : Bool := true
  em : Vector DrvEm 64 := Vector.replicate 64 {}
  ao : Vector DrvAo 16 := Vector.replicate 16 {}
  scanBusy : Bool := false
  scanDone : Bool := false
  scanSkip : Bool := false
  /-- next channel of the running scan -/
  scanPos : Nat := 0
  /-- results of the running scan: SCAN, TIEP -/
  scanRes : List (BitVec 2 × BitVec 6) := []
  /-- reports waiting for the next DLINK frame, oldest first -/
  reports : List DrvReport := []
  tieack : Quad := 0
  /-- the MODE hood, lifted by a mode entry (Table 2.4) -/
  modeHood : Bool := true
  /-- the MODE hood lifts at the next frame boundary (Table 2.4, SHOW) -/
  liftAtFrame : Bool := false
  /-- VAO is below its lockout (R417) -/
  vaoLow : Bool := false
  deriving DecidableEq, Repr

/-! ## Analog outputs and pixel ports -/

/-- One analog channel of AOU (Table 14.3). -/
structure AouCh where
  cfg : Word := 0
  /-- MODE in force (R344) -/
  mode : BitVec 2 := 0
  stg : Half := 0
  fifo : List Half := []
  code : Half := 0
  target : Half := 0
  /-- periods since the previous slew step (R349) -/
  since : Nat := 256
  inc : Word := 0
  /-- AMP 31:16, OFS 15:0 -/
  ampOfs : Word := 0x8000
  ph0 : Word := 0
  phase : Word := 0
  /-- a target code waiting for the period boundary (R344) -/
  next : Option Half := none
  /-- code of the latest level presented by merge -/
  merge : Half := 0
  deriving DecidableEq, Repr

/-- The AOU block. -/
structure Aou where
  qdiv : BitVec 6 := 1
  /-- TIM and SRC -/
  strobe : Word := 0
  smask : Half := 0
  marklo : Word := 0
  markhi : Word := 0
  mark : Quad := 0
  arm : Bool := false
  ovr : Half := 0
  under : Half := 0
  ch : Vector AouCh 16 := Vector.replicate 16 {}
  /-- sine table points written; unlisted points are the quarter sine (R348) -/
  table : Cells 16 := []
  /-- the AO period count modulo 16 (R350) -/
  q : Nat := 0
  deriving DecidableEq, Repr

/-- One pixel port (Table 14.5). -/
structure PixPort where
  cfg : Word := 0x02E4_0001
  clk : Word := 0x0020_0019
  ref : Word := 0x50
  latch : Word := 0x50
  /-- the registers in force since the latest trigger (R358): CFG, CLK, REF, LATCH -/
  act : Vector Word 4 := #v[0x02E4_0001, 0x0020_0019, 0x50, 0x50]
  busy : Bool := false
  /-- the last bit has been sent; the gap runs -/
  gap : Bool := false
  skip : Half := 0
  /-- the snapshot of the refresh is still to be taken, at the boundary of tick 0 -/
  snap : Bool := false
  /-- components of the latest refresh, in sending order -/
  data : List Half := []
  deriving DecidableEq, Repr

/-- The four pixel ports. -/
structure Pix where
  port : Vector PixPort 4 := Vector.replicate 4 {}
  /-- presented levels of pixel components, by target; unlisted is 0 -/
  lvl : Cells 24 := []
  deriving DecidableEq, Repr

/-! ## Sense, audio, timers -/

/-- The sense converter (R362-R370). -/
structure Sns where
  ctrl : Word := 0x0001_0080
  ovf : Bool := false
  trigmiss : Bool := false
  /-- a pass is running (BUSY) -/
  pass : Bool := false
  /-- a SINGLE trigger waits for the sample boundary -/
  trig : Bool := false
  idx : Nat := 0
  fifo : List Word := []
  ent : Vector Word 32 := Vector.replicate 32 0x1201
  map : Vector Word 8 := Vector.replicate 8 0
  span : Vector Word 8 := Vector.replicate 8 0x7F_FFFF
  /-- SENSEi as published, 0 to 1 -/
  val : Vector Rat 8 := Vector.replicate 8 0
  /-- tagged samples still to come in this visit (R366) -/
  tags : Nat := 0
  /-- untagged samples delivered in this visit -/
  got : Nat := 0
  /-- settings of the previous sample; none after RUN (R366) -/
  prev : Option Word := none
  /-- DATA[23:8] of the last untagged SI0 and SI1 samples (Table 16.3) -/
  vfield : Half := 0
  vhold : Half := 0
  deriving DecidableEq, Repr

/-- The audio input and beat tracker (R371-R374). -/
structure Aud where
  cfg : Word := 0x28B4_3C18
  lock : Bool := false
  rate : BitVec 2 := 0
  btfrm : Word := 0
  btfrac : BitVec 24 := 0
  env : Vector Word 4 := Vector.replicate 4 0x2000_C703
  /-- follower values e, in 2^-32 -/
  e : Vector Nat 4 := Vector.replicate 4 0
  left : Int := 0
  right : Int := 0
  /-- what the band filters of the followers and the low-pass of the tracker hold (R373, R374) -/
  filt : Vector Nat 5 := Vector.replicate 5 0
  /-- sum of squares and number of samples of the present ms -/
  sum : Nat := 0
  num : Nat := 0
  /-- log2 of en_prev + 2^-30, in 2^-16 -/
  prevLog : Int := -1966080
  /-- onset detection values, newest first, one a ms, in 2^-16 -/
  odf : List Nat := []
  /-- ONSET, in 2^-18 -/
  onset : Nat := 0
  /-- beat period, ms -/
  tau : Nat := 500
  /-- ms since the island started; last and next beat, in 1/64 ms -/
  now : Nat := 0
  lastBeat : Int := 0
  nextBeat : Int := 32000
  /-- a beat was reported since the latest tick boundary -/
  pulse : Bool := false
  /-- BEATPULSE as voices see it in this tick -/
  pulseNow : Bool := false
  deriving DecidableEq, Repr

/-- One general timer (Table 15.6). -/
structure Gpt where
  cfg : Word := 0x0080_0000
  count : Word := 0
  top : Word := 0xFFFF_FFFF
  match_ : Word := 0xFFFF_FFFF
  /-- prescaler count (R375) -/
  pre : Nat := 0
  /-- preloads waiting for the wrap (R378) -/
  topNext : Option Word := none
  matchNext : Option Word := none
  cap : Word := 0
  out : Bool := false
  ovr : Bool := false
  capf : Bool := false
  ovf : Bool := false
  mf : Bool := false
  deriving DecidableEq, Repr

/-- The eight timers. INSEL of GTn resets to n. -/
structure GptBlk where
  t : Vector Gpt 8 := Vector.ofFn fun n => { cfg := 0x0080_0000 + (BitVec.ofNat 32 n.val <<< 16) }
  deriving DecidableEq, Repr

/-! ## Management, DMX, roost, JTAG, pins -/

/-- A fault log entry (Table 16.4). -/
structure LogEntry where
  ctime : Quad
  cause : Byte
  mode : BitVec 3
  rep : Byte
  detail : Word
  deriving DecidableEq, Repr

/-- The management engine (R382-R395). -/
structure Mgt where
  cfg : Word := 0
  bulkdrop : Half := 0
  cdrop : Byte := 0
  badform : BitVec 7 := 0
  rpois : Bool := false
  mseq : Word := 0
  mkey : BitVec 128 := 0
  /-- MKEY words 0-2 as written (R390) -/
  mkeyStage : Vector Word 3 := Vector.replicate 3 0
  upbase : Word := 0x0100_0000
  rseq : Word := 0
  rfn : Byte := 0
  rres : Byte := 0
  rdata : Word := 0
  /-- the CONTENT arguments written by the host -/
  hostCid : Word := 0
  hostLen : BitVec 21 := 128
  /-- CID and LEN in force -/
  cid : Word := 0
  len : Nat := 128
  cstage : Word := 0x0130_0000
  cstate : BitVec 3 := 0
  reason : BitVec 3 := 0
  unsigned : Bool := false
  /-- chunks marked -/
  chunks : List Nat := []
  /-- ABORT was requested in ACTIVATING (R395) -/
  abort : Bool := false
  ivmin : Word := 0
  iver : Word := 0
  /-- the fault log, oldest first -/
  log : List LogEntry := []
  logTotal : Half := 0
  logHead : BitVec 6 := 0
  /-- the command queue: payloads with their cell header, oldest first (R387) -/
  queue : List (List Byte) := []
  deriving DecidableEq, Repr

/-- The answer of the RDM responder (R400). -/
inductive RdmAnswer where
  /-- no response -/
  | silent
  /-- a discovery response with the responder's UID -/
  | discovery (uid : BitVec 48)
  /-- ACK with parameter data -/
  | ack (pid : Half) (data : List Byte)
  /-- NACK with a reason code -/
  | nack (pid : Half) (reason : Half)
  /-- the host's own response bytes (R401) -/
  | raw (bytes : List Byte)
  deriving DecidableEq, Repr

/-- One DMX port (Table 16.11). -/
structure DmxPort where
  cfg : Word := 0
  map : Word := 0x0001_0000
  tbase : Half := 0
  tx : Word := 0x0200_00B7
  ident : Bool := false
  lost : Bool := false
  pkts : Half := 0
  frerr : Half := 0
  altsc : Half := 0
  txskip : Half := 0
  txbuf : Cells 8 := []
  /-- a packet is being sent; DE is high -/
  txBusy : Bool := false
  /-- start code and slots of the latest packet sent -/
  txData : List Byte := []
  /-- muted for discovery (R400) -/
  muted : Bool := false
  deriving DecidableEq, Repr

/-- The DMX block. -/
structure Dmx where
  port : Vector DmxPort 2 := Vector.replicate 2 {}
  manf : Half := 0
  model : Half := 0
  swver : Word := 0
  cat : Half := 0
  rxrdy : Bool := false
  /-- the port whose forwarded request waits (R401) -/
  fwdPort : Fin 2 := 0
  /-- PID of the forwarded request -/
  fwdPid : Half := 0
  /-- the forwarded request was a broadcast, so nothing is answered (R400) -/
  fwdBcast : Bool := false
  txlen : BitVec 9 := 0
  str : Cells 8 := []
  rdmrx : List Byte := []
  rdmtx : Cells 8 := []
  /-- the responder's latest answer -/
  answer : RdmAnswer := .silent
  deriving DecidableEq, Repr

/-- The saved look that a restore shows (R407, R408). -/
structure Look where
  emlvl : Vector (BitVec 20) 64 := Vector.replicate 64 0
  aocode : Vector Half 16 := Vector.replicate 16 0
  used : Half := 0
  /-- PIXDATA bytes saved (NPXB of them) -/
  pixdata : List Byte := []
  /-- saved PIX_CFG of each port: which of them the look drives -/
  pixcfg : Vector Word 4 := Vector.replicate 4 0
  deriving DecidableEq, Repr

/-- The roost controller and store (R402-R409). -/
structure Ros where
  cfg : Word := 1
  uaddr : Word := 0x0100_0000
  rhood : Bool := false
  look : Bool := false
  hslot : BitVec 5 := 0
  seq : Word := 0
  /-- some slot holds a SEQ, so HSLOT and SEQ mean something (R405) -/
  hasH : Bool := false
  valid : Word := 0
  torn : Word := 0
  /-- HB_ROOSTST -/
  slot : BitVec 5 := 0
  stValid : Bool := false
  stTorn : Bool := false
  cold : Bool := false
  /-- the store: 72-bit words keyed by byte offset / 8; unlisted is erased, all ones (R314) -/
  store : Cells 72 := []
  /-- the 8 KiB buffer of PD66 (R404) -/
  buffer : List Byte := []
  saved : Look := {}
  deriving DecidableEq, Repr

/-- JTAG instructions (Table 17.15). -/
inductive JtagIr where
  | extest | sample | idcode | extestPulse | extestTrain | highz | clamp | kdebug | bypass
  deriving DecidableEq, Repr

/-- The TAP's debug access port (R432, R433). -/
structure Jtag where
  ir : JtagIr := .idcode
  /-- the KDEBUG access in progress -/
  acc : Option Access := none
  /-- what the next Capture-DR loads: data and ABSENT -/
  data : Word := 0
  absent : Bool := false
  deriving DecidableEq, Repr

/-- Board-level conditions the device watches (R411, R414). -/
structure Pins where
  /-- VFIELD is at or above its present threshold -/
  vfield : Bool := false
  /-- levels of GT0-GT7, the pins GP8-GP15, as their latest edges left them -/
  gt : Byte := 0
  /-- the level that GP0 had at its latest wake condition (R53) -/
  gp0 : Bool := false
  deriving DecidableEq, Repr

/-! ## The machine -/

/-- The whole block. -/
structure State where
  mode : ModeCtl := {}
  owl : Owl := {}
  gate : Gate := {}
  host : HostBus := {}
  sys : Sys := {}
  ckp : Ckp := {}
  lanes : Lanes := {}
  chn : Chn := {}
  head : Head := {}
  dis : Dis := {}
  vox : Vox := {}
  epoch : Epoch := {}
  mods : ModBlk := {}
  kst : Kst := {}
  mem : Mem := {}
  ecc : Ecc := {}
  mrg : Mrg := {}
  emt : Emt := {}
  drv : Drv := {}
  aou : Aou := {}
  pix : Pix := {}
  sns : Sns := {}
  aud : Aud := {}
  gpt : GptBlk := {}
  mgt : Mgt := {}
  dmx : Dmx := {}
  ros : Ros := {}
  jtag : Jtag := {}
  pins : Pins := {}
  /-- number of free values drawn so far: the model's own field, not the spec's (log entry 9) -/
  free : Nat := 0
  /-- commands waiting, first in, first out -/
  pending : List Instr := []
  deriving DecidableEq, Repr

/-- The reasons a step can fault. -/
inductive Fault where
  /-- Raised by no command of this model: every row of the table has an effect in the spec. Kept so that the interface
  has a fault type; safe. -/
  | unspecified
  deriving DecidableEq, Repr

/-- The reasons a step can be refused. -/
inductive Refusal where
  /-- A row that has no meaning yet, by its mnemonic: raised by its arm of exec only; safe. -/
  | notModelled (mnemonic : String)
  deriving DecidableEq, Repr

/-- The machine right after a power-on reset whose rails are good: BOOT at FUSE, every register at the value of its
Reset column (R14, R43). -/
def State.reset : State := {}

/-! ## Updates of one block -/

/-- `s` with its `mode` block replaced. -/
def State.setMode (s : State) (x : ModeCtl) : State := { s with mode := x }

/-- `s` with its `owl` block replaced. -/
def State.setOwl (s : State) (x : Owl) : State := { s with owl := x }

/-- `s` with its `gate` block replaced. -/
def State.setGate (s : State) (x : Gate) : State := { s with gate := x }

/-- `s` with its `host` block replaced. -/
def State.setHost (s : State) (x : HostBus) : State := { s with host := x }

/-- `s` with its `sys` block replaced. -/
def State.setSys (s : State) (x : Sys) : State := { s with sys := x }

/-- `s` with its `ckp` block replaced. -/
def State.setCkp (s : State) (x : Ckp) : State := { s with ckp := x }

/-- `s` with its `lanes` block replaced. -/
def State.setLanes (s : State) (x : Lanes) : State := { s with lanes := x }

/-- `s` with its `chn` block replaced. -/
def State.setChn (s : State) (x : Chn) : State := { s with chn := x }

/-- `s` with its `head` block replaced. -/
def State.setHead (s : State) (x : Head) : State := { s with head := x }

/-- `s` with its `dis` block replaced. -/
def State.setDis (s : State) (x : Dis) : State := { s with dis := x }

/-- `s` with its `vox` block replaced. -/
def State.setVox (s : State) (x : Vox) : State := { s with vox := x }

/-- `s` with its `epoch` block replaced. -/
def State.setEpoch (s : State) (x : Epoch) : State := { s with epoch := x }

/-- `s` with its `mods` block replaced. -/
def State.setMods (s : State) (x : ModBlk) : State := { s with mods := x }

/-- `s` with its `kst` block replaced. -/
def State.setKst (s : State) (x : Kst) : State := { s with kst := x }

/-- `s` with its `mem` block replaced. -/
def State.setMem (s : State) (x : Mem) : State := { s with mem := x }

/-- `s` with its `ecc` block replaced. -/
def State.setEcc (s : State) (x : Ecc) : State := { s with ecc := x }

/-- `s` with its `mrg` block replaced. -/
def State.setMrg (s : State) (x : Mrg) : State := { s with mrg := x }

/-- `s` with its `emt` block replaced. -/
def State.setEmt (s : State) (x : Emt) : State := { s with emt := x }

/-- `s` with its `drv` block replaced. -/
def State.setDrv (s : State) (x : Drv) : State := { s with drv := x }

/-- `s` with its `aou` block replaced. -/
def State.setAou (s : State) (x : Aou) : State := { s with aou := x }

/-- `s` with its `pix` block replaced. -/
def State.setPix (s : State) (x : Pix) : State := { s with pix := x }

/-- `s` with its `sns` block replaced. -/
def State.setSns (s : State) (x : Sns) : State := { s with sns := x }

/-- `s` with its `aud` block replaced. -/
def State.setAud (s : State) (x : Aud) : State := { s with aud := x }

/-- `s` with its `gpt` block replaced. -/
def State.setGpt (s : State) (x : GptBlk) : State := { s with gpt := x }

/-- `s` with its `mgt` block replaced. -/
def State.setMgt (s : State) (x : Mgt) : State := { s with mgt := x }

/-- `s` with its `dmx` block replaced. -/
def State.setDmx (s : State) (x : Dmx) : State := { s with dmx := x }

/-- `s` with its `ros` block replaced. -/
def State.setRos (s : State) (x : Ros) : State := { s with ros := x }

/-- `s` with its `jtag` block replaced. -/
def State.setJtag (s : State) (x : Jtag) : State := { s with jtag := x }

/-- `s` with its `pins` block replaced. -/
def State.setPins (s : State) (x : Pins) : State := { s with pins := x }

/-- `s` with its `free` block replaced. -/
def State.setFree (s : State) (x : Nat) : State := { s with free := x }

/-- `s` with its `pending` block replaced. -/
def State.setPending (s : State) (x : List Instr) : State := { s with pending := x }

end Sys2Proof.Machine
end

