-- ==== Sys2Proof/Machine/Ops.lean ====
section
/-! DEFINITION. The named operations that several families share: bit fields and byte order, sparse arrays, chain time,
power-domain queries, interrupt causes with the fault log, and the ECC memories. -/

namespace Sys2Proof.Machine

/-! ## Bit fields, counters and byte order -/

/-- The field of `len` bits at bit `lo`, as a number. -/
def fld {n : Nat} (w : BitVec n) (lo len : Nat) : Nat := (w.toNat / 2 ^ lo) % 2 ^ len

/-- Bit `i`. -/
def bit {n : Nat} (w : BitVec n) (i : Nat) : Bool := w.getLsbD i

/-- `w` with the field of `len` bits at `lo` replaced by `v`. -/
def setFld {n : Nat} (w : BitVec n) (lo len v : Nat) : BitVec n :=
  BitVec.ofNat n (w.toNat / 2 ^ (lo + len) * 2 ^ (lo + len) + v % 2 ^ len * 2 ^ lo + w.toNat % 2 ^ lo)

/-- `w` with bit `i` set to `b`. -/
def setBit {n : Nat} (w : BitVec n) (i : Nat) (b : Bool) : BitVec n := setFld w i 1 b.toNat

/-- A counter that adds `k` and holds at all ones. -/
def satAdd {n : Nat} (w : BitVec n) (k : Nat) : BitVec n := BitVec.ofNat n (min (w.toNat + k) (2 ^ n - 1))

/-- A counter that adds 1 and holds at all ones. -/
def satInc {n : Nat} (w : BitVec n) : BitVec n := satAdd w 1

/-- Nearest value in `lo..hi`. -/
def clampN (lo hi v : Nat) : Nat := if v < lo then lo else if v > hi then hi else v

/-- Nearest value in `lo..hi`, for exact signed arithmetic. -/
def clampI (lo hi v : Int) : Int := if v < lo then lo else if v > hi then hi else v

/-- The value of little-endian bytes. -/
def leNat : List Byte → Nat
  | [] => 0
  | b :: bs => b.toNat + 256 * leNat bs

/-- The value of big-endian bytes. -/
def beNat (bs : List Byte) : Nat := bs.foldl (fun a b => a * 256 + b.toNat) 0

/-- `n` little-endian bytes of `v`. -/
def leBytes : Nat → Nat → List Byte
  | 0, _ => []
  | n + 1, v => BitVec.ofNat 8 v :: leBytes n (v / 256)

/-- `n` big-endian bytes of `v`. -/
def beBytes (n v : Nat) : List Byte := (leBytes n v).reverse

/-- Bytes `off` to `off + n - 1` of a list, with 0 beyond its end. -/
def slice (bs : List Byte) (off n : Nat) : List Byte := (List.range n).map fun i => bs.getD (off + i) 0

/-- Element `i` of a vector, or `d` outside it. -/
def vget {α : Type} {n : Nat} (v : Vector α n) (i : Nat) (d : α) : α := v[i]?.getD d

/-- A vector with element `i` replaced by its image; unchanged when `i` is outside it. -/
def vmod {α : Type} {n : Nat} (v : Vector α n) (i : Nat) (f : α → α) : Vector α n :=
  match v[i]? with
  | none => v
  | some x => v.setIfInBounds i (f x)

/-- The quotient `num / den` rounded in the direction that the spec leaves open at `site` (log entry 4). -/
def openDiv (site : Nat) (num den : Int) : Int :=
  if num % den = 0 then num / den else if Config.roundsUp site num den then num / den + 1 else num / den

/-- `num / den` rounded to the nearest integer, halves to the larger. -/
def nearDiv (num den : Int) : Int := (2 * num + den) / (2 * den)

/-! ## Sparse arrays -/

/-- The value at key `k`; `d` gives what an unlisted key reads as. -/
def cget {w : Nat} (d : Nat → BitVec w) : Cells w → Nat → BitVec w
  | [], k => d k
  | (j, v) :: c, k => if j = k then v else cget d c k

/-- Remove key `k`. -/
def cdel {w : Nat} : Cells w → Nat → Cells w
  | [], _ => []
  | (j, v) :: c, k => if j = k then c else (j, v) :: cdel c k

/-- Insert or replace key `k`, keeping keys in rising order. -/
def cins {w : Nat} : Cells w → Nat → BitVec w → Cells w
  | [], k, x => [(k, x)]
  | (j, v) :: c, k, x => if k < j then (k, x) :: (j, v) :: c else if k = j then (k, x) :: c else (j, v) :: cins c k x

/-- Store `x` at key `k`; storing what an unlisted key reads as removes the entry. -/
def cput {w : Nat} (d : Nat → BitVec w) (c : Cells w) (k : Nat) (x : BitVec w) : Cells w :=
  if x = d k then cdel c k else cins c k x

/-- Every key is above `b`, keys rise strictly, and no entry equals its default. -/
def cellsAbove {w : Nat} (d : Nat → BitVec w) : Option Nat → Cells w → Bool
  | _, [] => true
  | b, (j, v) :: c => (match b with | none => true | some b => b < j) && v != d j && cellsAbove d (some j) c

/-- The canonical form of a sparse array. -/
def cellsWf {w : Nat} (d : Nat → BitVec w) (c : Cells w) : Bool := cellsAbove d none c

/-- Keys of byte buffers and zeroed memories read as 0 when unlisted. -/
def zeroCell {w : Nat} (_ : Nat) : BitVec w := 0

/-- Store a list of values at ascending keys. -/
def cputs {w : Nat} (d : Nat → BitVec w) : Cells w → Nat → List (BitVec w) → Cells w
  | c, _, [] => c
  | c, k, x :: xs => cputs d (cput d c k x) (k + 1) xs

/-! ## Chain time (R29, R181) -/

/-- One frame of CTIME: 2^24 units (125 us). -/
def frameUnits : Nat := 16777216

/-- PWM cycles from a frame's start to the boundary of its tick `j` (R29). -/
def tickCycle (j : Nat) : Nat := j * 50000 / 6

/-- CTIME of tick boundary `t = frame * 6 + j` (R29, R181). -/
def tickTime (t : Nat) : Nat := t / 6 * frameUnits + tickCycle (t % 6) * frameUnits / 50000

/-- The frame that CTIME is in. -/
def frameOf (c : Quad) : Nat := c.toNat / frameUnits

/-! ## Domains, clocks and roles -/

/-- Domain `n` is ON (Table 4.4). -/
def pdOn (s : State) (n : Nat) : Bool := s.gate.pd[n]? == some PdState.on

/-- Place of a clock in CKP's liveness vector. -/
def clkIdx : Clk → Nat
  | .xo => 0 | .crw => 1 | .cre => 2 | .sdw => 3 | .sde => 4 | .core => 5 | .core500 => 6 | .pwm => 7 | .pwm12 => 8
  | .aud => 9

/-- The monitor reports the clock live (R63). -/
def Ckp.isLive (c : Ckp) (k : Clk) : Bool := vget c.live (clkIdx k) false

/-- Set the liveness of a clock. -/
def Ckp.setLive (c : Ckp) (k : Clk) (b : Bool) : Ckp := { c with live := c.live.setIfInBounds (clkIdx k) b }

/-- NOMINAL source of island `n` (Table 3.3). -/
def nominal (n : Nat) : Clk :=
  if n = 0 then .core else if n < 4 then .core500 else if n = 4 then .pwm else if n = 5 then .pwm12 else .aud

/-- Source `src` of island `n`, none for the RCO, which the monitor does not watch (R60, R67). -/
def sourceClk (n src : Nat) : Option Clk := if src = 0 then some (nominal n) else if src = 1 then some .xo else none

/-- Source `src` of island `n` is live. -/
def Ckp.srcLive (c : Ckp) (n src : Nat) : Bool :=
  match sourceClk n src with
  | none => true
  | some k => c.isLive k

/-- Island `n`. -/
def Ckp.icl (c : Ckp) (n : Nat) : Iclk := vget c.iclk n {}

/-- Island `n` is frozen: its clock stands still between two sources, or its source has died and the new one has not
engaged (R71, R76). -/
def Ckp.frozen (c : Ckp) (n : Nat) : Bool :=
  (c.icl n).sw.any fun w => !w.engaged && (w.stopped || w.failover || !c.srcLive n (c.icl n).act.toNat)

/-- Island `n` is clocked: it has started and is not frozen (R68, R76). -/
def islandUp (s : State) (n : Nat) : Bool := (s.ckp.icl n).act != 3 && !s.ckp.frozen n

/-- Bit of CKP_EN: 0 GPT, 1 AOU, 2 PIX, 3 SNS, 4 AUD, 5 DMX (Table 3.11). -/
def enabled (s : State) (b : Nat) : Bool := bit s.ckp.en b

/-- Voice island work happens: SHOW, SOLO or SERVICE (Table 2.1). -/
def Mode.active : Mode → Bool
  | .show | .solo | .service => true
  | _ => false

/-- Code of a mode (Table 1.5). -/
def Mode.num : Mode → Nat
  | .dormant => 0 | .boot => 1 | .muster => 2 | .relay => 3 | .show => 4 | .solo => 5 | .service => 6 | .roost => 7

/-- Mode of a code. -/
def Mode.ofNum : Nat → Mode
  | 0 => .dormant | 1 => .boot | 2 => .muster | 3 => .relay | 4 => .show | 5 => .solo | 6 => .service | _ => .roost

/-- The FUSE step of the current BOOT has not ended (R117). -/
def beforeFuse (s : State) : Bool := s.mode.code == .boot && s.mode.step == 0

/-- PD1 is powered and out of reset, and the device is not in power-on reset. An entry to DORMANT takes PD1 down last
(R90), so that PD1 works on until then. -/
def pd1Up (s : State) : Bool := !s.mode.inPor && pdOn s 1

/-! ## Interrupt causes (Table 5.4) and the fault log (R391) -/

/-- The interrupt causes. -/
inductive Cause where
  | mode | clk | gate | owl | poison | berr | evspace | dbell | ktrap | khalt | ecccor | eccunc | epoch | comdrop
  | late | qovf | wrap | los | ring | frames | claim | emfault | tie | aofault | pix | sns | beat | gpt | dmx | mgmt
  | roost | dlink
  deriving DecidableEq, Repr

/-- Number of a cause: its row of Table 5.4. -/
def Cause.num : Cause → Nat
  | .mode => 0 | .clk => 1 | .gate => 2 | .owl => 3 | .poison => 4 | .berr => 5 | .evspace => 6 | .dbell => 7
  | .ktrap => 8 | .khalt => 9 | .ecccor => 10 | .eccunc => 11 | .epoch => 12 | .comdrop => 13 | .late => 14
  | .qovf => 15 | .wrap => 16 | .los => 17 | .ring => 18 | .frames => 19 | .claim => 20 | .emfault => 21 | .tie => 22
  | .aofault => 23 | .pix => 24 | .sns => 25 | .beat => 26 | .gpt => 27 | .dmx => 28 | .mgmt => 29 | .roost => 30
  | .dlink => 31

/-- The causes whose raising writes the fault log (R391). -/
def Cause.logged : Cause → Bool
  | .clk | .ktrap | .eccunc | .comdrop | .qovf | .wrap | .los | .frames | .emfault | .tie | .aofault | .dlink => true
  | _ => false

/-- The PEND bit of a cause for cue code (Table 11.5); a timer's own bit is given with it. -/
def Cause.pendBit : Cause → Option Nat
  | .beat => some 12 | .sns => some 13 | .dmx => some 14 | _ => none

/-- Add one to REPEAT of the newest entry of `cause` written within 1 ms; none when there is no such entry. -/
def bumpRepeat (cause : Nat) (now : Nat) : List LogEntry → Option (List LogEntry)
  | [] => none
  | e :: es =>
    match bumpRepeat cause now es with
    | some es' => some (e :: es')
    | none =>
      if e.cause.toNat = cause ∧ now ≤ e.ctime.toNat + 8 * frameUnits ∧ e.ctime.toNat ≤ now + 8 * frameUnits then
        some ({ e with rep := satInc e.rep } :: es)
      else none

/-- The fault log after an event (R391). -/
def logEvent (cause : Nat) (detail : Word) (ctime : Quad) (mode : Mode) (m : Mgt) : Mgt :=
  match bumpRepeat cause ctime.toNat m.log with
  | some l => { m with log := l }
  | none =>
    let e : LogEntry :=
      { ctime := ctime, cause := BitVec.ofNat 8 cause, mode := BitVec.ofNat 3 mode.num, rep := 0, detail := detail }
    { m with log := (if m.log.length ≥ 63 then m.log.drop 1 else m.log) ++ [e],
             logTotal := m.logTotal + 1,
             logHead := BitVec.ofNat 6 ((m.logHead.toNat + 1) % 63) }

/-- Set the ISR bit of a cause (R129). -/
def setIsr (n : Nat) (h : HostBus) : HostBus := { h with isr := setBit h.isr n true }

/-- Set a PEND bit of every kestrel (R285). -/
def setPendAll (b : Nat) (k : Kst) : Kst := { k with core := k.core.map fun c => { c with pend := setBit c.pend b true } }

/-- Raise a cause with the DETAIL of its fault-log entry and, where it has one, the PEND bit `pb` of cue code (R129,
R285, R391). -/
def raiseWith (c : Cause) (detail : Word) (pb : Option Nat) (s : State) : State :=
  let m := if c.logged then logEvent c.num detail s.chn.ctime s.mode.code s.mgt else s.mgt
  let h := setIsr c.num s.host
  { s with
    mgt := m
    host := if s.mgt.log.length < 63 && m.log.length == 63 then setIsr Cause.mgmt.num h else h
    kst := match pb with | some b => setPendAll b s.kst | none => s.kst }

/-- Raise a cause. -/
def raise (c : Cause) (s : State) : State := raiseWith c 0 c.pendBit s

/-- Raise a cause whose log entry carries a detail. -/
def raiseD (c : Cause) (detail : Nat) (s : State) : State := raiseWith c (BitVec.ofNat 32 detail) c.pendBit s

/-- Raise GPT for timer `n`: its PEND bit is 4 + n (Table 11.5). -/
def raiseGpt (n : Nat) (s : State) : State := raiseWith .gpt 0 (some (4 + n)) s

/-- `s` after `f` when `b` holds, else `s`. -/
def when (b : Bool) (f : State → State) (s : State) : State := if b then f s else s

/-! ## The (72,64) code (R300-R305) -/

/-- Columns of data bits 0-31 (Table 12.1). -/
def columnsLow : List Byte :=
  [0x07, 0x0B, 0x0D, 0x0E, 0x13, 0x15, 0x16, 0x19, 0x1A, 0x1C, 0x23, 0x25, 0x26, 0x29, 0x2A, 0x2C,
   0x31, 0x32, 0x34, 0x38, 0x43, 0x45, 0x46, 0x49, 0x4A, 0x4C, 0x51, 0x52, 0x54, 0x58, 0x61, 0x62]

/-- Columns of data bits 32-63 (Table 12.1). -/
def columnsHigh : List Byte :=
  [0x64, 0x68, 0x70, 0x83, 0x85, 0x86, 0x89, 0x8A, 0x8C, 0x91, 0x92, 0x94, 0x98, 0xA1, 0xA2, 0xA4,
   0xA8, 0xB0, 0xC1, 0xC2, 0xC4, 0xC8, 0xD0, 0xE0, 0x1F, 0x2F, 0x37, 0x3B, 0x3D, 0x3E, 0x4F, 0x57]

/-- Columns of data bits 0-63. -/
def columns : List Byte := columnsLow ++ columnsHigh

/-- XOR of the columns of the bits set in `d`, from bit `i` on. -/
def checkFrom (d : Nat) : List Byte → Byte
  | [] => 0
  | c :: cs => (if d % 2 = 1 then c else 0) ^^^ checkFrom (d / 2) cs

/-- The check field of data `d` (R300). -/
def check (d : Quad) : Byte := checkFrom d.toNat columns

/-- A stored word. -/
def code (d : Quad) (c : Byte) : Code := c ++ d

/-- Data bits of a stored word. -/
def codeData (c : Code) : Quad := c.setWidth 64

/-- Check field of a stored word. -/
def codeCheck (c : Code) : Byte := (c >>> 64).setWidth 8

/-- A clean word (R305). -/
def cleanCode (d : Quad) : Code := code d (check d)

/-- The poison pattern (R304). -/
def poisonCode (d : Quad) : Code := code d (check d ^^^ 0xFF)

/-- Classes of Table 12.2. -/
inductive EccClass where
  | clean | corrected | poison | uncorrectable
  deriving DecidableEq, Repr

/-- The syndrome (R301). -/
def syndrome (c : Code) : Byte := codeCheck c ^^^ check (codeData c)

/-- Data bit whose column is `x`. -/
def columnBit (x : Byte) : Option Nat := columns.findIdx? (· == x)

/-- The class of a stored word (Table 12.2). -/
def eccClass (c : Code) : EccClass :=
  let x := syndrome c
  if x = 0 then .clean
  else if x = 0xFF then .poison
  else if (columnBit x).isSome then .corrected
  else if (List.range 8).any (fun j => x == 1 <<< j) then .corrected
  else .uncorrectable

/-- The data delivered by a read (Table 12.2). -/
def eccData (c : Code) : Quad :=
  match columnBit (syndrome c) with
  | some i => codeData c ^^^ (1 <<< i)
  | none => codeData c

/-- The poison marker delivered by a read (Table 12.2). -/
def eccMarker (c : Code) : Bool :=
  match eccClass c with
  | .poison | .uncorrectable => true
  | _ => false

/-! ## Memories: mews, perch RAM, scratch (R298, R270) -/

/-- The memory that a byte address lies in, with its TGT code: 0-7 mews banks, 8-11 perch RAM, 12-15 scratch
(Table 1.3, Table 12.4). -/
def memOf (a : Nat) : Option Nat :=
  if 0x01000000 ≤ a ∧ a < 0x01400000 then some ((a - 0x01000000) / 0x80000)
  else if 0x00700000 ≤ a ∧ a < 0x00710000 then some (8 + (a - 0x00700000) / 0x4000)
  else if 0x00710000 ≤ a ∧ a < 0x00714000 then some (12 + (a - 0x00710000) / 0x1000)
  else none

/-- The power domain of memory `t`. -/
def memDomain (t : Nat) : Nat := if t < 8 then 46 + t else 54 + t % 4

/-- The raw stored word that holds byte address `a`. -/
def rawWord (m : Mem) (a : Nat) : Code := cget zeroCell m.words (a / 8)

/-- Store a raw word at byte address `a`. -/
def putRaw (m : Mem) (a : Nat) (c : Code) : Mem := { words := cput zeroCell m.words (a / 8) c }

/-- The canonical form of the memories: rising keys, no entry equal to the zero that an unlisted word reads as. -/
def Mem.wf (m : Mem) : Bool := cellsWf zeroCell m.words

/-- The data that a read of byte address `a` delivers, and the marker. -/
def memData (s : State) (a : Nat) : Quad × Bool := let c := rawWord s.mem a; (eccData c, eccMarker c)

/-- The 32-bit word at byte address `a`, with the marker of its 64-bit word. -/
def memWord32 (s : State) (a : Nat) : Word × Bool :=
  let (d, p) := memData s a
  (BitVec.ofNat 32 (d.toNat / 2 ^ (a / 4 % 2 * 32)), p)

/-- Take an event into a capture that is not VALID (R308). -/
def capture (c : Capture) (a : Nat) (w : Code) (src : BitVec 4) : Capture :=
  if c.valid then c
  else { addr := BitVec.ofNat 32 (a / 8 * 8), data := codeData w, valid := true, src := src, chk := codeCheck w,
         syn := syndrome w }

/-- The ECC block after a corrected read of memory `t` (R302, R307). -/
def eccCorrected (e : Ecc) (t a : Nat) (w : Code) (src : BitVec 4) : Ecc :=
  let e := { e with ccap := capture e.ccap a w src }
  if t < 8 then
    let b := vget e.bank t {}
    let crossed := b.bucket.toNat + 1 == e.thr.toNat
    { e with bank := vmod e.bank t fun b => { b with cor := satInc b.cor, bucket := satInc b.bucket }
             corst := if crossed then setBit e.corst t true else e.corst }
  else { e with kcor := satInc e.kcor }

/-- The bank's bucket reaches its threshold with this corrected read (R307). -/
def bucketCrosses (e : Ecc) (t : Nat) : Bool := t < 8 && (vget e.bank t {}).bucket.toNat + 1 == e.thr.toNat

/-- The ECC block after an uncorrectable read of memory `t` (R303). -/
def eccUncorrectable (e : Ecc) (t a : Nat) (w : Code) (src : BitVec 4) : Ecc :=
  let e := { e with ucap := capture e.ucap a w src }
  if t < 8 then { e with bank := vmod e.bank t fun b => { b with unc := satInc b.unc } }
  else { e with kunc := satInc e.kunc }

/-- What a read of byte address `a` by `src` does to the state: counting, capture and the rewrite as poison (R301-R303).
The data it delivers is `memData`. -/
def memReadEffect (src : BitVec 4) (a : Nat) (s : State) : State :=
  match memOf a with
  | none => s
  | some t =>
    let w := rawWord s.mem a
    match eccClass w with
    | .clean | .poison => s
    | .corrected =>
      when (bucketCrosses s.ecc t) (raise .ecccor) { s with ecc := eccCorrected s.ecc t a w src }
    | .uncorrectable =>
      let e := eccUncorrectable s.ecc t a w src
      raiseD .eccunc e.ucap.addr.toNat { s with ecc := e, mem := putRaw s.mem a (poisonCode (codeData w)) }

/-- The armed flip mask for memory `t` (R313): data and check bits, zero when not armed for it. -/
def flipMask (e : Ecc) (t : Nat) : Code :=
  if bit e.flipctl 31 && fld e.flipctl 16 4 == t then code e.flip (BitVec.ofNat 8 (fld e.flipctl 0 8)) else 0

/-- The ECC block after a write of memory `t` has used its mask (R313). -/
def useFlip (e : Ecc) (t : Nat) : Ecc :=
  if bit e.flipctl 31 && fld e.flipctl 16 4 == t then { e with flipctl := setBit e.flipctl 31 false } else e

/-- Write a whole word at byte address `a` through the armed mask (R305, R313). -/
def writeCode (a : Nat) (w : Code) (s : State) : State :=
  match memOf a with
  | none => s
  | some t => { s with mem := putRaw s.mem a (w ^^^ flipMask s.ecc t), ecc := useFlip s.ecc t }

/-- A 64-bit write with clean data (R305). -/
def write64 (a : Nat) (d : Quad) (s : State) : State := writeCode a (cleanCode d) s

/-- `d` with `size` bytes at byte offset `o` replaced by the low bytes of `v` (R298). -/
def mergeBytes (d : Quad) (o size : Nat) (v : Word) : Quad := setFld d (8 * o) (8 * size) v.toNat

/-- A merged write of `size` bytes at byte address `a` by `src` (R305): the read of the word counts, the new bytes go into
the decoded data, and the result is poison when the word was or the store data is. -/
def mergedWrite (src : BitVec 4) (a size : Nat) (v : Word) (poison : Bool) (s : State) : State :=
  let w := rawWord s.mem a
  let d := mergeBytes (eccData w) (a % 8) size v
  writeCode a (if poison || eccMarker w then poisonCode d else cleanCode d) (memReadEffect src a s)

/-- Write little-endian 64-bit words at ascending byte addresses (R282, R389, R393). -/
def writeWords (a : Nat) : List Quad → State → State
  | [], s => s
  | d :: ds, s => writeWords (a + 8) ds (write64 a d s)

/-- `n` bytes from byte address `a` as reads deliver them, and whether any word was poisoned. -/
def memBytes (s : State) (a n : Nat) : List Byte × Bool :=
  ((List.range n).map fun i => BitVec.ofNat 8 ((memData s (a + i)).1.toNat / 2 ^ ((a + i) % 8 * 8)),
   (List.range ((n + 7) / 8)).any fun i => (memData s (a + 8 * i)).2)

/-- The effects of reading `n` 64-bit words from byte address `a` (R301). -/
def readWordsEffect (src : BitVec 4) (a : Nat) : Nat → State → State
  | 0, s => s
  | n + 1, s => readWordsEffect src (a + 8) n (memReadEffect src a s)

/-- Pack bytes into little-endian 64-bit words. -/
def packWords (bs : List Byte) : List Quad :=
  (List.range ((bs.length + 7) / 8)).map fun i => BitVec.ofNat 64 (leNat (slice bs (8 * i) 8))

/-- Words of domain `pd`'s memories set to zero (R88): mews bank, perch RAM or scratch. -/
def zeroDomain (pd : Nat) (m : Mem) : Mem :=
  { words := m.words.filter fun c => match memOf (8 * c.1) with | some t => memDomain t != pd | none => true }

/-! ## Roost store (R314) -/

/-- An unlisted word of the roost store is erased: all ones. -/
def erasedCell (_ : Nat) : Code := BitVec.allOnes 72

/-- The raw word at byte offset `o` of the roost store. -/
def roostRaw (r : Ros) (o : Nat) : Code := cget erasedCell r.store (o / 8)

/-- The data and marker that a read of the roost store delivers (R314). -/
def roostData (r : Ros) (o : Nat) : Quad × Bool :=
  let c := roostRaw r o
  if c = BitVec.allOnes 72 then (BitVec.allOnes 64, false) else (eccData c, eccMarker c)

/-- Counting and capture by a read of the roost store (R308, R314). -/
def roostReadEffect (src : BitVec 4) (o : Nat) (r : Ros) (e : Ecc) : Ecc :=
  let c := roostRaw r o
  if c = BitVec.allOnes 72 then e
  else match eccClass c with
    | .clean => e
    | .corrected => { e with rcor := satInc e.rcor, ccap := capture e.ccap (0x02000000 + o) c src }
    | .poison | .uncorrectable => { e with runc := satInc e.runc, ucap := capture e.ucap (0x02000000 + o) c src }

/-! ## CRC-32C (R175) -/

/-- One bit of the reflected CRC-32C register. -/
def crcBit (r : Nat) : Nat := if r % 2 = 1 then (r / 2).xor 0x82F63B78 else r / 2

/-- Eight bits of the register. -/
def crcByte (r : Nat) (b : Byte) : Nat :=
  crcBit (crcBit (crcBit (crcBit (crcBit (crcBit (crcBit (crcBit (r.xor b.toNat))))))))

/-- CRC-32C over bytes: reflected polynomial 0x1EDC6F41, initial value and final XOR all ones (R175). -/
def crc32c (bs : List Byte) : Nat := (bs.foldl crcByte 0xFFFFFFFF).xor 0xFFFFFFFF

end Sys2Proof.Machine
end

