-- ==== Sys2Proof/Machine/Aes.lean ====
section
/-! DEFINITION. The cipher that R206 and R390 name: AES with a 128-bit key (FIPS 197) and the CMAC built on it
(NIST SP 800-38B), on blocks of 16 bytes, the first byte the most significant (log entry 2). -/

namespace Sys2Proof.Machine

/-! ## Bytes -/

/-- Byte `x` of a table of 256 bytes given as 16 rows, column 0 the most significant byte of a row. -/
def tableByte (rows : List Nat) (x : Nat) : Nat := rows.getD (x / 16) 0 >>> (8 * (15 - x % 16)) % 256

/-- The substitution table. -/
def sboxRows : List Nat :=
  [0x637C777BF26B6FC53001672BFED7AB76, 0xCA82C97DFA5947F0ADD4A2AF9CA472C0,
   0xB7FD9326363FF7CC34A5E5F171D83115, 0x04C723C31896059A071280E2EB27B275,
   0x09832C1A1B6E5AA0523BD6B329E32F84, 0x53D100ED20FCB15B6ACBBE394A4C58CF,
   0xD0EFAAFB434D338545F9027F503C9FA8, 0x51A3408F929D38F5BCB6DA2110FFF3D2,
   0xCD0C13EC5F974417C4A77E3D645D1973, 0x60814FDC222A908846EEB814DE5E0BDB,
   0xE0323A0A4906245CC2D3AC629195E479, 0xE7C8376D8DD54EA96C56F4EA657AAE08,
   0xBA78252E1CA6B4C6E8DD741F4BBD8B8A, 0x703EB5664803F60E613557B986C11D9E,
   0xE1F8981169D98E949B1E87E9CE5528DF, 0x8CA1890DBFE6426841992D0FB054BB16]

/-- The inverse substitution table. -/
def invSboxRows : List Nat :=
  [0x52096AD53036A538BF40A39E81F3D7FB, 0x7CE339829B2FFF87348E4344C4DEE9CB,
   0x547B9432A6C2233DEE4C950B42FAC34E, 0x082EA16628D924B2765BA2496D8BD125,
   0x72F8F66486689816D4A45CCC5D65B692, 0x6C704850FDEDB9DA5E154657A78D9D84,
   0x90D8AB008CBCD30AF7E45805B8B34506, 0xD02C1E8FCA3F0F02C1AFBD0301138A6B,
   0x3A9111414F67DCEA97F2CFCEF0B4E673, 0x96AC7422E7AD3585E2F937E81C75DF6E,
   0x47F11A711D29C5896FB7620EAA18BE1B, 0xFC563E4BC6D279209ADBC0FE78CD5AF4,
   0x1FDDA8338807C731B11210592780EC5F, 0x60517FA919B54A0D2DE57A9F93C99CEF,
   0xA0E03B4DAE2AF5B0C8EBBB3C83539961, 0x172B047EBA77D626E169146355210C7D]

/-- The substitution of one byte. -/
def subByte (x : Nat) : Nat := tableByte sboxRows x

/-- The inverse substitution of one byte. -/
def invSubByte (x : Nat) : Nat := tableByte invSboxRows x

/-- Twice a byte in the field of the cipher, whose polynomial is 0x11B. -/
def xtime (x : Nat) : Nat := if x < 128 then 2 * x else (2 * x) ^^^ 0x11B

/-- A byte times a constant below 16. -/
def fieldMul (c x : Nat) : Nat :=
  let p (k y : Nat) : Nat := if c.testBit k then y else 0
  let x2 := xtime x
  let x4 := xtime x2
  p 0 x ^^^ p 1 x2 ^^^ p 2 x4 ^^^ p 3 (xtime x4)

/-! ## Rounds: a block is its 16 bytes, column by column -/

/-- The exclusive or of two blocks. -/
def addBlock (a b : List Nat) : List Nat := List.zipWith (· ^^^ ·) a b

/-- Row r moves r columns to the left. -/
def shiftRows (b : List Nat) : List Nat := (List.range 16).map fun i => b.getD ((i + 4 * (i % 4)) % 16) 0

/-- Row r moves r columns to the right. -/
def invShiftRows (b : List Nat) : List Nat := (List.range 16).map fun i => b.getD ((i + 12 * (i % 4)) % 16) 0

/-- Each column times the polynomial with these coefficients. -/
def mixWith (c0 c1 c2 c3 : Nat) (b : List Nat) : List Nat :=
  (List.range 16).map fun i =>
    let at_ (k : Nat) : Nat := b.getD (i / 4 * 4 + (i + k) % 4) 0
    fieldMul c0 (at_ 0) ^^^ fieldMul c1 (at_ 1) ^^^ fieldMul c2 (at_ 2) ^^^ fieldMul c3 (at_ 3)

/-- The round key that follows `k`. -/
def nextRoundKey (k : List Nat) (rcon : Nat) : List Nat :=
  let g (i : Nat) : Nat := k.getD i 0
  let t := [subByte (g 13) ^^^ rcon, subByte (g 14), subByte (g 15), subByte (g 12)]
  let w0 := addBlock (k.take 4) t
  let w1 := addBlock ((k.drop 4).take 4) w0
  let w2 := addBlock ((k.drop 8).take 4) w1
  w0 ++ w1 ++ w2 ++ addBlock (k.drop 12) w2

/-- The round keys after the first, in order. -/
def roundKeys (k : List Nat) : List Nat → List (List Nat)
  | [] => []
  | r :: rs => let n := nextRoundKey k r; n :: roundKeys n rs

/-- The 10 round keys after the cipher key itself. -/
def keySchedule (k : List Nat) : List (List Nat) := roundKeys k [1, 2, 4, 8, 16, 32, 64, 128, 27, 54]

/-- The rounds of an encryption: the last has no column mixing. -/
def encryptRounds : List (List Nat) → List Nat → List Nat
  | [], b => b
  | [k], b => addBlock (shiftRows (b.map subByte)) k
  | k :: ks, b => encryptRounds ks (addBlock (mixWith 2 3 1 1 (shiftRows (b.map subByte))) k)

/-- The rounds of a decryption, with the round keys from the last to the second. -/
def decryptRounds : List (List Nat) → List Nat → List Nat
  | [], b => b
  | k :: ks, b => decryptRounds ks (mixWith 14 11 13 9 (addBlock ((invShiftRows b).map invSubByte) k))

/-- The bytes of a block as a number, most significant first, and back. -/
def blockBytes (x : Nat) : List Nat := (beBytes 16 x).map (·.toNat)

/-- A block as a number. -/
def blockNum (b : List Nat) : Nat := b.foldl (fun a x => a * 256 + x) 0

/-- One block encrypted. -/
def aesEncrypt (key block : Nat) : Nat :=
  let k := blockBytes key
  blockNum (encryptRounds (keySchedule k) (addBlock (blockBytes block) k))

/-- One block of 16 bytes decrypted (R390). -/
def aesDecrypt (key : BitVec 128) (block : List Byte) : BitVec 128 :=
  let k := blockBytes key.toNat
  match (keySchedule k).reverse with
  | [] => 0
  | last :: ks =>
    let b := decryptRounds ks (addBlock (blockBytes (beNat block)) last)
    BitVec.ofNat 128 (blockNum (addBlock ((invShiftRows b).map invSubByte) k))

/-! ## CMAC -/

/-- A subkey: the double of a block in the field of 2^128. -/
def cmacDouble (x : Nat) : Nat := if x < 2 ^ 127 then 2 * x else (2 * x) % 2 ^ 128 ^^^ 0x87

/-- The CMAC of a message (R206). -/
def aesCmac (key : BitVec 128) (msg : List Byte) : BitVec 128 :=
  let k1 := cmacDouble (aesEncrypt key.toNat 0)
  let block (i : Nat) : Nat := beNat (slice msg (16 * i) 16)
  let n := (msg.length - 1) / 16
  let r := msg.length - 16 * n
  let last := if r = 16 then block n ^^^ k1 else block n ^^^ 2 ^ (127 - 8 * r) ^^^ cmacDouble k1
  let c := (List.range n).foldl (fun c i => aesEncrypt key.toNat (c ^^^ block i)) 0
  BitVec.ofNat 128 (aesEncrypt key.toNat (c ^^^ last))

end Sys2Proof.Machine
end

