-- ==== Sys2Proof/Machine/Operands.lean ====
section
/-! DEFINITION. How a write of a register is made legal (R4-R8, R10, R11): the fields of a register with their ranges,
and one operation that applies them. -/

namespace Sys2Proof.Machine

/-- The legal range of a field and what replaces a value outside it (R4, R5, R7). -/
inductive Range where
  /-- every encoding is legal -/
  | all
  /-- the nearest value of `lo..hi` -/
  | clamp (lo hi : Nat)
  /-- codes below `n` are legal, any other stores `dflt` -/
  | enum (n dflt : Nat)
  /-- the low `k` bits read 0 -/
  | aligned (k : Nat)
  /-- nearest value of `lo..hi`, then the low `k` bits read 0 -/
  | clampAligned (lo hi k : Nat)
  /-- nearest value in a list of legal values, the lower of two equally near -/
  | oneOf (vs : List Nat)
  deriving DecidableEq, Repr

/-- Distance of two numbers. -/
def dist (a b : Nat) : Nat := if a < b then b - a else a - b

/-- The nearest member of a list, the lower of two equally near (R4, R5). -/
def nearest (v : Nat) : List Nat → Nat
  | [] => v
  | [x] => x
  | x :: xs => let y := nearest v xs; if dist x v < dist y v ∨ (dist x v = dist y v ∧ x ≤ y) then x else y

/-- The value stored for a written value (R4-R7). -/
def Range.fix (r : Range) (v : Nat) : Nat :=
  match r with
  | .all => v
  | .clamp lo hi => clampN lo hi v
  | .enum n d => if v < n then v else d
  | .aligned k => v / 2 ^ k * 2 ^ k
  | .clampAligned lo hi k => clampN lo hi v / 2 ^ k * 2 ^ k
  | .oneOf vs => nearest v vs

/-- How a write of a stored field acts (Table 0.5). -/
inductive Acc where
  | rw | w1c | w1s
  deriving DecidableEq, Repr

/-- A stored field of a register. -/
structure Field where
  lo : Nat
  len : Nat
  range : Range := .all
  acc : Acc := .rw
  deriving DecidableEq, Repr

/-- The field's value after a write of `v` over `old`. -/
def Field.next (f : Field) (old v : Nat) : Nat :=
  match f.acc with
  | .rw => f.range.fix v
  | .w1c => old - (Nat.land old v)
  | .w1s => Nat.lor old v

/-- A register after a write: each stored field takes its replaced value, every other bit keeps what it holds, so
reserved and read-only bits ignore the write (R8, R10, R11). -/
def applyWrite {n : Nat} (fs : List Field) (old v : BitVec n) : BitVec n :=
  fs.foldl (fun w f => setFld w f.lo f.len (f.next (fld old f.lo f.len) (fld v f.lo f.len))) old

/-! ## Fields of the host bus and AON registers -/

/-- HB_BOOTCFG (Table 2.12). -/
def bootcfgFields : List Field := [⟨12, 4, .all, .rw⟩, ⟨11, 1, .all, .rw⟩, ⟨10, 1, .all, .rw⟩, ⟨9, 1, .all, .rw⟩,
  ⟨8, 1, .all, .rw⟩]

/-- HB_OWLCFG (Table 5.9). -/
def owlcfgFields : List Field := [⟨15, 1, .all, .rw⟩, ⟨13, 2, .all, .rw⟩, ⟨12, 1, .all, .rw⟩, ⟨11, 1, .all, .rw⟩,
  ⟨7, 4, .clamp 1 10, .rw⟩, ⟨0, 7, .clamp 1 127, .rw⟩]

/-- HB_HOOD (Table 5.16). -/
def hoodFields : List Field := [⟨8, 1, .all, .rw⟩, ⟨4, 4, .all, .rw⟩, ⟨0, 1, .all, .rw⟩]

/-- SYS_GATECFG (Table 4.8). -/
def gatecfgFields : List Field := [⟨0, 10, .clamp 1 1000, .rw⟩]

/-! ## Fields of CKP -/

/-- CKP_XOQ (Table 3.8). -/
def xoqFields : List Field := [⟨8, 6, .clamp 1 40, .rw⟩, ⟨0, 4, .clamp 1 15, .rw⟩]

/-- CKP_ICLKn (Table 3.12). -/
def iclkFields : List Field := [⟨9, 3, .clamp 0 6, .rw⟩, ⟨4, 3, .clamp 0 5, .rw⟩, ⟨0, 2, .enum 3 0, .rw⟩]

/-! ## Fields of the ECC block -/

/-- ECC_CFG (Table 12.4). -/
def eccCfgFields : List Field := [⟨31, 1, .all, .rw⟩, ⟨16, 8, .clamp 1 255, .rw⟩, ⟨0, 16, .clamp 1 65535, .rw⟩]

/-- ECC_FLIPCTL without ARM (Table 12.4). -/
def flipFields : List Field := [⟨16, 4, .all, .rw⟩, ⟨0, 8, .all, .rw⟩]

/-! ## Fields of MGT, DMX and ROS -/

/-- MGT_CFG (Table 16.10). -/
def mgtCfgFields : List Field := [⟨1, 1, .all, .rw⟩, ⟨0, 1, .all, .rw⟩]

/-- MGT_UPBASE. -/
def upbaseFields : List Field := [⟨0, 32, .clampAligned 0x01000000 0x013F0000 16, .rw⟩]

/-- MGT_CSTAGE: within mews, 8-byte aligned. -/
def cstageFields : List Field := [⟨0, 32, .clampAligned 0x01000000 0x013FFFF8 3, .rw⟩]

/-- DMX_CFGp (Table 16.11). -/
def dmxCfgFields : List Field := [⟨31, 1, .all, .rw⟩, ⟨30, 1, .all, .rw⟩, ⟨29, 1, .all, .rw⟩, ⟨28, 1, .all, .rw⟩,
  ⟨27, 1, .all, .rw⟩, ⟨26, 1, .all, .rw⟩, ⟨16, 1, .all, .rw⟩]

/-- DMX_MAPp. -/
def dmxMapFields : List Field := [⟨16, 10, .clamp 1 512, .rw⟩, ⟨0, 10, .clamp 0 512, .rw⟩]

/-- DMX_TXp. -/
def dmxTxFields : List Field := [⟨16, 10, .clamp 24 512, .rw⟩, ⟨0, 13, .clamp 1 8000, .rw⟩]

/-- ROS_CFG (Table 16.12). -/
def rosCfgFields : List Field := [⟨1, 1, .all, .rw⟩, ⟨0, 1, .all, .rw⟩]

/-- ROS_UADDR. -/
def uaddrFields : List Field := [⟨0, 32, .clampAligned 0x01000000 0x013FFF00 8, .rw⟩]

/-! ## Kestrel registers -/

/-- KST_BRKkb (Table 11.7). -/
def brkFields : List Field := [⟨31, 1, .all, .rw⟩, ⟨2, 12, .all, .rw⟩]

end Sys2Proof.Machine
end

