-- ==== Sys2Proof/Machine/Access.lean ====
section
/-! DEFINITION. How an internal access is taken at its target: the domains of an address, its peripheral's enable, the
island that serves it, and the ending that is settled when the request is issued (Table 1.3, R23, R28, R83, R84, R96, R97,
R99, R111). -/

namespace Sys2Proof.Machine

/-- An address of the roost store (Table 1.3). -/
def inRoost (a : Nat) : Bool := 0x02000000 ≤ a && decide (a < 0x02040000)

/-- Domain `n` takes a request of `r`: it is ON, or CLOSED by `r` itself (R99, R111). -/
def accepts (s : State) (r : Requester) (n : Nat) : Bool :=
  pdOn s n || (s.gate.pd[n]? == some PdState.closed && s.gate.updater.contains (n, r))

/-- The bit of CKP_EN that enables the peripheral of an address (R83). -/
def enableOf (a : Nat) : Option Nat :=
  match a / 0x10000 with
  | 0xA => some 0 | 0xB => some 1 | 0xC => some 2 | 0xD => some 3 | 0xE => some 4 | 0xF => some 5 | _ => none

/-- The domains of which one must take the request, for an address of a register block (Table 1.3); none for a reserved
range, which needs no domain (R27). -/
def blockDomains (a : Nat) : List Nat :=
  match a / 0x10000 with
  | 0x0 | 0x1 | 0x3 | 0x12 | 0x13 | 0x14 | 0x15 => [1]
  | 0x2 => [if a % 0x10000 < 0x8000 then 2 else 3]
  | 0x4 => [12]
  | 0x5 => (List.range 32).map (13 + ·)
  | 0x6 => [45]
  | 0x7 => if a % 0x10000 < 0x400 then [54 + a % 0x10000 / 0x100] else [54, 55, 56, 57]
  | 0x8 => [58]
  | 0x9 => [59]
  | 0xA => [60]
  | 0xB => [61]
  | 0xC => [62]
  | 0xD => [63]
  | 0xE => [64]
  | 0xF => [65]
  | 0x10 | 0x11 => [13 + (a - 0x100000) / 0x1000]
  | _ => []

/-- The address lies in the voice-state space, which only an eyrie that is ON answers (R245). -/
def inVoices (a : Nat) : Bool := a / 0x10000 == 0x10 || a / 0x10000 == 0x11

/-- Some domain of the address takes the request. -/
def reaches (s : State) (r : Requester) (a : Nat) : Bool :=
  if inVoices a then pdOn s (13 + (a - 0x100000) / 0x1000)
  else
  match memOf a with
  | some t => accepts s r (memDomain t)
  | none =>
    if inRoost a then accepts s r 66
    else match blockDomains a with
      | [] => true
      | ds => ds.any (accepts s r)

/-- The ending that an access by `r` at `a` gets when it is issued. The enable is checked before the power state (R83); a
domain that does not take it answers ABSENT (R99); a write of the roost store is ignored whatever its domain (R28). DATA
means that the target has accepted the request, which then completes although its enable is cleared (R84) or its gate closes
before the drain ends (R96). -/
def admission (s : State) (r : Requester) (a : Nat) (write : Bool) : Ending :=
  if (enableOf a).any fun b => !enabled s b then .berr
  else if (write && inRoost a) || reaches s r a then .data
  else .absent

/-- A request that its target had accepted and whose domain takes requests no more is abandoned when the drain ends
(R96). -/
def abandoned (s : State) (r : Requester) (a : Nat) (e : Ending) : Ending :=
  if e = .data ∧ !inRoost a ∧ !reaches s r a then .absent else e

/-- The clock island whose freeze holds an access to `a` (Tables 1.3 and 3.3); none for the AON, the ring logic and the
D-die. -/
def clockOf (a : Nat) : Option Nat :=
  match memOf a with
  | some t => some (if t < 8 then 2 else 3)
  | none =>
    match a / 0x10000 with
    | 0x5 | 0x6 | 0x8 | 0x10 | 0x11 => some 0
    | 0x0 | 0x1 | 0x3 | 0x4 | 0xC | 0xF | 0x12 | 0x13 | 0x14 => some 1
    | 0x7 => some 3
    | 0x9 | 0xA | 0xB => some 4
    | 0xD => some 5
    | 0xE => some 6
    | _ => none

/-- The island that serves `a` is frozen, so that the access waits in its synchroniser (R76). One that has never started
holds no access (log entry 85). -/
def targetFrozen (s : State) (a : Nat) : Bool := (clockOf a).any s.ckp.frozen

/-! ## Kestrel requests -/

/-- The address lies in the perch RAM or scratch of kestrel `k`, which needs no crossing (R269). -/
def ownMem (k : Nat) (a : Nat) : Bool := (memOf a).any fun t => decide (8 ≤ t) && t % 4 == k

/-- The target island of a request of kestrel `k` at `a`, none for its own memories (R24, R269, R278): an island is a power
domain or lies inside one, and VOX's allocation registers and a reserved range count as islands of their own (log entry 47). -/
def islandOf (k : Nat) (a : Nat) : Option Nat :=
  match memOf a with
  | some t => if t < 8 then some (0x10000 + t) else if t % 4 = k then none else some (0x20000 + t % 4)
  | none =>
    if inRoost a then some 0x40000
    else match a / 0x10000 with
      | 0x2 => some (if a % 0x10000 < 0x8000 then 0x2 else 0x50000)
      | 0x7 => some (if a % 0x10000 < 0x400 then 0x20000 + a % 0x10000 / 0x100 else 0x7)
      | 0x10 | 0x11 => some (0x30000 + (a - 0x100000) / 0x1000)
      | n => some n

/-- What settled the entry at its issue; none while it has not been issued. -/
def SbEntry.adm : SbEntry → Option Ending
  | .store _ _ _ _ e | .post _ _ e => e
  | .atomic _ _ _ _ e | .load _ e => some e

/-- The address of an entry; a post goes to DIS (R288). -/
def SbEntry.addr : SbEntry → Nat
  | .store a _ _ _ _ | .atomic a _ _ _ _ | .load a _ => a.toNat
  | .post _ _ _ => 0x00040000

/-- The target island of an entry of kestrel `k`. -/
def SbEntry.island (k : Nat) (e : SbEntry) : Option Nat := islandOf k e.addr

/-- The entry has crossed to its target: it is issued, and its target is not the kestrel's own memory (R269). -/
def SbEntry.hasCrossed (k : Nat) (e : SbEntry) : Bool := e.adm.isSome && (e.island k).isSome

/-- Settle an entry's ending anew. -/
def SbEntry.withAdm (f : Option Ending → Option Ending) : SbEntry → SbEntry
  | .store a n v p e => .store a n v p (f e)
  | .post ev n e => .post ev n (f e)
  | .atomic a v p cmp e => .atomic a v p cmp ((f (some e)).getD e)
  | .load a e => .load a ((f (some e)).getD e)

/-- The memory operation of the instruction under way that has crossed (R106). -/
def KWait.crossing (k : Nat) : KWait → List SbEntry
  | .atomic _ a v p cmp (some e) => if (islandOf k a.toNat).isSome then [.atomic a v p cmp e] else []
  | .load _ a _ _ (some e) => if (islandOf k a.toNat).isSome then [.load a e] else []
  | _ => []

/-- What a kestrel that stops has on its way: everything that has crossed (R97, R106). -/
def Kestrel.crossing (k : Nat) (c : Kestrel) : List SbEntry :=
  c.crossed ++ c.sbuf.filter (·.hasCrossed k) ++ c.wait.crossing k

/-! ## The end of a drain (R96) -/

/-- The requests of kestrel `k` after a drain. -/
def Kestrel.abandon (s : State) (k : KIdx) (c : Kestrel) : Kestrel :=
  let one (e : SbEntry) : SbEntry := e.withAdm (Option.map (abandoned s (.kestrel k) e.addr))
  { c with
    sbuf := c.sbuf.map one, crossed := c.crossed.map one
    wait := match c.wait with
      | .load rt a n sx (some e) => .load rt a n sx (some (abandoned s (.kestrel k) a.toNat e))
      | .atomic rd a v p cmp (some e) => .atomic rd a v p cmp (some (abandoned s (.kestrel k) a.toNat e))
      | w => w }

/-- An access in progress after a drain. -/
def Access.abandon (s : State) (r : Requester) (x : Access) : Access := { x with adm := abandoned s r x.addr.toNat x.adm }

/-- A host window after a drain: a write that it timed out on is abandoned with the rest. -/
def Window.abandon (s : State) (w : WIdx) (x : Window) : Window :=
  { x with
    acc := x.acc.map (Access.abandon s (.window w))
    late := x.late.filter fun p => decide (abandoned s (.window w) p.1.toNat .data = .data) }

/-- Every request in flight to a domain that no longer takes it is abandoned (R96). -/
def abandonAll (s : State) : State :=
  { s with
    host := { s.host with win := s.host.win.mapFinIdx fun w x h => Window.abandon s ⟨w, h⟩ x }
    jtag := { s.jtag with acc := s.jtag.acc.map (Access.abandon s .jtag) }
    kst := { s.kst with core := s.kst.core.mapFinIdx fun k c h => Kestrel.abandon s ⟨k, h⟩ c } }

end Sys2Proof.Machine
end

