-- ==== Sys2Proof/Machine/Domains.lean ====
section
/-! DEFINITION. What the power-up or reset of one domain, and each reset of the device, clears and keeps (Tables 2.5 and
4.1, R88, R98, R105, R113, R167, R245, R261). -/

namespace Sys2Proof.Machine

/-- Domains that power up and down with SHOW, SOLO and SERVICE: eyries and MOD (Table 2.4). -/
def modeDomain (n : Nat) : Bool := 13 ≤ n && n ≤ 45

/-- Set the state of every domain by its index. -/
def mapPd (f : Nat → PdState → PdState) (g : Gate) : Gate :=
  { g with pd := g.pd.mapIdx fun i p => f i p }

/-- Set the state of domain `n`. -/
def setPd (n : Nat) (x : PdState) (g : Gate) : Gate := { g with pd := g.pd.setIfInBounds n x }

/-! ## Voices of one eyrie -/

/-- A voice that ends: FREE, with the other words of its record kept (R245). -/
def Voice.ended (v : Voice) : Voice := { v with state := .free, pend := none, stolen := false }

/-- The voice holds a note (Table 9.8). -/
def Voice.active (v : Voice) : Bool :=
  match v.state with
  | .sounding | .held | .releasing | .stooping | .faulted => true
  | _ => false

/-- The voice renders a level (Table 9.8). -/
def Voice.renders (v : Voice) : Bool :=
  match v.state with
  | .sounding | .held | .releasing | .stooping => true
  | _ => false

/-- Apply `f` to the voices of eyrie `e`. -/
def mapEyrie (e : Nat) (f : Voice → Voice) (x : Vox) : Vox :=
  { x with voice := x.voice.mapIdx fun i v => if i / 16 = e then f v else v }

/-- The voices of eyrie `e` leave ON: ABSENT, with the other words of their records kept (Tables 9.8, 9.9). -/
def eyrieOff (e : Nat) (x : Vox) : Vox := mapEyrie e (fun v => { v with state := .absent }) x

/-- Eyrie `e` reaches ON: its ABSENT voices are FREE, and reads show that (Table 9.9, R245). -/
def eyrieOn (e : Nat) (x : Vox) : Vox :=
  let y := mapEyrie e (fun v => if v.state = .absent then { v with state := .free } else v) x
  { y with shown := y.shown.mapIdx fun i v => if i / 16 = e then vget y.voice i {} else v }

/-- Every voice ends without a stoop (R34). -/
def endVoices (x : Vox) : Vox := { x with voice := x.voice.map fun v => if v.active then v.ended else v }

/-! ## Ring logic and lanes -/

/-- A port after its registers are cleared, its repeat-path state kept (R167). -/
def LanePort.cleared (p : LanePort) : LanePort :=
  { p with
    wrapcfg := BitVec.ofNat 32 (fld p.wrapcfg 8 8 * 256), hopchg := false, wrapcnt := 0, feccorr := 0, fecunc := 0
    loscnt := 0, relock := 0, tap := false, msbCmd := 0x00A0_0000, msbBusy := false, msbNack := false, msbTmo := false, msbRdata := 0
    lpmode := false }

/-- Lanes after a soft or owl reset: repeat-path state kept. -/
def Lanes.cleared (l : Lanes) : Lanes := { l with port := l.port.map LanePort.cleared }

/-- RX lane index of lane domain `n`, when it is one: port and lane (Table 6.1). -/
def rxOfDomain (n : Nat) : Option (Nat × Nat) :=
  if n = 4 then some (0, 0) else if n = 5 then some (0, 1) else if n = 8 then some (1, 0)
  else if n = 9 then some (1, 1) else none

/-- Set RX lane `l` of port `p` to a state. -/
def setRx (p l : Nat) (f : RxLane → RxLane) (x : Lanes) : Lanes :=
  { x with port := vmod x.port p fun q => { q with rx := vmod q.rx l f } }

/-- FUSE has ended in this BOOT, so lanes train (R149). -/
def fuseEnded (s : State) : Bool := !(beforeFuse s) && !s.mode.inPor

/-! ## Kestrels -/

/-- Kestrel `k` held in reset with its registers at their reset values (R98, R106). -/
def resetKestrel (k : Nat) (x : Kst) : Kst :=
  { x with core := vmod x.core k fun c => { (({} : Kestrel)) with crossed := c.crossing k } }

/-! ## Registers of one domain -/

/-- The host bus registers that lie in PD1 at reset; those of PD0 are kept (Table 5.3). -/
def HostBus.pd1Reset (h : HostBus) : HostBus := { isr := h.isr, ier := h.ier, hd := h.hd }

/-- An island of VOX, SYS, MEWS, KST or PWM after CKP's registers are cleared: it switches to NOMINAL divided by 1, or waits
for it (R71, R74, R110). A switch that has not engaged yet turns to NOMINAL, or goes on while NOMINAL is dead. -/
def Iclk.toNominal (i : Iclk) (live : Bool) : Iclk :=
  let j : Iclk := { act := i.act, step := i.step }
  if i.act = 3 then j
  else match i.sw.filter fun w => !w.engaged with
    | some w => if live then { j with sw := some { w with dst := 0, div := 0, cont := false } } else { j with sw := some w, waitsrc := true }
    | none =>
      if i.act = 0 then
        if i.step = 0 then j
        else { j with sw := some { dst := 0, div := 0, stopped := true, engaged := true, failover := false } }
      else if live then { j with sw := some { dst := 0, div := 0, stopped := false, engaged := false, failover := false } }
      else { j with waitsrc := true }

/-- CKP after its registers are cleared while the sources run on: liveness and PLL locks are conditions of the sources, not
registers (R63, R110), and a failover hood stays until its three islands run on NOMINAL again (R78). Before the CLOCK step
ends no island switches (R68). -/
def Ckp.registersReset (c : Ckp) : Ckp :=
  let one (n : Nat) (i : Iclk) : Iclk := if n < 5 then i.toNominal (c.srcLive n 0) else {}
  { live := c.live, lock := c.lock &&& 0b01111, hood := c.hood
    iclk := if (c.icl 0).act = 3 then ({} : Ckp).iclk else c.iclk.mapIdx one }

/-- CHN after its registers are cleared: the position and the muster epoch are repeat-path state, and the repeat path goes on
writing its uplink cell from the record composed last (R49, R167, R179, Table 7.6). A head's position 0 goes with its role
(R194). -/
def Chn.cleared (c : Chn) : Chn :=
  let held := c.held && c.role != 1
  { ticks := c.ticks, pos := c.pos, held := held, fixed := held, late := c.late, npos := c.npos, mepoch := c.mepoch
    mustering := c.mustering, uplink := if held then c.uplink else Vector.replicate 2 [], sent := c.sent }

/-- The ECC block after its registers are cleared: BUCKET is kept (R307, R315). -/
def Ecc.cleared (e : Ecc) : Ecc := { bank := e.bank.map fun b => { bucket := b.bucket, scrub := b.scrub } }

/-- The ROS block after its registers are cleared: the store itself is kept (Table 2.5). -/
def Ros.cleared (r : Ros) : Ros := { store := r.store }

/-- The merge part of a table set at its reset values (R261). -/
def TableSet.mergeReset (t : TableSet) : TableSet := { t with ent := ({} : TableSet).ent, curves := [] }

/-- The allocation and overlay parts of a table set at their reset values (R261). -/
def TableSet.allocReset (t : TableSet) : TableSet := { (({} : TableSet)) with ent := t.ent, curves := t.curves }

/-- The table entries of the merge part at their reset values, curve memories kept (R98). -/
def TableSet.entReset (t : TableSet) : TableSet := { t with ent := ({} : TableSet).ent }

/-- Apply `f` to both sets and the stage. -/
def Epoch.mapSets (f : TableSet → TableSet) (e : Epoch) : Epoch :=
  { e with set0 := f e.set0, set1 := f e.set1, stage := f e.stage }

/-- The blocks of PD1 with their registers cleared (Table 4.1). -/
def resetPd1 (s : State) : State :=
  { s with
    host := s.host.pd1Reset, sys := {}, ckp := s.ckp.registersReset, chn := s.chn.cleared, head := {}
    mgt := { mkey := s.mgt.mkey }, ros := s.ros.cleared, ecc := s.ecc.cleared }

/-- The registers of domain `n` at their reset values and its work lost; memory arrays are kept (R98). -/
def resetDomain (n : Nat) (s : State) : State :=
  if n = 1 then resetPd1 s
  else if n = 2 ∨ n = 3 then { s with lanes := { s.lanes with port := vmod s.lanes.port (n - 2) LanePort.cleared } }
  else if 4 ≤ n ∧ n ≤ 11 then s
  else if n = 12 then { s with dis := {}, epoch := s.epoch.mapSets TableSet.allocReset }
  else if 13 ≤ n ∧ n ≤ 44 then { s with vox := mapEyrie (n - 13) (fun _ => {}) s.vox }
  else if n = 45 then { s with mods := {} }
  else if 54 ≤ n ∧ n ≤ 57 then { s with kst := resetKestrel (n - 54) s.kst }
  else if n = 58 then { s with mrg := {}, epoch := s.epoch.mapSets TableSet.entReset }
  else if n = 59 then { s with emt := {} }
  else if n = 60 then { s with gpt := {} }
  else if n = 61 then { s with aou := {} }
  else if n = 62 then { s with pix := {} }
  else if n = 63 then { s with sns := {} }
  else if n = 64 then { s with aud := {} }
  else if n = 65 then { s with dmx := {} }
  else s

/-- Domain `n` is a memory's that MEMTEST failed and that only an UP command powers (R312). -/
def failedDomain (s : State) (n : Nat) : Bool := decide (46 ≤ n) && bit s.gate.failed (n - 46)

/-- Power-up of domain `n`: registers at reset and memories initialised (R88, R307, R309, R312, R325). -/
def powerUpDomain (n : Nat) (s : State) : State :=
  let s := resetDomain n s
  let s := if 46 ≤ n ∧ n ≤ 57 then { s with gate := { s.gate with failed := setBit s.gate.failed (n - 46) false } } else s
  if 46 ≤ n ∧ n ≤ 53 then
    { s with mem := zeroDomain n s.mem
             ecc := { s.ecc with bank := vmod s.ecc.bank (n - 46) fun b => { b with bucket := 0, scrub := 0 }
                                 corst := setBit s.ecc.corst (n - 46) false } }
  else if 54 ≤ n ∧ n ≤ 57 then { s with mem := zeroDomain n s.mem }
  else if n = 58 then { s with epoch := s.epoch.mapSets TableSet.mergeReset }
  else s

/-- PD1 goes down, which only an entry to DORMANT does, with every other domain already down: what PD1 and the repeat path
hold is lost (R52, Table 4.1). -/
def pd1Off (s : State) : State :=
  { s with
    ckp := { live := s.ckp.live }, lanes := { port := s.lanes.port.map fun p => { (({} : LanePort)) with prs := p.prs } }, chn := {}
    head := {}
    sys := {}, mgt := {}, ecc := {}, ros := { s.ros.cleared with look := false }
    host := { isr := s.host.isr, ier := s.host.ier, hd := s.host.hd } }

/-- What domain `n` loses when its switch opens: its voices are ABSENT, its kestrel holds nothing, its lanes are OFF
(Table 4.1). R87 lets the column "Lost at power-down" cover CLOSED and TRANSIT too, while R98 and R112 keep contents
through a reset and a REOPEN; the model loses them here only (log entry 79). -/
def powerOffDomain (n : Nat) (s : State) : State :=
  if n = 1 then pd1Off s
  else if 13 ≤ n ∧ n ≤ 44 then { s with vox := mapEyrie (n - 13) (fun _ => {}) s.vox }
  else if 46 ≤ n ∧ n ≤ 53 then { s with mem := zeroDomain n s.mem }
  else if 54 ≤ n ∧ n ≤ 57 then { s with kst := resetKestrel (n - 54) s.kst, mem := zeroDomain n s.mem }
  else resetDomain n s

/-- The domain reaches ON: the voices of an eyrie are FREE (R88, R98, Table 9.9). -/
def reachOn (n : Nat) (s : State) : State :=
  if 13 ≤ n ∧ n ≤ 44 then { s with vox := eyrieOn (n - 13) s.vox } else s

/-- Power up every domain of a predicate that is not ON, in ascending order (R90). -/
def powerUpAll (p : Nat → Bool) (s : State) : State :=
  (List.range 67).foldl (fun s n =>
    if p n && !(pdOn s n) then
      { reachOn n (powerUpDomain n s) with gate := { setPd n .on s.gate with updater := s.gate.updater.filter (·.1 != n) } }
    else s) s

/-- Power down every domain of a predicate, in descending order (R90). -/
def powerDownAll (p : Nat → Bool) (s : State) : State :=
  abandonAll ((List.range 67).reverse.foldl (fun s n =>
    if p n && n != 0 then
      { powerOffDomain n s with gate := { setPd n .off s.gate with updater := s.gate.updater.filter (·.1 != n) } }
    else s) s)

/-! ## Resets of the device (Table 2.5) -/

/-- Kinds of reset by what they spare. -/
inductive ResetKind where
  | por | pin | soft | softKeep
  deriving DecidableEq, Repr

/-- Lanes, position and chain time after a reset of a kind. -/
def ResetKind.keepsRepeat : ResetKind → Bool
  | .soft | .softKeep => true
  | _ => false

/-- CKP after a reset: a soft reset leaves the recovered clocks and the SerDes PLLs running (R49, Table 3.13). -/
def Ckp.afterReset (k : ResetKind) (c : Ckp) : Ckp :=
  if k.keepsRepeat then
    { live := ({} : Ckp).live.mapIdx fun i _ => decide (i ≤ 4) && vget c.live i false
      lock := c.lock &&& 0b00011 }
  else {}

/-- The state after a reset of kind `k` with boot cause `bcause` and the HB_RSTCAUSE bit `cbit`: BOOT begins at FUSE
(R43-R50, Table 2.5). A bank that was OFF powers up again, which clears its BUCKET (R307). SRC holds its reset value
(log entry 92). -/
def resetState (k : ResetKind) (bcause : BitVec 3) (cbit : Nat) (s : State) : State :=
  { mode :=
      { code := .boot
        rstcause := if k = .por then BitVec.ofNat 7 1 else setBit s.mode.rstcause cbit true
        bootcfg := if k = .por then 0x4C00 else s.mode.bootcfg
        bcause := bcause
        keepBoot := k = .softKeep }
    gate := { pd := (Vector.replicate 67 PdState.off).set 0 .on, failed := if k = .softKeep then s.gate.failed else 0 }
    host := { hd := s.host.hd }
    ckp := s.ckp.afterReset k
    lanes := if k.keepsRepeat then s.lanes.cleared else { port := s.lanes.port.map fun p => { (({} : LanePort)) with prs := p.prs } }
    chn := if k.keepsRepeat then s.chn.cleared else {}
    mem := if k = .por then {} else s.mem
    drv := { vaoLow := s.drv.vaoLow }
    ecc := { bank := s.ecc.bank.mapIdx fun m (b : Bank) =>
      { (({} : Bank)) with bucket := if k = .por || s.gate.pd[46 + m]? == some PdState.off then 0 else b.bucket } }
    ros := s.ros.cleared
    jtag := s.jtag
    pins := s.pins
    free := s.free
    pending := s.pending }

end Sys2Proof.Machine
end

