-- ==== Sys2Proof/Machine/Numbers.lean ====
section
/-! DEFINITION. Exact and rounded arithmetic on levels and rates: rationals, the roundings the spec names, and the
transcendental functions it uses, computed to 2^-30 or finer before they are rounded (log entry 4). -/

namespace Sys2Proof.Machine

/-- The nearest integer; a value half-way between two goes the way the spec leaves open at `site` (log entry 4). -/
def roundAt (site : Nat) (q : Rat) : Int :=
  let f := q.floor
  let r := q - f
  if r < 1 / 2 then f else if 1 / 2 < r then f + 1 else if Config.roundsUp site q.num q.den then f + 1 else f

/-- One of the two neighbouring integers, where the spec does not say how a value is rounded (log entry 4). -/
def openRound (site : Nat) (q : Rat) : Int :=
  let f := q.floor
  if q = f then f else if Config.roundsUp site q.num q.den then f + 1 else f

/-- Nearest rational of `lo..hi`. -/
def clampQ (lo hi q : Rat) : Rat := if q < lo then lo else if hi < q then hi else q

/-- The value of a u24 level: all ones is 1 (R317). -/
def lvlQ (l : Lvl) : Rat := (l.toNat : Rat) / 16777215

/-- The u24 level nearest to a value of 0 to 1. -/
def toLvl (site : Nat) (q : Rat) : Lvl := BitVec.ofInt 24 (roundAt site (clampQ 0 1 q * 16777215))

/-- The value of a signed 24-bit oscillator output (R228). -/
def s24Q (l : Lvl) : Rat := (l.toInt : Rat) / 8388608

/-- The signed 24-bit output nearest to a value; +1 becomes 0x7F_FFFF (R228). -/
def toS24 (site : Nat) (q : Rat) : Lvl := BitVec.ofInt 24 (clampI (-8388608) 8388607 (roundAt site (q * 8388608)))

/-- A gain field: value / 32,768, with 0x7FFF acting as 1 (R235). -/
def gainQ (w : Half) : Rat := if w = 0x7FFF then 1 else (w.toInt : Rat) / 32768

/-- 2^(2^-i) in 2^-60, i = 1 to 32. -/
def exp2Table : List Nat :=
  [1630477228166597776, 1371062456318104877, 1257269815929830108, 1203965700457697122,
   1178167198179750970, 1165475996665667822, 1159181754367685997, 1156047391917129430,
   1154483390303177194, 1153702183144312517, 1153311777820267002, 1153116624702523243,
   1153019060527275926, 1152970281535252809, 1152945892813103188, 1152933698645489088,
   1152927601610046618, 1152924553104416454, 1152923028854624131, 1152922266730483657,
   1152921885668602342, 1152921695137708915, 1152921599872274010, 1152921552239559509,
   1152921528423202996, 1152921516515024924, 1152921510560935935, 1152921507583891451,
   1152921506095369212, 1152921505351108094, 1152921504978977535, 1152921504792912255]

/-- Product of the table entries selected by the top bits of a fraction of 32 bits. -/
def exp2Prod (f : Nat) : List Nat → Nat → Nat → Nat
  | [], _, acc => acc
  | c :: cs, i, acc => exp2Prod f cs (i - 1) (if f.testBit i then acc * c / 1152921504606846976 else acc)

/-- 2^(f / 2^32) in 2^-60, for a fraction `f` below 2^32. -/
def exp2Frac (f : Nat) : Nat := exp2Prod f exp2Table 31 1152921504606846976

/-- 2^q, from its exponent in steps of 2^-32. -/
def exp2Q (q : Rat) : Rat :=
  let n := (q * 4294967296).floor
  let i := n / 4294967296
  let m : Rat := (exp2Frac (n % 4294967296).toNat : Rat) / 1152921504606846976
  if 0 ≤ i then m * (2 ^ i.toNat : Nat) else m / (2 ^ (-i).toNat : Nat)

/-- Terms of the sine series, in 2^-60: `x2` is x squared, `n` the last factorial factor. -/
def sinTerms (x2 : Int) : Nat → Int → Nat → Int
  | 0, _, _ => 0
  | k + 1, term, n =>
    term + sinTerms x2 k (-(term * x2 / 1152921504606846976) / ((n + 1 : Nat) * (n + 2 : Nat) : Int)) (n + 2)

/-- sin x for x in [0, pi/2], both in 2^-60. -/
def sinFix (x : Int) : Int := sinTerms (x * x / 1152921504606846976) 13 x 1

/-- sin(2 pi q) for a rational number of turns, by quadrants. -/
def sinTurn (q : Rat) : Rat :=
  let r := q - q.floor
  let h := if r < 1 / 2 then r else r - 1 / 2
  let g := if h ≤ 1 / 4 then h else 1 / 2 - h
  let y : Rat := (sinFix (g * 7244019458077122842).floor : Rat) / 1152921504606846976
  if r < 1 / 2 then y else -y

/-- Integer square root, bit by bit from bit `n - 1` down. -/
def isqrtBits (v : Nat) : Nat → Nat → Nat
  | 0, r => r
  | n + 1, r => let t := r + 2 ^ n; isqrtBits v n (if t * t ≤ v then t else r)

/-- Square root of a value of 0 to 1, to 2^-32. -/
def sqrtQ (q : Rat) : Rat := (isqrtBits (q * 18446744073709551616).floor.toNat 33 0 : Rat) / 4294967296

end Sys2Proof.Machine
end

