-- ==== Sys2Proof/Machine/Epochs.lean ====
section
/-! DEFINITION. Table sets, commits and migration (R261-R266), and what a domain closing for a vacate waits for (R95). -/

namespace Sys2Proof.Machine

/-- The table set with bit `b`. -/
def Epoch.set (e : Epoch) (b : Bool) : TableSet := if b then e.set1 else e.set0

/-- Replace the table set with bit `b`. -/
def Epoch.putSet (e : Epoch) (b : Bool) (t : TableSet) : Epoch := if b then { e with set1 := t } else { e with set0 := t }

/-- The set that eyrie `n` uses (R264). -/
def Epoch.eyrieTable (e : Epoch) (n : Nat) : TableSet := e.set (bit e.eyrieSet n)

/-- Merge group of a target (R264). -/
def mergeGroup (target : Nat) : Nat := if target < 0x1400 then 0 else (target - 0x1000) / 0x400

/-- The set that the merge group of a target uses (R264). -/
def Epoch.targetTable (e : Epoch) (target : Nat) : TableSet := e.set (bit e.groupSet (mergeGroup target))

/-- A commit is accepted: the stage is copied into the idle set and the snapshot runs; the progress of the previous migration
stands until B0 (R263). -/
def Epoch.accept (e : Epoch) : Epoch :=
  { (e.putSet (!e.cur) e.stage) with snap := true, mig := true, held := false, stepNo := none }

/-- A held commit is accepted when no migration runs and no transition is in progress (R262). -/
def acceptHeld (s : State) : State :=
  if s.epoch.held && !s.epoch.mig && !s.mode.busy then { s with epoch := s.epoch.accept } else s

/-- A commit (R262): accepted, held or dropped; in ROOST it is discarded (Table 10.7). -/
def commit (s : State) : State :=
  if s.mode.code = .roost then s
  else if s.epoch.held then raise .comdrop { s with epoch := { s.epoch with commitDrop := true } }
  else if s.epoch.mig || s.mode.busy then { s with epoch := { s.epoch with held := true } }
  else { s with epoch := s.epoch.accept }

/-- Step `m` of the migration: two eyries or one merge group change to the new set (R264). -/
def Epoch.migStep (e : Epoch) (m : Nat) : Epoch :=
  let n := !e.cur
  if m < 16 then
    { e with eyrieSet := setBit (setBit e.eyrieSet (2 * m) n) (2 * m + 1) n, eyries := BitVec.ofNat 6 (2 * m + 2)
             stepNo := some (m + 1) }
  else
    { e with groupSet := setBit e.groupSet (m - 16) n, groups := BitVec.ofNat 5 (m - 15), stepNo := some (m + 1) }

/-- The eyrie being closed, when the command in progress is the closing of an eyrie that is still emptying: the PHASE is
1 or 2. -/
def Gate.vacating (g : Gate) : Option Nat :=
  match g.run with
  | some (_, pd, _) => if 13 ≤ pd.val ∧ pd.val ≤ 44 ∧ (g.phase = 1 ∨ g.phase = 2) then some (pd.val - 13) else none
  | none => none

/-- One boundary of the migration: B0 when the snapshot is over and no vacate is in progress, then a step per boundary
(R263, R264, R103). -/
def migrationTick (s : State) : State :=
  if !s.epoch.mig then s
  else match s.epoch.stepNo with
    | none => if s.epoch.snap || (s.gate.vacating.isSome && s.gate.phase == 2) then s
      else { s with epoch := { s.epoch with eyries := 0, groups := 0 }.migStep 0 }
    | some m => if m < 32 then { s with epoch := s.epoch.migStep m } else s

/-- EPOCH_SNAPSHOT_DONE (R263). -/
def execEpochSnapshotDone (s : State) : Host.Outcome State Fault Refusal :=
  .next { s with epoch := { s.epoch with snap := false } }

end Sys2Proof.Machine
end

