-- ==== Sys2Proof/Machine/Sessions.lean ====
section
/-! DEFINITION. Sessions, claims, the event format and launch-time classification (08_sessions_dispatch.md). -/

namespace Sys2Proof.Machine

/-! ## Event fields (Table 8.3) -/

/-- Byte `i` of an event. -/
def evByte (e : EvBytes) (i : Nat) : Nat := (vget e i 0).toNat

/-- The big-endian half-word at byte `i`. -/
def evHalf (e : EvBytes) (i : Nat) : Nat := evByte e i * 256 + evByte e (i + 1)

/-- The operations of an event; reserved codes act as NOP (R211). -/
inductive EvOp where
  | nop | strike | release | kill | killall
  deriving DecidableEq, Repr

/-- OP (Table 8.3). -/
def evOp (e : EvBytes) : EvOp :=
  match evByte e 0 / 16 with
  | 1 => .strike | 2 => .release | 3 => .kill | 4 => .killall | _ => .nop

/-- IMM. -/
def evImm (e : EvBytes) : Bool := (evByte e 0 / 8) % 2 == 1
/-- TICK, with 6 and 7 acting as 5. -/
def evTick (e : EvBytes) : Nat := min (evByte e 0 % 8) 5
/-- LFRAME. -/
def evLframe (e : EvBytes) : BitVec 32 := BitVec.ofNat 32 (evHalf e 1 * 65536 + evHalf e 3)
/-- PATCH. -/
def evPatch (e : EvBytes) : Nat := evHalf e 5 % 4096
/-- TBASE. -/
def evTbase (e : EvBytes) : Nat := evHalf e 7
/-- TLAST. -/
def evTlast (e : EvBytes) : Nat := evHalf e 9
/-- VEL. -/
def evVel (e : EvBytes) : Nat := evByte e 11
/-- KEY. -/
def evKey (e : EvBytes) : Nat := evByte e 12
/-- PRIO. -/
def evPrio (e : EvBytes) : Nat := evByte e 13 % 16
/-- TAG. -/
def evTag (e : EvBytes) : Nat := evHalf e 14

/-- A voice's tag is addressed by an event's tag (Table 8.3, R212). -/
def tagMatches (evTag tag : Nat) : Bool := evTag == 0xFFFF || evTag == tag

/-! ## Sessions -/

/-- Session `n`. -/
def sess (s : State) (n : Nat) : Session := vget s.dis.sess n {}

/-- Change session `n`. -/
def Dis.mod (d : Dis) (n : Nat) (f : Session → Session) : Dis := { d with sess := vmod d.sess n f }

/-- Change session `n`. -/
def modSess (n : Nat) (f : Session → Session) (s : State) : State := { s with dis := s.dis.mod n f }

/-- Count a dropped event or level (R218). -/
def countDrop (n : Nat) (s : State) : State := modSess n (fun x => { x with drop := satInc x.drop }) s

/-- Count a level or strike outside the session's ranges (R201, R213). -/
def countOutrange (n : Nat) (s : State) : State := modSess n (fun x => { x with outrange := satInc x.outrange }) s

/-- Activity of session `n`: its time is kept and its ATO bit clears (R322). -/
def touch (n : Nat) (s : State) : State :=
  { s with dis := s.dis.mod n fun x => { x with active := s.chn.ticks }
           mrg := { s.mrg with ato := setBit s.mrg.ato n false } }

/-- DMX input is enabled (R396). -/
def dmxInput (s : State) : Bool :=
  enabled s 5 && pdOn s 65 && s.dmx.port.any fun p => bit p.cfg 31 && !bit p.cfg 30

/-- A target lies in one of the ranges (R202). -/
def inRanges (r : Vector (Half × Half) 4) (t : Nat) : Bool := r.any fun x => x.1.toNat ≤ t && t ≤ x.2.toNat

/-- Every target of `lo..hi` lies in the union of the ranges, in at most `fuel` hops from one range to the next. -/
def windowInside (r : Vector (Half × Half) 4) : Nat → Nat → Nat → Bool
  | 0, _, _ => false
  | fuel + 1, lo, hi =>
    let top := r.foldl (fun a x => if x.1.toNat ≤ lo ∧ lo ≤ x.2.toNat then max a (x.2.toNat + 1) else a) 0
    if top = 0 then false else if hi < top then true else windowInside r fuel top hi

/-- A window is wholly inside the ranges; an empty one is (R213). -/
def windowWithin (r : Vector (Half × Half) 4) (lo hi : Nat) : Bool := hi < lo || windowInside r 4 lo hi

/-! ## Launch classification (R214) -/

/-- The boundary at which an event plays, numbered frame x 6 + tick, and whether it counts LATE: `b` is the first boundary
after acceptance. -/
def classify (b : Nat) (e : EvBytes) : Nat × Bool :=
  if evImm e then (b, false)
  else
    let f := b / 6
    let d := (evLframe e - BitVec.ofNat 32 f).toInt
    if d > 8000 then ((f + 8000) * 6 + evTick e, false)
    else
      let launch : Int := ((f : Int) + d) * 6 + evTick e
      if (b : Int) ≤ launch then (launch.toNat, false) else (b, true)

/-- Insert an event in launch order, after those that play at the same boundary (R216). -/
def insertEvent (q : QEntry) : List QEntry → List QEntry
  | [] => [q]
  | x :: xs => if q.play < x.play then q :: x :: xs else x :: insertEvent q xs

/-- The session and the permission of an event source (Table 8.1, R198, R199). -/
def sourceSession (s : State) : EvSource → Nat × Bool
  | .ring n => (n, n ≠ 0 && !(n = 15 && dmxInput s))
  | .house => (0, true)
  | .kestrel k => ((vget s.kst.core k {}).sess.toNat, true)

/-- Dispatch accepts an event for session `n` (R198-R200, R211, R214-R218): NOP discards it uncounted, a refused one counts
DROP, a full queue counts QOVF; PD12 must be ON. -/
def acceptFor (n : Nat) (ok : Bool) (e : EvBytes) (s : State) : State :=
  if evOp e = .nop then s
  else
    let x := sess s n
    if x.cur.state = .free || !ok || s.mode.code == .muster || s.mode.code == .relay then countDrop n s
    else if 256 ≤ x.queue.length then raise .qovf (modSess n (fun x => { x with qovf := satInc x.qovf }) s)
    else
      let (play, late) := classify (s.chn.tick + 1) e
      let s : State := { s with dis := { s.dis with arrivals := s.dis.arrivals + 1 } }
      let s := touch n (modSess n (fun x =>
        { x with queue := insertEvent { no := s.dis.arrivals, ev := e, play := play } x.queue }) s)
      if late then raise .late (modSess n (fun x => { x with late := satInc x.late }) s) else s

/-- Dispatch takes an event from a source (R200). -/
def acceptEvent (src : EvSource) (e : EvBytes) (s : State) : State :=
  let (n, ok) := sourceSession s src
  acceptFor n ok e s

/-- EVENT_ACCEPT (R214): while PD12 is not ON the event ends ABSENT (Table 4.1). -/
def execEventAccept (src : EvSource) (ev : EvBytes) (s : State) : Host.Outcome State Fault Refusal :=
  .next (if pdOn s 12 then acceptEvent src ev s else s)

/-- EVENT_NOP (R211): discarded without being counted. -/
def execEventNop (_n : SIdx) (_ev : EvBytes) (s : State) : Host.Outcome State Fault Refusal := .next s

/-! ## Session table writes (R197, R203-R205, R210) -/

/-- CMD = OPEN (R203). -/
def sessionOpen (n : Nat) (s : State) : State := modSess n (fun x => { x with nxt := { x.nxt with state := .open_ } }) s

/-- CMD = FREE (R197, R205): ignored on S0; the session becomes FREE, and at the next boundary it is emptied and OWNER clears,
whatever the tick brings it after that. -/
def sessionFree (n : Nat) (s : State) : State :=
  if n = 0 then s
  else modSess n (fun x =>
    if x.nxt.state = .free then x else { x with nxt := { x.nxt with state := .free, owner := 0 }, freeing := true }) s

/-- A key with one word replaced: word 0 is the most significant (Table 8.5). -/
def putKeyWord (k : BitVec 128) (w : Nat) (v : Word) : BitVec 128 := setFld k (96 - 32 * w) 32 v.toNat

/-- A write of a KEY word clears SEQ (R210). -/
def writeKey (n w : Nat) (v : Word) (s : State) : State :=
  modSess n (fun x => { x with key := putKeyWord x.key w v, seq := 0 }) s

/-- A write of a whole session key (R390). -/
def setKey (n : Nat) (k : BitVec 128) (s : State) : State := modSess n (fun x => { x with key := k, seq := 0 }) s

/-- SESSION_OPEN (R203). -/
def execSessionOpen (n : SIdx) (s : State) : Host.Outcome State Fault Refusal :=
  .next (if pdOn s 12 then sessionOpen n s else s)

/-- SESSION_FREE (R205). -/
def execSessionFree (n : SIdx) (s : State) : Host.Outcome State Fault Refusal :=
  .next (if pdOn s 12 then sessionFree n s else s)

/-- SESSION_KEY_WRITE (R210). -/
def execSessionKeyWrite (n : SIdx) (w : Fin 4) (v : Word) (s : State) : Host.Outcome State Fault Refusal :=
  .next (if pdOn s 12 then writeKey n w v s else s)

/-! ## Claims (R206-R209) -/

/-- RESULT codes of DIS_CLAIMLOG (Table 8.5). -/
inductive ClaimResult where
  | accepted | badmac | replay | taken | locked | nokey | badop
  deriving DecidableEq, Repr

/-- The code of a result. -/
def ClaimResult.code : ClaimResult → BitVec 3
  | .accepted => 1 | .badmac => 2 | .replay => 3 | .taken => 4 | .locked => 5 | .nokey => 6 | .badop => 7

/-- Cell byte `i`. -/
def cellByte (c : CellBytes) (i : Nat) : Byte := vget c i 0

/-- The cell header as a number (Table 7.3). -/
def cellHdr (c : CellBytes) : Nat := beNat ((List.range 4).map (cellByte c))

/-- TYPE (Table 7.3). -/
def cellType (c : CellBytes) : Nat := cellHdr c / 268435456 % 16
/-- DEST. -/
def cellDest (c : CellBytes) : Nat := cellHdr c / 262144 % 1024
/-- SESS. -/
def cellSess (c : CellBytes) : Nat := cellHdr c / 16384 % 16
/-- AUX. -/
def cellAux (c : CellBytes) : Nat := cellHdr c % 4096

/-- Payload byte `i` of a cell. -/
def payByte (c : CellBytes) (i : Nat) : Byte := cellByte c (4 + i)

/-- Big-endian number of `n` payload bytes from byte `i`. -/
def payNum (c : CellBytes) (i n : Nat) : Nat := beNat ((List.range n).map fun k => payByte c (i + k))

/-- The 52 bytes that a claim's or command's MAC covers: header and payload bytes 0-47 (R206). -/
def macBytes (c : CellBytes) : List Byte := (List.range 52).map (cellByte c)

/-- The tag carried in payload bytes 48-63. -/
def macTag (c : CellBytes) : BitVec 128 := BitVec.ofNat 128 (payNum c 48 16)

/-- The entry that an accepted CLAIM writes (R208, R4). -/
def claimEntry (c : CellBytes) : SessEntry :=
  { state := .claimed, prec := BitVec.ofNat 4 (payNum c 1 1 / 16), ltp := bit (payByte c 1) 0
    acttmo := BitVec.ofNat 8 (min (payNum c 22 1) 100)
    reserve := BitVec.ofNat 10 (min (payNum c 2 2 % 1024) 512), limit := BitVec.ofNat 10 (min (payNum c 4 2 % 1024) 512)
    ranges := Vector.ofFn fun r => (BitVec.ofNat 16 (payNum c (6 + 4 * r.val) 2), BitVec.ofNat 16 (payNum c (8 + 4 * r.val) 2))
    owner := BitVec.ofNat 48 (payNum c 24 6) }

/-- The result of a claim on session `n` (R207). -/
def claimResult (s : State) (n : Nat) (c : CellBytes) : ClaimResult :=
  let x := sess s n
  let op := (payByte c 0).toNat
  let cuid := BitVec.ofNat 48 (payNum c 24 6)
  if n = 0 ∨ (n = 15 ∧ dmxInput s) ∨ bit s.dis.lock n then .locked
  else if op ≠ 1 ∧ op ≠ 2 then .badop
  else if Config.auth ∧ x.key = 0 then .nokey
  else if Config.auth ∧ aesCmac x.key (macBytes c) ≠ macTag c then .badmac
  else if payNum c 30 4 ≤ x.seq.toNat then .replay
  else if op = 1 ∧ (x.nxt.state = .open_ ∨ (x.nxt.state = .claimed ∧ x.nxt.owner ≠ cuid)) then .taken
  else if op = 2 ∧ ¬(x.nxt.state = .claimed ∧ x.nxt.owner = cuid) then .taken
  else .accepted

/-- Dispatch evaluates a CLAIM cell (R207-R209). -/
def evalClaim (c : CellBytes) (s : State) : State :=
  let n := cellSess c
  let r := claimResult s n c
  let release := (payByte c 0) != 1
  let s := { s with dis := { s.dis with clRes := r.code, clOp := release, clSess := BitVec.ofNat 4 n
                                        clCuid := BitVec.ofNat 16 (payNum c 28 2) } }
  let s := if r ≠ .accepted then s
    else
      let s := touch n (modSess n (fun x => { x with seq := BitVec.ofNat 32 (payNum c 30 4) }) s)
      if release then sessionFree n s else modSess n (fun x => { x with nxt := claimEntry c }) s
  raise .claim s

/-! ## PARAM (R219) -/

/-- The valid entries of a PARAM cell: TAG, PID and VALUE. -/
def paramEntries (c : CellBytes) : List (Half × Byte × Word) :=
  (List.range 8).filterMap fun i =>
    if bit (payByte c (8 * i + 3)) 0 then
      some (BitVec.ofNat 16 (payNum c (8 * i) 2), payByte c (8 * i + 2), BitVec.ofNat 32 (payNum c (8 * i + 4) 4))
    else none

/-- A PARAM cell for session `n` (R198, R218, R219): dropped as events are, else its entries wait for the boundary. -/
def acceptParams (n : SIdx) (c : CellBytes) (s : State) : State :=
  let (_, ok) := sourceSession s (.ring n)
  if (sess s n).cur.state = .free || !ok || s.mode.code == .muster || s.mode.code == .relay then countDrop n s
  else
    touch n { s with dis := { s.dis with params := s.dis.params ++ (paramEntries c).map fun (t, p, v) => (n, t, p, v) } }

end Sys2Proof.Machine
end

