-- ==== Sys2Proof/Machine/Voices.lean ====
section
/-! DEFINITION. What one voice computes (09_voices.md) and its modulation (R246-R252): the patch copy, oscillators,
envelopes, filter and amplifier, and one rendered tick. -/

namespace Sys2Proof.Machine

/-! ## The patch copy (R225, R239) -/

/-- The little-endian field of `n` bytes at offset `o`. -/
def Patch.num (p : Patch) (o n : Nat) : Nat := leNat ((List.range n).map fun i => vget p (o + i) 0)

/-- Replace the field of `n` bytes at offset `o`. -/
def Patch.put (p : Patch) (o n v : Nat) : Patch :=
  (List.range n).foldl (fun p i => p.setIfInBounds (o + i) (BitVec.ofNat 8 (v / 256 ^ i))) p

/-- Apply `f` to the field of `n` bytes at offset `o`. -/
def Patch.fix (o n : Nat) (f : Nat → Nat) (p : Patch) : Patch := p.put o n (f (p.num o n))

/-- A u16 that holds a signed value of at least 0: a negative one is stored as 0. -/
def nonNeg16 (v : Nat) : Nat := if v < 32768 then v else 0

/-- MODm and OVLk: DST 16-63 and CURVE 9-15 take 0 (R248, R249). -/
def legalSlot (v : Nat) : Nat :=
  let v := if 15 < v / 16 % 64 then v - v / 16 % 64 * 16 else v
  if 8 < v % 16 then v - v % 16 else v

/-- An oscillator block at `o` (Tables 9.4, 9.6). -/
def legalOsc (o : Nat) (p : Patch) : Patch :=
  ((p.fix o 4 (min 0x40000000)).fix (o + 4) 1 (· % 8)).fix (o + 5) 1 fun v => min (v % 8) 6

/-- An envelope block at `o` (Tables 9.5, 9.6). -/
def legalEnv (o : Nat) (p : Patch) : Patch :=
  let p := p.fix o 1 (clampN 1 8)
  p.fix (o + 2) 1 fun v => min (v / 16) (p.num o 1 - 1) * 16 + v % 16

/-- The copy as installed (R225, Table 9.6). -/
def Patch.legal (p : Patch) : Patch :=
  let p := ((p.fix 0x0A 2 nonNeg16).fix 0x0C 2 nonNeg16).fix 0x0E 1 (min 64)
  let p := legalOsc 0x20 (legalOsc 0x10 p)
  let p := (p.fix 0x30 1 fun v => if v % 8 < 5 then v % 8 else 0).fix 0x34 2 (min 63488)
  let p := (List.range 4).foldl (fun p i => p.fix (0x38 + 8 * i) 1 fun v => if v < 3 then v else 0) p
  let p := (List.range 3).foldl (fun p i => legalEnv (0x58 + 36 * i) p) p
  (List.range 12).foldl (fun p i => p.fix (0xC4 + 4 * i) 4 legalSlot) p

/-- The signed value of a 16-bit number. -/
def s16 (v : Nat) : Int := (BitVec.ofNat 16 v).toInt

/-- The gain held at offset `o` (R235). -/
def Patch.gain (p : Patch) (o : Nat) : Rat := gainQ (BitVec.ofNat 16 (p.num o 2))

/-- Fields of envelope `e`. -/
def Patch.nseg (p : Patch) (e : Nat) : Nat := p.num (0x58 + 36 * e) 1
/-- REL. -/
def Patch.rel (p : Patch) (e : Nat) : Nat := p.num (0x59 + 36 * e) 1 / 16
/-- SUS. -/
def Patch.sus (p : Patch) (e : Nat) : Nat := p.num (0x59 + 36 * e) 1 % 16
/-- LEND. -/
def Patch.lend (p : Patch) (e : Nat) : Nat := p.num (0x5A + 36 * e) 1 / 16
/-- LSTART. -/
def Patch.lstart (p : Patch) (e : Nat) : Nat := p.num (0x5A + 36 * e) 1 % 16
/-- SHAPE of segment `s`: exponential. -/
def Patch.expSeg (p : Patch) (e s : Nat) : Bool := (p.num (0x5B + 36 * e) 1).testBit s
/-- LEVEL of segment `s`. -/
def Patch.level (p : Patch) (e s : Nat) : Nat := p.num (0x5C + 36 * e + 4 * s) 2
/-- Length in ticks of segment `s`: (M + 1) x 2^E (R231). -/
def Patch.segTicks (p : Patch) (e s : Nat) : Nat :=
  let t := p.num (0x5E + 36 * e + 4 * s) 2
  (t % 4096 + 1) * 2 ^ (t / 4096)

/-- PARAM: the field that a PID names, its size and range (Table 9.7). -/
def paramField : Nat → Option (Nat × Nat × Int × Int)
  | 0 => some (0x0A, 2, 0, 32767) | 1 => some (0x04, 2, -32768, 32767) | 2 => some (0x06, 2, -32768, 32767)
  | 3 => some (0x08, 2, -32768, 32767) | 4 => some (0x0C, 2, 0, 32767) | 5 => some (0x10, 4, 0, 0x40000000)
  | 6 => some (0x20, 4, 0, 0x40000000) | 7 => some (0x16, 2, 0, 65535) | 8 => some (0x26, 2, 0, 65535)
  | 9 => some (0x14, 1, 0, 7) | 10 => some (0x24, 1, 0, 7) | 11 => some (0x30, 1, 0, 4) | 12 => some (0x32, 2, 0, 65535)
  | 13 => some (0x34, 2, 0, 63488) | 14 => some (0x3C, 2, -32768, 32767) | 15 => some (0x44, 2, -32768, 32767)
  | 16 => some (0x4C, 2, -32768, 32767) | 17 => some (0x54, 2, -32768, 32767) | 18 => some (0x0E, 1, 0, 64)
  | _ => none

/-- A PARAM entry replaces one field of the copy (R240). -/
def Patch.setParam (p : Patch) (pid : Nat) (v : Word) : Patch :=
  match paramField pid with
  | none => p
  | some (o, n, lo, hi) => p.put o n (BitVec.ofInt (8 * n) (clampI lo hi v.toInt)).toNat

/-! ## LFSR (R230) -/

/-- One step of the LFSR. -/
def lfsrStep (w : Word) : Word :=
  let b := (bit w 31 ^^ bit w 21 ^^ bit w 1 ^^ bit w 0).toNat
  w <<< 1 ||| BitVec.ofNat 32 b

/-- The seed at start. -/
def voiceSeed (p : Patch) (play : Nat) (e : EvBytes) : Word :=
  let s : Word :=
    if (p.num 0 2).testBit 1 then BitVec.ofNat 32 (p.num 2 2 * 0x10001)
    else BitVec.ofNat 32 play ^^^ BitVec.ofNat 32 (evTag e * 65536) ^^^ BitVec.ofNat 32 (evPatch e)
  if s = 0 then 1 else s

/-- The draw of an LFSR state. -/
def draw (w : Word) : Lvl := BitVec.ofNat 24 (fld w 8 24)

/-! ## Start (R224, R227, R230, R231) -/

/-- A voice that starts: its copy installed, its first level for tick `start`. -/
def startVoice (n : SIdx) (e : EvBytes) (play start : Nat) (ranges : Vector (Half × Half) 4) (record : Patch) : Voice :=
  let p := record.legal
  let w := lfsrStep (voiceSeed p play e)
  { state := .sounding, prio := BitVec.ofNat 4 (evPrio e), sess := n, tag := BitVec.ofNat 16 (evTag e)
    patch := BitVec.ofNat 12 (evPatch e), tbase := BitVec.ofNat 16 (evTbase e), tlast := BitVec.ofNat 16 (evTlast e)
    rand := BitVec.ofNat 16 (fld w 16 16), key := BitVec.ofNat 8 (evKey e), vel := BitVec.ofNat 8 (evVel e)
    sframe := BitVec.ofNat 32 (play / 6), stick := BitVec.ofNat 3 (play % 6)
    phase := #v[BitVec.ofNat 32 (p.num 0x1C 2 * 65536), BitVec.ofNat 32 (p.num 0x2C 2 * 65536)]
    lfsr := w, copy := p, ranges := ranges, startTick := start, stoopg := 0xFFFFFF }

/-! ## Envelopes (R231-R234) -/

/-- Envelope `e` begins segment `s` from its present level. -/
def Voice.beginSeg (v : Voice) (e s : Nat) : Voice :=
  { v with
    seg := v.seg.setIfInBounds e (BitVec.ofNat 3 s), k := v.k.setIfInBounds e 0
    envStart := v.envStart.setIfInBounds e (vget v.env e 0), hold := v.hold.setIfInBounds e false
    done := v.done.setIfInBounds e false, finish := v.finish.setIfInBounds e false }

/-- The level of a segment in its `k`-th tick (R231). -/
def segLevel (start : Lvl) (target : Nat) (expo : Bool) (k t : Nat) : Lvl :=
  let u : Rat := (k : Rat) / t
  let g : Rat := if expo then (1 - exp2Q (-(8 * u))) / (255 / 256) else u
  let a := lvlQ start
  toLvl 1 (a + ((target : Rat) / 65535 - a) * g)

/-- Envelope `e` advances by one tick (R231). -/
def Voice.advanceEnv (v : Voice) (e : Nat) : Voice :=
  if vget v.hold e false || vget v.done e false then v
  else
    let s := (vget v.seg e 0).toNat
    let k := (vget v.k e 0).toNat + 1
    { v with
      k := v.k.setIfInBounds e (BitVec.ofNat 32 k)
      env := v.env.setIfInBounds e
        (segLevel (vget v.envStart e 0) (v.copy.level e s) (v.copy.expSeg e s) k (v.copy.segTicks e s)) }

/-- Envelope `e` at the end of a tick: a completed segment goes on as R232, a released hold at the last segment completes
(R233). -/
def Voice.endEnv (v : Voice) (e : Nat) : Voice :=
  let s := (vget v.seg e 0).toNat
  if vget v.finish e false then
    { v with finish := v.finish.setIfInBounds e false, hold := v.hold.setIfInBounds e false
             done := v.done.setIfInBounds e true }
  else if vget v.hold e false || vget v.done e false || (vget v.k e 0).toNat != v.copy.segTicks e s then v
  else if !v.reld && s == v.copy.sus e then
    { v with hold := v.hold.setIfInBounds e true, state := if e = 0 && v.state == .sounding then .held else v.state }
  else if !v.reld && v.copy.lstart e ≤ v.copy.lend e && s == v.copy.lend e then v.beginSeg e (v.copy.lstart e)
  else if s + 1 == v.copy.nseg e then { v with done := v.done.setIfInBounds e true }
  else v.beginSeg e (s + 1)

/-- A release reaches envelope `e` (R233). -/
def Voice.releaseEnv (v : Voice) (e : Nat) : Voice :=
  if v.copy.rel e < v.copy.nseg e then v.beginSeg e (v.copy.rel e)
  else if vget v.hold e false then
    if v.copy.sus e + 1 < v.copy.nseg e then v.beginSeg e (v.copy.sus e + 1)
    else { v with finish := v.finish.setIfInBounds e true }
  else v

/-- A release reaches a voice: it acts on SOUNDING and HELD voices only (Table 9.9). -/
def Voice.release (v : Voice) : Voice :=
  match v.state with
  | .sounding | .held => { (((v.releaseEnv 0).releaseEnv 1).releaseEnv 2) with state := .releasing, reld := true }
  | _ => v

/-! ## Modulation (R246-R252) -/

/-- The source code is unipolar (Table 10.1). -/
def unipolar (src : Nat) : Bool :=
  !(src == 1 || src == 2 || (6 ≤ src && src ≤ 8) || (24 ≤ src && src ≤ 27) || 36 ≤ src)

/-- Absolute value of a rational. -/
def absQ (q : Rat) : Rat := if q < 0 then -q else q

/-- Curves (Table 10.2). -/
def curveOf (c : Nat) (uni : Bool) (x : Rat) : Rat :=
  let sg : Rat := if x < 0 then -1 else 1
  match c with
  | 1 => if uni then 1 - x else -x
  | 2 => if uni then x * x else sg * (x * x)
  | 3 => x * x * x
  | 4 => if uni then sqrtQ x else sg * sqrtQ (absQ x)
  | 5 => if uni then x else (x + 1) / 2
  | 6 => if uni then 2 * x - 1 else x
  | 7 => if uni then x else absQ x
  | 8 => if uni then (if 1 / 2 ≤ x then 1 else 0) else if 0 ≤ x then 1 else -1
  | _ => x

/-- Sources local to the voice (Table 10.1), as the previous tick left them (R237). -/
def Voice.source (v : Voice) (src : Nat) : Rat :=
  match src with
  | 0 => 1
  | 1 => s24Q (vget v.last 0 0) | 2 => s24Q (vget v.last 1 0)
  | 3 => lvlQ (vget v.env 0 0) | 4 => lvlQ (vget v.env 1 0) | 5 => lvlQ (vget v.env 2 0)
  | 6 => clampQ (-1) 1 (v.low / 268435456) | 7 => clampQ (-1) 1 (v.band / 268435456)
  | 8 => clampQ (-1) 1 (v.high / 268435456)
  | 9 => lvlQ v.out | 10 => (v.vel.toNat : Rat) / 255 | 11 => (v.key.toNat : Rat) / 255
  | 12 => (v.rand.toNat : Rat) / 65535 | 13 => if v.reldEnd then 1 else 0
  | 14 => if 48000 ≤ v.age.toNat then 1 else (v.age.toNat : Rat) / 48000
  | _ => (v.prio.toNat : Rat) / 15

/-- The contribution of one slot word to its destination, in 2^-24 (R249). -/
def Voice.slot (v : Voice) (globals : Nat → Rat) (w : Nat) : Nat × Int :=
  let src := w / 1024 % 64
  let depth := BitVec.ofNat 16 (w / 65536)
  let x := if src < 16 then v.source src else globals src
  (w / 16 % 64, if depth = 0 then 0 else roundAt 2 (curveOf (w % 16) (unipolar src) x * gainQ depth * 16777216))

/-- The clamped sums of a tick by destination (R249). -/
def Voice.modulate (v : Voice) (globals : Nat → Rat) (ovl : Vector Word 4) : Voice :=
  let words := ((List.range 12).map fun i => v.copy.num (0xC4 + 4 * i) 4) ++ ovl.toList.map BitVec.toNat
  let cs := words.map (v.slot globals)
  { v with msum := Vector.ofFn fun d =>
      clampI (-33554432) 33554432 ((cs.filter (·.1 == d.val)).foldl (fun a c => a + c.2) 0) }

/-- The clamped sum of destination `d`, as a value. -/
def Voice.m (v : Voice) (d : Nat) : Rat := ((vget v.msum d 0 : Int) : Rat) / 16777216

/-- INC after modulation by `m` octave quarters, within 0.01 % (Table 10.3); an unmodulated INC is itself. -/
def pitched (inc : Nat) (m : Rat) : Nat :=
  if m = 0 then inc
  else
    let q := (inc : Rat) * exp2Q (4 * m) * (1 + (clampI (-99) 99 (Config.pitchError inc m.num) : Rat) / 1000000)
    (clampI 0 0x40000000 (roundAt 3 q)).toNat

/-- A value with a rounded modulation added, in a range (Table 10.3). -/
def addMod (p : Nat) (scale : Int) (m : Rat) (hi : Int) : Nat := (clampI 0 hi (p + roundAt 3 (scale * m))).toNat

/-- INC of oscillator `o` in the present tick: both pitch destinations act on it. -/
def Voice.inc (v : Voice) (o : Nat) : Nat := pitched (v.copy.num (0x10 + 0x10 * o) 4) (v.m (1 + o) + v.m 3)

/-- PW of oscillator `o` in the present tick. -/
def Voice.pw (v : Voice) (o : Nat) : Nat := addMod (v.copy.num (0x16 + 0x10 * o) 2) 32768 (v.m (4 + o)) 65535

/-- GAIN of slot `i` in the present tick. -/
def Voice.gain (v : Voice) (i : Nat) : Rat := clampQ (-1) 1 (v.copy.gain (0x3C + 8 * i) + v.m (12 + i))

/-! ## Oscillators (R227-R230) -/

/-- The sine of a phase, within 2^-20 of the exact value (R228). -/
def sineOut (p : Rat) : Lvl :=
  let e := clampI (-7) 7 (Config.sineError (p * 4294967296).floor.toNat)
  BitVec.ofInt 24 (clampI (-8388608) 8388607 (roundAt 4 (sinTurn p * 8388608) + e))

/-- The plain waveforms of Table 9.2 at phase fraction `p`. -/
def waveOut (wave : Nat) (p : Rat) (pw : Nat) : Lvl :=
  match wave with
  | 0 => sineOut p
  | 1 => toS24 4 (if p < 1 / 2 then 4 * p - 1 else 3 - 4 * p)
  | 2 => toS24 4 (2 * p - 1)
  | 3 => toS24 4 (1 - 2 * p)
  | _ => toS24 4 (if p < (pw : Rat) / 65536 then 1 else -1)

/-- L of oscillator `o`. -/
def Voice.wtL (v : Voice) (o : Nat) : Nat := 8 + v.copy.num (0x15 + 0x10 * o) 1

/-- WTBASE' of oscillator `o` (R229). -/
def Voice.wtBase (v : Voice) (o : Nat) : Nat :=
  let n := 2 ^ (v.wtL o + 1)
  0x01000000 + v.copy.num (0x18 + 0x10 * o) 4 % 0x400000 / n * n

/-- Byte addresses of the two samples of a tick (R229). -/
def Voice.wtAddrs (v : Voice) (o : Nat) : Nat × Nat :=
  let l := v.wtL o
  let idx := (vget v.phase o 0).toNat / 2 ^ (32 - l)
  (v.wtBase o + 2 * idx, v.wtBase o + 2 * ((idx + 1) % 2 ^ l))

/-- Oscillator `o` reads a wavetable in the present tick. -/
def Voice.usesWt (v : Voice) (o : Nat) : Bool := v.copy.num (0x14 + 0x10 * o) 1 == 7

/-- The wavetable output of two samples (R229). -/
def wtOut (phase : Word) (l : Nat) (s0 s1 : Half) : Lvl :=
  let frac : Int := (phase.toNat / 2 ^ (16 - l) % 65536 : Nat)
  BitVec.ofInt 24 (s0.toInt * 256 + (s1.toInt - s0.toInt) * frac / 256)

/-- The output of oscillator `o` in a tick, from its draw and its held draw (Table 9.2, R242). -/
def Voice.oscOut (v : Voice) (o : Nat) (d held : Lvl) : Lvl :=
  let ph := vget v.phase o 0
  match v.copy.num (0x14 + 0x10 * o) 1 with
  | 5 => d
  | 6 => held
  | 7 =>
    match vget v.wt o none with
    | some (.value a b) | some (.poisoned a b) => wtOut ph (v.wtL o) a b
    | _ => vget v.last o 0
  | w => waveOut w ((ph.toNat : Rat) / 4294967296) (v.pw o)

/-- A poisoned sample was consumed in the tick (R243, R244). -/
def Voice.poisoned (v : Voice) : Bool :=
  [0, 1].any fun o => v.usesWt o && match vget v.wt o none with | some (.poisoned _ _) => true | _ => false

/-! ## Filter and amplifier (R235, R236) -/

/-- A filter value held with 28 fraction bits, saturating at 8 (log entries 4 and 21). -/
def filt (q : Rat) : Int := clampI (-2147483648) 2147483647 (openRound 5 (q * 268435456))

/-- The mixer, filter and amplifier of one tick: oscillator outputs in, the level out and the filter's new state. -/
def Voice.mix (v : Voice) (a b : Lvl) : Voice :=
  let c := v.copy
  let g (o d : Nat) : Rat := clampQ (-1) 1 (c.gain o + v.m d)
  let x := clampQ (-1) 1 (g 4 8 + g 6 6 * s24Q a + g 8 7 * s24Q b)
  let fc : Rat := exp2Q ((addMod (c.num 0x32 2) 16384 (v.m 9) 65535 : Rat) / 4096) / 100
  let f := 2 * sinTurn (fc / 96000)
  let d : Rat := (65536 - (addMod (c.num 0x34 2) 32768 (v.m 10) 63488 : Rat)) / 32768
  let low := filt ((v.low : Rat) / 268435456 + f * v.band / 268435456)
  let high : Rat := x - (low : Rat) / 268435456 - d * v.band / 268435456
  let band := filt ((v.band : Rat) / 268435456 + f * high)
  let lowQ : Rat := (low : Rat) / 268435456
  let y : Rat := match c.num 0x30 1 with
    | 1 => lowQ | 2 => high | 3 => (band : Rat) / 268435456 | 4 => high + lowQ | _ => x
  let vg := 1 - c.gain 0x0C * (1 - (v.vel.toNat : Rat) / 255)
  let amp := clampQ 0 1 (c.gain 0x0A + v.m 11)
  { v with
    low := low, band := band, high := filt high
    out := toLvl 6 (clampQ 0 1 y * lvlQ (vget v.env 0 0) * vg * amp * (if v.state = .stooping then lvlQ v.stoopg else 1)) }

/-- Slot contributions of a level (R238). -/
def Voice.slots (v : Voice) : Vector Lvl 4 := Vector.ofFn fun i => toLvl 7 (clampQ 0 1 (lvlQ v.out * v.gain i.val))

/-! ## One tick of a voice -/

/-- Phases and held draws after a tick (R227, R230, Table 9.2). -/
def Voice.advance (v : Voice) (da db : Lvl) : Voice :=
  let na := (vget v.phase 0 0).toNat + v.inc 0
  let nb := (vget v.phase 1 0).toNat + v.inc 1
  let wrapA := 4294967296 ≤ na
  let sync := (v.copy.num 0 2).testBit 0 && wrapA
  let wrapB := !sync && decide (4294967296 ≤ nb)
  { v with
    phase := #v[BitVec.ofNat 32 na, if sync then BitVec.ofNat 32 (v.copy.num 0x2C 2 * 65536) else BitVec.ofNat 32 nb]
    sh := #v[if wrapA then da else vget v.sh 0 0, if wrapB then db else vget v.sh 1 0] }

/-- The tick that began with modulation and envelopes is rendered and ends (R227-R236, R244): `fhold` is FHOLD in ticks.
A voice that consumed a poisoned sample becomes FAULTED with its contributions repeated. -/
def Voice.finishTick (v : Voice) (fhold : Nat) : Voice :=
  let l1 := lfsrStep v.lfsr
  let l2 := lfsrStep l1
  let v := if v.rendered = 0 then { v with sh := #v[draw l1, draw l2] } else v
  let a := v.oscOut 0 (draw l1) (vget v.sh 0 0)
  let b := v.oscOut 1 (draw l2) (vget v.sh 1 0)
  let bad := v.poisoned
  let v := v.mix a b
  let v := if bad then v else { v with contrib := v.slots }
  let v := { (v.advance (draw l1) (draw l2)) with lfsr := l2, last := #v[a, b], rendered := v.rendered + 1
                                                  reldEnd := v.reld, age := satInc v.age, wt := Vector.replicate 2 none }
  let v := ((v.endEnv 0).endEnv 1).endEnv 2
  if bad then { v with state := .faulted, faultLeft := max 1 fhold, pend := none } else v

/-- The tick begins: modulation sums, then the envelopes advance, then the stoop factor falls (R231, R237, R258). -/
def Voice.beginTick (v : Voice) (globals : Nat → Rat) (ovl : Vector Word 4) : Voice :=
  let v := (((v.modulate globals ovl).advanceEnv 0).advanceEnv 1).advanceEnv 2
  if v.state = .stooping then
    let k := v.stoopK + 1
    { v with stoopK := k
             stoopg := toLvl 8 (lvlQ v.stoopG0 * ((v.stoopT - k : Nat) : Rat) / (v.stoopT : Rat)) }
  else v

/-! ## Wavetable reads (R229, R242, R243) -/

/-- The reply that a wavetable read of oscillator `o` of a voice gets. -/
def wtReply (s : State) (v : Voice) (o : Nat) : WtReply :=
  let (a0, a1) := v.wtAddrs o
  let half (a : Nat) : Half := BitVec.ofNat 16 ((memData s a).1.toNat / 2 ^ (a % 8 * 8))
  match memOf a0 with
  | none => .absent
  | some t =>
    if !pdOn s (memDomain t) then .absent
    else if (memData s a0).2 || (memData s a1).2 then .poisoned (half a0) (half a1)
    else .value (half a0) (half a1)

/-- Change voice `i`. -/
def Vox.mod (x : Vox) (i : Nat) (f : Voice → Voice) : Vox := { x with voice := vmod x.voice i f }

/-- Voice `i`. -/
def vox (s : State) (i : Nat) : Voice := vget s.vox.voice i {}

/-- Voice `i` renders the present tick. -/
def Voice.inTick (v : Voice) (tick : Nat) : Bool := v.renders && v.startTick ≤ tick

/-- The wavetable read of oscillator `o` of voice `i` for the present tick, when it has not been answered. -/
def wtRead (i o : Nat) (s : State) : State :=
  let v := vox s i
  if v.inTick s.chn.ticks && v.usesWt o && vget v.wt o none == none then
    let r := wtReply s v o
    let (a0, a1) := v.wtAddrs o
    let s' : State := { s with vox := { (s.vox.mod i fun v => { v with wt := v.wt.setIfInBounds o (some r) }) with
      abssmp := if r = .absent then satInc s.vox.abssmp else s.vox.abssmp } }
    if r = .absent then s'
    else if a0 / 8 = a1 / 8 then memReadEffect 0 a0 s' else memReadEffect 0 a1 (memReadEffect 0 a0 s')
  else s

/-! ## Global sources (Table 10.1) -/

/-- The phase fraction of an LFO at tick boundary `t`, whose frame number is that of CTIME[63:24] (R251). -/
def Lfo.frac (l : Lfo) (t pos : Nat) : Rat :=
  let per := fld l.cfg 0 24
  (((t % (6 * 2 ^ 40) + fld l.ofs 0 24 + pos * fld l.posk 0 24) % per : Nat) : Rat) / per

/-- The LFO's output (R251): the waveforms of Table 9.2 as they stand, without the rounding of an oscillator's output, the
sine within the bound of R228 (log entry 90). -/
def Lfo.out (l : Lfo) (t pos : Nat) : Rat :=
  if bit l.cfg 31 then
    let p := l.frac t pos
    match l.wave.toNat with
    | 0 => s24Q (sineOut p)
    | 1 => if p < 1 / 2 then 4 * p - 1 else 3 - 4 * p
    | 2 => 2 * p - 1
    | 3 => 1 - 2 * p
    | _ => if p < 1 / 2 then 1 else -1
  else 0

/-- The global sources as sampled at tick boundary `t` (R237, R247, R251, R252, R370, R373, R374). -/
def globalSource (s : State) (t src : Nat) : Rat :=
  let aud := pdOn s 64
  let pos := if s.chn.held then s.chn.pos.toNat else 0
  if src = 16 then
    if aud then
      clampQ 0 (999985 / 1000000) (((64 * s.aud.now : Nat) - s.aud.lastBeat : Rat) / (64 * (s.aud.tau : Rat)))
    else 0
  else if src = 17 then if aud && s.aud.pulseNow then 1 else 0
  else if src = 18 then if aud && s.aud.lock then (s.aud.onset : Rat) / 262144 else 0
  else if src = 19 then if aud then clampQ 0 1 ((60000 / (s.aud.tau : Rat) - 40) / 200) else 0
  else if src < 24 then
    if aud then
      let w := vget s.aud.env (src - 20) 0
      clampQ 0 1 (((vget s.aud.e (src - 20) 0 : Nat) : Rat) / 4294967296 * (2 ^ fld w 16 3 : Nat))
    else 0
  else if src < 28 then if pdOn s 45 then (vget s.mods.lfo (src - 24) {}).out t pos else 0
  else if src < 36 then if pdOn s 63 then vget s.sns.val (src - 28) 0 else 0
  else if src < 48 then if pdOn s 45 then ((vget s.mods.hmac (src - 36) 0).toInt : Rat) / 32768 else 0
  else if pdOn s 45 then ((vget s.mods.kmod (src - 48) 0).toInt : Rat) / 32768 else 0

/-! ## The commands that act inside a tick -/

/-- ENV_SEGMENT_END (R232): envelope `e` of voice `v` reaches the end of its segment or of its hold. -/
def execEnvSegmentEnd (v : VIdx) (e : Fin 3) (s : State) : Host.Outcome State Fault Refusal :=
  .next { s with vox := s.vox.mod v fun x => if x.inTick s.chn.ticks then x.endEnv e.val else x }

/-- WAVETABLE_READ_REPLY (R242). -/
def execWavetableReadReply (v : VIdx) (o : Fin 2) (s : State) : Host.Outcome State Fault Refusal :=
  .next (wtRead v.val o.val s)

/-- FHOLD_EXPIRY (R244): a FAULTED voice ends without a stoop. -/
def execFholdExpiry (v : VIdx) (s : State) : Host.Outcome State Fault Refusal :=
  .next { s with vox := s.vox.mod v fun x => if x.state = .faulted then x.ended else x }

end Sys2Proof.Machine
end

