-- ==== Sys2Proof/Machine/Alloc.lean ====
section
/-! DEFINITION. Dispatch hand-over, allocation, stealing and the stoop, patch-record reads and the eyrie vacate
(R101, R102, R205, R212-R226, R253-R260). -/

namespace Sys2Proof.Machine

/-! ## Holdings and reservations (R253, R254) -/

/-- The session that a voice counts for (R254). -/
def Voice.owner (v : Voice) : SIdx :=
  match v.state, v.pend with
  | .stooping, some p => p.sess
  | _, _ => v.sess

/-- held(n) (R254). -/
def Vox.held (x : Vox) (n : Nat) : Nat := x.voice.countP fun v => v.active && v.owner.val == n

/-- res and lim of every session (R253), as pairs in index order. -/
def computeRes (d : Dis) : List (Nat × Nat) :=
  ((List.range 16).foldl (fun (acc : List (Nat × Nat) × Nat) n =>
    let c := (vget d.sess n {}).cur
    let r := if c.state = .free then 0 else min (min c.reserve.toNat c.limit.toNat) (512 - acc.2)
    (acc.1 ++ [(r, c.limit.toNat)], acc.2 + r)) ([], 0)).1

/-- VOX_RESVs at a boundary (R253). -/
def setRes (s : State) : State :=
  let l := computeRes s.dis
  { s with vox := { s.vox with
      res := Vector.ofFn fun n => BitVec.ofNat 10 (l.getD n.val (0, 0)).1
      lim := Vector.ofFn fun n => BitVec.ofNat 10 (l.getD n.val (0, 512)).2 } }

/-- unmet(n) (R254). -/
def Vox.unmet (x : Vox) (n : Nat) : Nat :=
  ((List.range 16).map fun t => if t = n then 0 else (vget x.res t 0).toNat - x.held t).sum

/-- Voice `i` holds a vacate reservation whose source has not ended (R101). -/
def reserved (s : State) (i : Nat) : Bool := s.gate.resv.any fun r => r.2.val == i && (vox s r.1).active

/-- Voice `i` is FREE in an eyrie that is ON and not being closed, without a reservation (R255). -/
def freeVoice (s : State) (i : Nat) : Bool := (vox s i).state == .free && pdOn s (13 + i / 16) && !reserved s i

/-- The lowest usable free voice for session `n` (R255). -/
def usableVoice (s : State) (n : Nat) : Option Nat :=
  (List.range 512).find? fun i => freeVoice s i && bit (vget (s.epoch.eyrieTable (i / 16)).eyries n 0) (i / 16)

/-- nfree (R255). -/
def nfree (s : State) : Nat := (List.range 512).countP (freeVoice s)

/-! ## Victims (R256, R257) -/

/-- POLICY of session `n`, from the set of E31. -/
def policyOf (s : State) (n : Nat) : Nat := fld (vget (s.epoch.eyrieTable 31).policy n 0) 8 2
/-- XSTEAL of session `n`, from the set of E31. -/
def xstealOf (s : State) (n : Nat) : Bool := bit (vget (s.epoch.eyrieTable 31).policy n 0) 0
/-- PREC of session `n` as it stands this tick. -/
def precOf (s : State) (n : Nat) : Nat := (sess s n).cur.prec.toNat

/-- Voice `i` is a candidate victim for session `n` (R256). -/
def candidate (s : State) (n : Nat) (ownOnly : Bool) (i : Nat) : Bool :=
  let v := vox s i
  let t := v.owner.val
  v.renders && pdOn s (13 + i / 16) && !v.stolen && policyOf s n != 3 &&
    (t == n || (!ownOnly && xstealOf s n && decide (precOf s t < precOf s n) &&
      decide ((vget s.vox.res t 0).toNat < s.vox.held t)))

/-- The ranking key of a candidate, first taken least (R257, Table 10.4). -/
def victimKey (s : State) (n i : Nat) : List Nat :=
  let v := vox s i
  let young := 4294967295 - v.age.toNat
  let pol := match policyOf s n with
    | 0 => [if v.state = .releasing then 0 else 1, young]
    | 1 => [v.prio.toNat, young]
    | _ => [v.out.toNat, young]
  [if v.state = .stooping then 1 else 0, precOf s v.owner] ++ pol ++ [i]

/-- Lexicographic order. -/
def lexLess : List Nat → List Nat → Bool
  | a :: as, b :: bs => a < b || (a == b && lexLess as bs)
  | _, _ => false

/-- The victim for session `n` (R257). -/
def victim (s : State) (n : Nat) (ownOnly : Bool) : Option Nat :=
  ((List.range 512).filter (candidate s n ownOnly)).foldl (fun b i =>
    match b with
    | none => some i
    | some j => if lexLess (victimKey s n i) (victimKey s n j) then some i else some j) none

/-- What a strike gets (R255). -/
inductive Grant where
  | use (i : Nat)
  | steal (i : Nat)
  | nothing
  deriving DecidableEq, Repr

/-- The victim as a grant. -/
def stealGrant : Option Nat → Grant
  | some i => .steal i
  | none => .nothing

/-- The allocation of a strike of session `n` (R255). -/
def allocate (s : State) (n : Nat) : Grant :=
  let held := s.vox.held n
  if (vget s.vox.lim n 0).toNat ≤ held then stealGrant (victim s n true)
  else match usableVoice s n with
    | some i =>
      if held < (vget s.vox.res n 0).toNat ∨ s.vox.unmet n < nfree s then .use i else stealGrant (victim s n false)
    | none => stealGrant (victim s n false)

/-! ## Counters -/

/-- NOVOICE of session `n` counts (R255, R259). -/
def countNovoice (n : Nat) (s : State) : State :=
  { s with vox := { s.vox with novoice := vmod s.vox.novoice n satInc } }

/-- STEALS of session `n` counts (R258). -/
def countSteal (n : Nat) (s : State) : State := { s with vox := { s.vox with steals := vmod s.vox.steals n satInc } }

/-- Change voice `i`. -/
def modVoice (i : Nat) (f : Voice → Voice) (s : State) : State := { s with vox := s.vox.mod i f }

/-! ## Patch records (R222-R224) -/

/-- Byte address of a patch record (R222). -/
def recordAddr (s : State) (patch : Nat) : Nat := 0x01000000 + s.vox.patchbase.toNat * 0x100000 + patch * 0x100

/-- The record read at a byte address: none when its bank is not ON or a word is poisoned (R104, R244). -/
def readRecord (s : State) (a : Nat) : Option Patch :=
  match memOf a with
  | none => none
  | some t =>
    let (bs, bad) := memBytes s a 256
    if pdOn s (memDomain t) && !bad then some (Vector.ofFn fun i => bs.getD i.val 0) else none

/-- What reading a record does to the memory and its counters (R301, R223). A record that was not prefetched is read at the
instant of its hand-over (log entry 89). -/
def readRecordEffect (a : Nat) (s : State) : State :=
  match memOf a with
  | none => s
  | some t => if pdOn s (memDomain t) then readWordsEffect 1 a 32 s else s

/-- The bank of an address takes reads. -/
def bankOn (s : State) (a : Nat) : Bool := (memOf a).any fun t => pdOn s (memDomain t)

/-- The next `k` words of an outstanding read are read (R223, R282). -/
def PatchRead.advance (k : Nat) (r : PatchRead) (s : State) : PatchRead :=
  let a := r.addr + r.got.length
  let (bs, bad) := memBytes s a (8 * k)
  { r with got := r.got ++ bs, bad := r.bad || bad || (decide (0 < k) && !bankOn s a) }

/-- What reading the next `k` words does to the memory and its counters (R301). -/
def PatchRead.advanceEffect (k : Nat) (r : PatchRead) (s : State) : State :=
  if bankOn s (r.addr + r.got.length) then readWordsEffect 1 (r.addr + r.got.length) k s else s

/-- Words of a record that have not been read. -/
def PatchRead.left (r : PatchRead) : Nat := 32 - r.got.length / 8

/-- The record of a read that has taken all its words: none when one ended ABSENT or was poisoned (R104, R244). -/
def PatchRead.record (r : PatchRead) : Option Patch :=
  if r.bad then none else some (Vector.ofFn fun i => r.got.getD i.val 0)

/-- Each outstanding read may take some of its words before a store that comes now; how many is free (R282, log entry 89). -/
def slideReads (s : State) : State :=
  s.dis.reads.foldl (fun s r =>
    let k := (Config.freeWord s.free).toNat % (r.left + 1)
    let t := r.advanceEffect k s
    { t with free := s.free + 1, dis := { t.dis with reads := t.dis.reads ++ [r.advance k s] } })
    { s with dis := { s.dis with reads := [] } }

/-- A prefetch completes (R223): its event gets the copy, or is dropped and counted (R218). The closed gate of PD12 drops
the reply (R97). -/
def completeRead (r : PatchRead) (s : State) : State :=
  let c := (r.advance r.left s).record
  let s := r.advanceEffect r.left s
  if !pdOn s 12 || !(sess s r.sess).queue.any (·.no == r.no) then s
  else
    match c with
    | some p => modSess r.sess (fun x =>
        { x with queue := x.queue.map fun q => if q.no = r.no then { q with copy := some p } else q }) s
    | none => countDrop r.sess (modSess r.sess (fun x => { x with queue := x.queue.filter fun q => q.no != r.no }) s)

/-- The oldest outstanding prefetch completes. -/
def completeOldest (s : State) : State :=
  match s.dis.reads with
  | [] => s
  | r :: rs => completeRead r { s with dis := { s.dis with reads := rs } }

/-- Every outstanding prefetch completes (R224). -/
def completeAll (s : State) : State :=
  s.dis.reads.foldl (fun s r => completeRead r s) { s with dis := { s.dis with reads := [] } }

/-! ## Strikes, the stoop and the other operations -/

/-- Voice `i` installs a pending event with its first level for tick `t` (R258, R260). -/
def installPending (p : Pending) (t i : Nat) (s : State) : State :=
  modVoice i (fun v => { startVoice p.sess p.ev p.play t p.ranges p.copy with stolen := v.stolen }) s

/-- A stoop ends: the pending event is installed, or the voice ends when it was discarded (R258, R260). -/
def endStoop (t i : Nat) (s : State) : State :=
  match (vox s i).pend with
  | some p => installPending p t i s
  | none => modVoice i Voice.ended s

/-- Voice `i` is stolen for a pending event; its stoop or, with T = 0, the new note begins at tick `t` (R258, R259). -/
def stealVoice (p : Pending) (t i : Nat) (s : State) : State :=
  let v := vox s i
  let again := v.state == .stooping
  let s := match v.pend with
    | some q => if again then countNovoice q.sess s else s
    | none => s
  let s := countSteal v.sess s
  let len := if again then v.stoopT else 6 * v.copy.num 0x0E 1
  if len = 0 then modVoice i (fun v => { v with stolen := true }) (installPending p t i s)
  else
    modVoice i (fun v =>
      let g : Lvl := if again then v.stoopg else 0xFFFFFF
      { v with state := .stooping, pend := some p, stoopT := len, stoopK := 0, stoopG0 := g, stoopg := g
               stolen := true }) s

/-- A STRIKE is handed to the allocator for tick `t` (R212, R213, R218, R224, R255): `copy` is its prefetched record. -/
def strike (t : Nat) (n : SIdx) (e : EvBytes) (play : Nat) (copy : Option Patch) (s : State) : State :=
  let rg := (sess s n).cur.ranges
  let s := when (!windowWithin rg (evTbase e) (evTlast e)) (countOutrange n) s
  let a := recordAddr s (evPatch e)
  let rec_ := match copy with | some p => some p | none => readRecord s a
  let s := when copy.isNone (readRecordEffect a) s
  match rec_ with
  | none => countDrop n s
  | some p =>
    match allocate s n with
    | .use i =>
      let late := copy.isNone
      let s := modVoice i (fun _ => startVoice n e play (if late then t + 1 else t) rg p) s
      when late (fun s => { s with vox := { s.vox with slip := satInc s.vox.slip } }) s
    | .steal i => stealVoice { sess := n, ev := e, play := play, copy := p, ranges := rg } t i s
    | .nothing => countNovoice n s

/-- A RELEASE of session `n` (R212, R233). -/
def releaseVoices (n : Nat) (tag : Nat) (x : Vox) : Vox :=
  { x with voice := x.voice.map fun v => if v.sess.val == n && tagMatches tag v.tag.toNat then v.release else v }

/-- A KILL or KILLALL reaches voice `v`; `hit` says which tags of session `n` it names (R212, R260). -/
def killVoice (n : Nat) (hit : Nat → Bool) (t : Nat) (v : Voice) : Voice :=
  let old := v.active && v.sess.val == n && hit v.tag.toNat
  if v.state = .stooping then
    match v.pend with
    | some p =>
      let new := p.sess.val == n && hit (evTag p.ev)
      if old && new then v.ended
      else if old then { startVoice p.sess p.ev p.play t p.ranges p.copy with stolen := v.stolen }
      else if new then { v with pend := none }
      else v
    | none => if old then v.ended else v
  else if old then v.ended
  else v

/-- Voices of session `n` whose tag is named end (R212). -/
def killVoices (n : Nat) (hit : Nat → Bool) (t : Nat) (x : Vox) : Vox := { x with voice := x.voice.map (killVoice n hit t) }

/-- KILLALL of session `n` (R212, R323): its voices end, its queued events are discarded uncounted and its vacate
contributions are dropped. -/
def killAll (n t : Nat) (s : State) : State :=
  { s with
    vox := killVoices n (fun _ => true) t s.vox
    dis := s.dis.mod n fun x => { x with queue := [] }
    mrg := { s.mrg with vac := s.mrg.vac.filter fun c => c.1.val != n } }

/-- An event takes effect (R212); its renders and stoops begin with tick `t`. -/
def applyEvent (t : Nat) (n : SIdx) (e : EvBytes) (play : Nat) (copy : Option Patch) (s : State) : State :=
  match evOp e with
  | .nop => s
  | .strike => strike t n e play copy s
  | .release => { s with vox := releaseVoices n (evTag e) s.vox }
  | .kill => { s with vox := killVoices n (tagMatches (evTag e)) t s.vox }
  | .killall => killAll n t s

/-! ## Hand-over (R217) -/

/-- Insert a deferred event by its place. -/
def insertDeferred (x : SIdx × QEntry) : List (SIdx × QEntry) → List (SIdx × QEntry)
  | [] => [x]
  | y :: ys => if x.2.deferred ≤ y.2.deferred then x :: y :: ys else y :: insertDeferred x ys

/-- Every queued event with its session, in session and queue order. -/
def queued (s : State) : List (SIdx × QEntry) :=
  (List.finRange 16).flatMap fun (n : SIdx) => (sess s n).queue.map fun q => (n, q)

/-- Events that an earlier boundary deferred, in the order in which it would have handed them over. -/
def deferredEvents (s : State) : List (SIdx × QEntry) :=
  ((queued s).filter fun x => x.2.deferred != 0).foldr insertDeferred []

/-- Events due at boundary `b` in hand-over order: deferred ones first, in the order they kept, then descending PREC, session
index, queue order. -/
def dueEvents (s : State) (b : Nat) : List (SIdx × QEntry) :=
  deferredEvents s ++ (List.range 16).reverse.flatMap fun p =>
    (queued s).filter fun x => precOf s x.1 == p && decide (x.2.play ≤ b) && x.2.deferred == 0

/-- The events beyond the 512 of a tick stay at the head of their queues, deferred in their order. -/
def keepQueues (rest : List (SIdx × QEntry)) (b : Nat) (d : Dis) : Dis :=
  let late := rest.mapIdx fun i (x : SIdx × QEntry) => (x.1, { x.2 with deferred := i + 1 })
  { d with
    sess := d.sess.mapIdx fun n (x : Session) =>
      { x with queue := (late.filter (·.1.val == n)).map (·.2) ++ x.queue.filter fun q => b < q.play && q.deferred == 0 }
    defer := satAdd d.defer rest.length }

/-- The hand-over at boundary `b` (R217, R226), which begins the `t`-th elapsed tick. -/
def handOver (b t : Nat) (s : State) : State :=
  let due := dueEvents s b
  let now := due.take 512
  let s := { s with dis := { keepQueues (due.drop 512) b s.dis with due := BitVec.ofNat 10 now.length } }
  now.foldl (fun s q => applyEvent t q.1 q.2.ev q.2.play q.2.copy s) s

/-- PARAM entries due at a boundary (R219, R240). -/
def applyParams (s : State) : State :=
  s.dis.params.foldl (fun s (n, tag, pid, value) =>
    { s with vox := { s.vox with voice := s.vox.voice.map fun v =>
        match v.state with
        | .sounding | .held | .releasing =>
          if v.sess == n && tagMatches tag.toNat v.tag.toNat then { v with copy := v.copy.setParam pid.toNat value } else v
        | _ => v } })
    { s with dis := { s.dis with params := [] } }

/-- Prefetches are issued for the strikes that the next boundary will hand over (R223). -/
def issuePrefetch (b : Nat) (s : State) : State :=
  let next := ((dueEvents s (b + 1)).take 512).filter fun q =>
    evOp q.2.ev == .strike && q.2.copy.isNone && !s.dis.reads.any (·.no == q.2.no)
  { s with dis := { s.dis with reads := s.dis.reads ++ next.map fun q =>
      { sess := q.1, no := q.2.no, addr := recordAddr s (evPatch q.2.ev) } } }

/-- VOX_KILL at a boundary (R266). -/
def applyVoxKill (b : Nat) (s : State) : State :=
  let s' := (List.range 16).foldl (fun t n => if bit s.vox.kill n then killAll n b t else t) s
  { s' with vox := { s'.vox with kill := 0 } }

/-- Stoops whose last tick has been rendered end at boundary `b` (R258). -/
def endStoops (b : Nat) (s : State) : State :=
  (List.range 512).foldl (fun s i =>
    let v := vox s i
    if v.state = .stooping ∧ v.stoopT ≤ v.stoopK then endStoop b i s else s) s

/-! ## Session table at a boundary (R22, R205) -/

/-- A session's entry takes its staged write; one that became FREE in the tick is flushed, even when it was opened or
claimed again before the boundary (R205). -/
def Session.turn (x : Session) : Session :=
  if x.freeing then
    { x with cur := x.nxt, freeing := false, drop := satAdd x.drop x.queue.length, queue := [] }
  else { x with cur := x.nxt }

/-- Sessions that become FREE at this boundary. -/
def freeingNow (d : Dis) : List Nat := (List.range 16).filter fun n => (vget d.sess n {}).freeing

/-- The session table turns over at a boundary (R22, R205, R318, R323). -/
def turnSessions (s : State) : State :=
  let f := freeingNow s.dis
  { s with
    dis := { s.dis with sess := s.dis.sess.map Session.turn }
    vox := f.foldl (fun x n => releaseVoices n 0xFFFF x) s.vox
    mrg := { s.mrg with lvls := s.mrg.lvls.filter fun l => !f.contains l.sess.val
                        wait := s.mrg.wait.filter fun l => !f.contains l.sess.val
                        vac := s.mrg.vac.filter fun c => !f.contains c.1.val } }

/-! ## Vacate (R101, R102) -/

/-- A slot of a voice delivers to target `t` (R238). -/
def Voice.delivers (v : Voice) (i t : Nat) : Bool :=
  let o := 0x38 + 8 * i
  let start := v.tbase.toNat + v.copy.num (o + 2) 2
  let stride := max 1 (v.copy.num (o + 1) 1)
  v.tbase.toNat ≤ v.tlast.toNat && start ≤ t && t ≤ v.tlast.toNat && inRanges v.ranges t &&
    match v.copy.num o 1 with
    | 1 => t == start
    | 2 => (t - start) % stride == 0
    | _ => false

/-- The contributions of a voice to target `t`, one for each slot that delivers to it. -/
def Voice.contribs (v : Voice) (t : Nat) : List Lvl :=
  (List.range 4).filterMap fun i => if v.delivers i t then some (vget v.contrib i 0) else none

/-- A target ID that is not reserved (R2, R3). -/
def validTarget (t : Nat) : Bool := t < 0x50 || (0x1000 ≤ t && t < 0x5000)

/-- Entry index of a target (13, Registers). -/
def entryOf (t : Nat) : Nat := if t < 0x1000 then t else 80 + 4 * ((t - 0x1000) / 0x1000) + t % 4

/-- The merge entry of a target, from the set of its group. -/
def targetEntry (e : Epoch) (t : Nat) : Word := vget (e.targetTable t).ent (entryOf t) 20

/-! ## The commands -/

/-- Dispatch works: PD12 is ON. -/
def disOn (s : State) : Bool := pdOn s 12

/-- Effects of a command between two boundaries start with the next tick. -/
def nextTick (s : State) : Nat := s.chn.ticks + 1

/-- STRIKE (R212): handed over with no prefetched record. -/
def execStrike (n : SIdx) (ev : EvBytes) (s : State) : Host.Outcome State Fault Refusal :=
  .next (if disOn s then strike (nextTick s) n ev s.chn.tick none s else s)

/-- RELEASE (R212). -/
def execEventRelease (n : SIdx) (ev : EvBytes) (s : State) : Host.Outcome State Fault Refusal :=
  .next (if disOn s then { s with vox := releaseVoices n (evTag ev) s.vox } else s)

/-- KILL (R212). -/
def execKill (n : SIdx) (ev : EvBytes) (s : State) : Host.Outcome State Fault Refusal :=
  .next (if disOn s then { s with vox := killVoices n (tagMatches (evTag ev)) (nextTick s) s.vox } else s)

/-- KILLALL (R212). -/
def execKillall (n : SIdx) (_ev : EvBytes) (s : State) : Host.Outcome State Fault Refusal :=
  .next (if disOn s then killAll n (nextTick s) s else s)

/-- PATCH_READ_DONE (R223). -/
def execPatchReadDone (s : State) : Host.Outcome State Fault Refusal := .next (completeOldest s)

/-- STOOP_END (R258): the stoop of voice `v` is over. -/
def execStoopEnd (v : VIdx) (s : State) : Host.Outcome State Fault Refusal :=
  .next (if (vox s v).state = .stooping then endStoop (nextTick s) v s else s)

/-- VOX_KILL (R266): the bits wait for the next boundary. -/
def voxKill (m : Half) (s : State) : State := { s with vox := { s.vox with kill := s.vox.kill ||| m } }

/-- VOX_KILL (R266). -/
def execVoxKill (m : Half) (s : State) : Host.Outcome State Fault Refusal := .next (voxKill m s)

end Sys2Proof.Machine
end

