-- ==== Sys2Proof/Machine/Vacate.lean ====
section
/-! DEFINITION. The vacate of a closing eyrie, and the end of a migration, for which it waits (R95, R101-R103, R264,
R323). -/

namespace Sys2Proof.Machine

/-- Eyrie `e` holds a voice that a vacate would move (R101). -/
def eyrieSounding (x : Vox) (e : Nat) : Bool :=
  (List.range 16).any fun i => (vget x.voice (16 * e + i) {}).renders

/-- The contributions that a voice ended by a vacate leaves on targets whose VACATE is HOLD (R323). -/
def Voice.heldBy (v : Voice) (e : Epoch) : List (SIdx × Half × Lvl) :=
  ((List.range 0x5000).filter fun t => validTarget t && !bit (targetEntry e t) 13).flatMap fun t =>
    (v.contribs t).map fun l => (v.sess, BitVec.ofNat 16 t, l)

/-- The voices of eyrie `e` that a vacate serves, in descending PREC of their session, then by index (R101). -/
def vacateSources (s : State) (e : Nat) : List VIdx :=
  (List.range 16).reverse.flatMap fun p => ((List.finRange 512).filter fun (i : VIdx) =>
    i.val / 16 == e && (vox s i).renders && precOf s (vox s i).sess == p)

/-- B1: free voices elsewhere are reserved, lowest index first (R101). -/
def vacateReserve (e : Nat) (s : State) : State :=
  let free := (List.finRange 512).filter fun (i : VIdx) => freeVoice s i && i.val / 16 != e
  { s with gate := { s.gate with resv := (vacateSources s e).zip free, b1Done := true } }

/-- B2: reserved places take over their sources; every other voice of the eyrie ends and is counted (R101, R102), and its
voices are ABSENT (Table 9.9). -/
def vacateMove (e : Nat) (s : State) : State :=
  let moves := s.gate.resv.filter fun r => (vox s r.1).renders
  let moved := moves.map (·.1.val)
  let lost := (List.finRange 512).filter fun (i : VIdx) => i.val / 16 == e && (vox s i).active && !moved.contains i.val
  let x0 := s.vox
  let x := moves.foldl (fun x r => x.mod r.2 fun _ => vget x0.voice r.1 {}) x0
  let s1 : State := { s with
    vox := eyrieOff e (mapEyrie e (fun v => if v.active then v.ended else v) x)
    mrg := { s.mrg with vac := s.mrg.vac ++ lost.flatMap fun (i : VIdx) => (vox s i).heldBy s.epoch }
    gate := { s.gate with lost := BitVec.ofNat 5 lost.length, phase := 3, resv := [], b1Done := false } }
  lost.foldl (fun t (i : VIdx) => match (vox s i).pend with | some p => countNovoice p.sess t | none => t) s1

/-- The vacate at a tick boundary. -/
def vacateTick (s : State) : State :=
  match s.gate.vacating with
  | some e => if s.gate.phase = 2 then (if s.gate.b1Done then vacateMove e s else vacateReserve e s) else s
  | none => s

/-- The epoch wait of a closing eyrie is over: it starts its vacate; with no voice to move, the vacate completes at once, as
its B2 does, and its gate closes (R95, R101, R102). -/
def beginVacate (e : Nat) (s : State) : State :=
  if eyrieSounding s.vox e then
    { s with gate := { s.gate with phase := 2, resv := [], b1Done := false, lost := 0 } }
  else vacateMove e { s with gate := { s.gate with resv := [], b1Done := false } }

/-- A closing eyrie that waits for a migration proceeds when none runs (R95). -/
def leaveEpochWait (s : State) : State :=
  match s.gate.vacating with
  | some e => if s.gate.phase = 1 && !s.epoch.mig then beginVacate e s else s
  | none => s

/-- The migration completes after step 31: CUR flips, NUM counts, EPOCH is raised, a waiting vacate proceeds and a held
commit is accepted (R95, R262, R264). -/
def migrationDone (s : State) : State :=
  if s.epoch.mig && s.epoch.stepNo == some 32 then
    acceptHeld (leaveEpochWait (raise .epoch
      { s with epoch := { s.epoch with cur := !s.epoch.cur, num := s.epoch.num + 1, mig := false, stepNo := none } }))
  else s

/-- EPOCH_MIGRATION_DONE (R264). -/
def execEpochMigrationDone (s : State) : Host.Outcome State Fault Refusal := .next (migrationDone s)

end Sys2Proof.Machine
end

