-- ==== Sys2Proof/Machine/Merge.lean ====
section
/-! DEFINITION. Merge (R316-R327): contributions, precedence and change stamps, holds, curves, derating, slew, and the
presentation of levels at a tick boundary. -/

namespace Sys2Proof.Machine

/-! ## Stream levels (R201, R317, R318) -/

/-- The key of a ring cell (R190). -/
abbrev CellKey := BitVec 40 × Bool × Nat

/-- A key as a number: frame, ring, index. -/
def keyRank (k : CellKey) : Nat := k.1.toNat * 131072 + k.2.1.toNat * 65536 + k.2.2 % 65536

/-- A stream level for a session that takes effect at tick boundary `tick`: refused for a FREE session (DROP) and outside
the ranges (OUTRANGE), else it goes to merge, where it waits while PD58 is ON (R201, R317). -/
def acceptLevel (n : SIdx) (target level : Nat) (key : Option CellKey) (tick : Nat) (s : State) : State :=
  let c := (sess s n).cur
  if c.state = .free then countDrop n s
  else if !inRanges c.ranges target then countOutrange n s
  else
    touch n (if pdOn s 58 then
      { s with mrg := { s.mrg with wait := s.mrg.wait ++
        [{ sess := n, target := BitVec.ofNat 16 target, level := BitVec.ofNat 16 level, key := key, tick := tick }] } }
    else s)

/-- Insert a level among those from cells in key order; levels without a key stay in the order they completed, after them
(R318). -/
def insertLevel (l : StreamLvl) : List StreamLvl → List StreamLvl
  | [] => [l]
  | x :: xs =>
    match l.key, x.key with
    | some a, some b => if keyRank a < keyRank b then l :: x :: xs else x :: insertLevel l xs
    | some _, none => l :: x :: xs
    | none, _ => x :: insertLevel l xs

/-- The level of a session for a target is the same as that of `l`. -/
def StreamLvl.same (l x : StreamLvl) : Bool := l.sess == x.sess && l.target == x.target

/-- Levels that take effect at boundary `b`, the `t`-th elapsed, then those that a range or a FREE session no longer admits go
(R318). Each is a contribution that its session gains, also where it replaces an older level (R323, log entry 91). -/
def applyLevels (b t : Nat) (s : State) : State :=
  let due := (s.mrg.wait.filter fun l => l.tick ≤ b).foldl (fun a l => insertLevel l a) []
  let lvls := due.foldl (fun ls l => ls.filter (fun x => !l.same x) ++ [{ l with tick := t }]) s.mrg.lvls
  let ok (l : StreamLvl) : Bool :=
    let c := (sess s l.sess).cur
    c.state != .free && inRanges c.ranges l.target.toNat
  { s with mrg := { s.mrg with
      wait := s.mrg.wait.filter fun l => b < l.tick
      lvls := lvls.filter ok
      vac := s.mrg.vac.filter fun c => !due.any fun l => l.sess == c.1 && l.target == c.2.1 } }

/-- A session's stream levels go and its ATO bit is set, which its next activity clears (R322). -/
def timeOut (n : Nat) (s : State) : State :=
  { s with
    mrg := { s.mrg with lvls := s.mrg.lvls.filter fun l => l.sess.val != n
                        wait := s.mrg.wait.filter fun l => l.sess.val != n
                        ato := setBit s.mrg.ato n true } }

/-- Sessions idle for ACTTMO at boundary `b` (R322). -/
def idleSessions (b : Nat) (s : State) : List Nat :=
  (List.range 16).filter fun n =>
    let x := sess s n
    x.cur.acttmo != 0 && !bit s.mrg.ato n && decide (x.active + x.cur.acttmo.toNat * 4800 ≤ b)

/-! ## The value of a target (R319-R321) -/

/-- u16 widened to u24 (R317). -/
def widen (v : Nat) : Nat := v * 256 + v / 256

/-- The combined value of contributions: the highest, or their clamped sum (R319). -/
def combine (sum : Bool) (ls : List Nat) : Nat :=
  if sum then min ls.sum 16777215 else ls.foldl max 0

/-- The combined value of contributions, none without any. -/
def combined (sum : Bool) (ls : List Nat) : Option Nat := if ls.isEmpty then none else some (combine sum ls)

/-- A session's value from the voice and vacate part and the stream level. -/
def sessionValue (sum : Bool) (rest lvl : Option Nat) : Option Nat := combined sum (rest.toList ++ lvl.toList)

/-- The contribution of a voice to a target: its session, its level, and whether this is the first tick it is presented. -/
structure VoiceContrib where
  sess : SIdx
  lvl : Nat
  first : Bool
  deriving DecidableEq, Repr

/-- The contributions of voices to a target. -/
def voiceContribs (x : Vox) (t tick : Nat) : List VoiceContrib :=
  x.voice.toList.flatMap fun v =>
    if v.inTick tick || v.state == .faulted then
      (v.contribs t).map fun l => { sess := v.sess, lvl := l.toNat, first := v.rendered == 1 }
    else []

/-- The change rank of a session whose value changes at a boundary (R321): by the key of the cell when the new level of a
ring cell alone accounts for the change, else after all of those, a lower-indexed session later. -/
def changeRank (n : SIdx) (byCell : Bool) (l : Option StreamLvl) : Nat :=
  match l.bind (·.key) with
  | some k => if byCell then keyRank k else 2 ^ 60 + (15 - n.val)
  | none => 2 ^ 60 + (15 - n.val)

/-- The stamp of session `n` for target `t` in tick `j`, with its value; none when it does not contribute
(R319, R321, R323). -/
def sessionStamp (m : Mrg) (vcs : List VoiceContrib) (sum : Bool) (n : SIdx) (t j : Nat) : Option Stamp :=
  let l := m.lvls.find? fun l => l.sess == n && l.target.toNat == t
  let vs := vcs.filter (·.sess == n)
  let old := m.stamps.find? fun p => p.sess == n && p.target.toNat == t
  let held := if vs.any (·.first) then [] else
    (m.vac.filter fun c => c.1 == n && c.2.1.toNat == t).map fun c => c.2.2.toNat
  let rest := combined sum (vs.map (·.lvl) ++ held)
  let lvl := l.map fun l => widen l.level.toNat
  (sessionValue sum rest lvl).map fun value =>
    let byCell := l.any (·.tick == j) && sessionValue sum (old.bind (·.rest)) lvl == some value
      && sessionValue sum rest (old.bind (·.lvl)) != some value
    let fresh : Stamp := { sess := n, target := BitVec.ofNat 16 t, value := BitVec.ofNat 24 value, tick := j
                           rank := changeRank n byCell l, rest := rest, lvl := lvl }
    match old with
    | some o => if o.value.toNat = value then { fresh with tick := o.tick, rank := o.rank } else fresh
    | none => fresh

/-- The later of two stamps (R321). -/
def laterStamp (a b : Stamp) : Stamp := if a.tick < b.tick ∨ (a.tick = b.tick ∧ a.rank < b.rank) then b else a

/-- The level and owner among contributing sessions (R320). -/
def choose (s : State) (ps : List Stamp) : Option (SIdx × Lvl) :=
  let top := ps.foldl (fun a p => max a (precOf s p.sess)) 0
  let ps := ps.filter fun p => precOf s p.sess == top
  match ps with
  | [] => none
  | p :: rest =>
    if ps.any fun p => (sess s p.sess).cur.ltp then let q := rest.foldl laterStamp p; some (q.sess, q.value)
    else
      let q := rest.foldl (fun a b => if a.value.toNat < b.value.toNat then b else a) p
      some (q.sess, q.value)

/-! ## Curves, derating, slew (R325-R327) -/

/-- The identity curve: p[i] = round(i * 65,535 / 1,023) (R325). -/
def identityPoint (k : Nat) : BitVec 16 := BitVec.ofInt 16 (nearDiv (k % 1024 * 65535 : Nat) 1023)

/-- Point `i` of curve `c` of a table set. -/
def TableSet.point (t : TableSet) (c i : Nat) : Nat := (cget identityPoint t.curves (1024 * c + i)).toNat

/-- The output of curve `c` for a u24 input (R325). -/
def TableSet.curve (t : TableSet) (c x : Nat) : Nat :=
  let n := x * 1023
  let i := n / 16777215
  let frac := n % 16777215 * 65536 / 16777215
  if i = 1023 then widen (t.point c 1023)
  else ((widen (t.point c i) : Int) + ((widen (t.point c (i + 1)) : Int) - widen (t.point c i)) * frac / 65536).toNat

/-- f of R326, in units of 2^-18. -/
def derateFactor (w : Word) (t : BitVec 9) : Int :=
  clampI (fld w 16 8 * 1024 : Nat) 262144 (262144 - (fld w 8 8 : Nat) * (t.toInt - (fld w 0 8 : Nat)) * 256)

/-- The first boundary after a temperature report (R326). -/
def Mrg.rederate (m : Mrg) : Mrg :=
  if m.newT then
    let f := derateFactor m.derate m.tdie
    { m with newT := false, fnow := f, factor := BitVec.ofInt 16 (openDiv 9 (f * 65535) 262144) }
  else m

/-- One tick of the slew limiter (R327). -/
def slewTo (rate prev x : Nat) : Nat :=
  if rate = 0 then x else if prev < x then min x (prev + rate * 256) else max x (prev - rate * 256)

/-! ## The missing-frame hold (R324) -/

/-- The longest HOLDT of any entry, in ticks. -/
def longestHold (e : Epoch) : Nat :=
  ((e.set0.ent.toList ++ e.set1.ent.toList).map fun w => fld w 0 7).foldl max 0 * 4800

/-- The shortest HOLDT of the active entries, in ticks: MACT is set when the first target acts (log entry 105). -/
def shortestHold (e : Epoch) : Nat := ((e.set e.cur).ent.toList.map fun w => fld w 0 7).foldl min 100 * 4800

/-- The hold starts, acts and ends at boundary `b` (R324). -/
def missTick (b : Nat) (s : State) : State :=
  let on := s.mode.code == .show && s.chn.freerun
  let m := s.mrg
  { s with mrg :=
      if !on then { m with mhold := false, mact := false }
      else if !m.mhold then { m with mhold := true, missTick := b, mact := shortestHold s.epoch = 0 }
      else { m with mact := m.mact || decide (m.missTick + shortestHold s.epoch ≤ (b : Int)) } }

/-- The level of a target at boundary `b` in the missing-frame hold: the full result, nothing (HOOD), or the crossfade to its
SOLO look (R324). -/
def heldLevel (m : Mrg) (entry : Word) (b : Nat) (full solo : Nat) : Option Nat :=
  let past : Int := (b : Int) - m.missTick - (fld entry 0 7 * 4800 : Nat)
  if !m.mhold ∨ past < 0 then some full
  else if !bit entry 12 then none
  else
    let fade : Int := (fld m.cfg 0 8 * 4800 : Nat)
    if fade ≤ past then some solo
    else some (openDiv 10 (full * (fade - past) + solo * past) fade).toNat

/-! ## Presentation (R29, R316) -/

/-- What merge presents for one target: its stamps, the output record, the level, and the slew state to keep. -/
structure Presented where
  stamps : List Stamp
  out : MrgOut
  slew : Lvl

/-- Merge of target `t` for tick `j`, presented at the boundary that ends it (R316, R319-R327). -/
def mergeTarget (s : State) (t j : Nat) : Presented :=
  let entry := targetEntry s.epoch t
  let vcs := voiceContribs s.vox t j
  let ps := (List.finRange 16).filterMap fun n => sessionStamp s.mrg vcs (bit entry 14) n t j
  let full := choose s ps
  let solo := choose s (ps.filter fun p => bit s.mrg.cfg (16 + p.sess.val))
  let lvl (o : Option (SIdx × Lvl)) : Nat := (o.map fun q => q.2.toNat).getD 0
  let owner : BitVec 4 := (full.map fun q => BitVec.ofNat 4 q.1).getD 0
  match heldLevel s.mrg entry (j + 1) (lvl full) (lvl solo) with
  | none => { stamps := ps, out := { none := full.isNone, owner := owner, out := 0 }, slew := 0 }
  | some x =>
    let y := (s.epoch.targetTable t).curve (fld entry 24 3) x
    let y := if t < 64 ∧ bit s.mrg.derate 31 then (openDiv 11 (y * s.mrg.fnow) 262144).toNat else y
    let y := if t < 64 then slewTo (fld entry 16 8) (vget s.mrg.slew t 0).toNat y else y
    { stamps := ps, out := { none := full.isNone, owner := owner, out := BitVec.ofNat 24 y }, slew := BitVec.ofNat 24 y }

/-- The pixel component targets. -/
def pixelTargets : List Nat := (List.range 16384).map (0x1000 + ·)

/-- Block levels at a presentation: emitters, analog outputs and pixel components (R85, R100, R316). -/
def presentBlocks (em ao : List MrgOut) (px : List (Nat × MrgOut)) (s : State) : State :=
  { s with
    emt := if pdOn s 59 then
        { preTick := s.chn.ticks + 1
          fl := s.emt.fl.mapIdx fun f (l : Flight) => { l with ch := l.ch.mapIdx fun i (c : EmtCh) =>
            { c with preOld := c.pre
                     pre := BitVec.ofNat 20 ((em.getD (16 * f + i) {}).out.toNat / 16) } } }
      else s.emt
    aou := if enabled s 1 && pdOn s 61 then
        { s.aou with ch := s.aou.ch.mapIdx fun i (c : AouCh) =>
            let d : Half := BitVec.ofNat 16 ((ao.getD i {}).out.toNat / 256)
            { c with merge := d, next := if c.mode = 0 then some d else c.next } }
      else s.aou
    pix := if enabled s 2 && pdOn s 62 then
        { s.pix with lvl := px.foldl (fun c p => cput zeroCell c p.1 (if p.2.none then 0 else p.2.out)) s.pix.lvl }
      else s.pix }

/-- Merge presents tick `j` (R316): while PD58 is not ON its consumers keep their last levels (R100). -/
def present (j : Nat) (s : State) : State :=
  if !pdOn s 58 then s
  else
    let s := { s with mrg := s.mrg.rederate }
    let main := (List.range 80).map fun t => mergeTarget s t j
    let px := pixelTargets.map fun t => (t, mergeTarget s t j)
    let stamps := main.flatMap (·.stamps) ++ px.flatMap (·.2.stamps)
    let gone (c : SIdx × Half × Lvl) : Bool := (voiceContribs s.vox c.2.1.toNat j).any fun v => v.sess == c.1 && v.first
    presentBlocks ((main.take 64).map (·.out)) ((main.drop 64).map (·.out)) (px.map fun p => (p.1, p.2.out))
      { s with mrg := { s.mrg with
          stamps := stamps
          vac := s.mrg.vac.filter fun c => !gone c
          out := Vector.ofFn fun e => ((main.map (·.out)).getD e.val {})
          slew := Vector.ofFn fun e => ((main.map (·.slew)).getD e.val 0)
          px := (px.map fun p => (p.1, p.2.out.out)).filter fun c => c.2 != 0 } }

/-! ## The commands -/

/-- The session of an MRG_LVL write (Table 13.1); a debug write counts as the host's (log entry 22). -/
def levelSession (s : State) : Requester → SIdx
  | .kestrel k => ⟨(vget s.kst.core k {}).sess.toNat, (vget s.kst.core k {}).sess.isLt⟩
  | _ => 0

/-- A write of MRG_LVL (R317), which is activity of its session whatever becomes of the level (R322). -/
def writeLevel (r : Requester) (v : Word) (s : State) : State :=
  acceptLevel (levelSession s r) (fld v 16 16) (fld v 0 16) none 0 (touch (levelSession s r) s)

/-- STREAM_LEVEL_WRITE (R317): while PD58 is not ON the write ends ABSENT. -/
def execStreamLevelWrite (r : Requester) (v : Word) (s : State) : Host.Outcome State Fault Refusal :=
  .next (if pdOn s 58 then writeLevel r v s else s)

/-- ACTIVITY_TIMEOUT (R322). -/
def execActivityTimeout (n : SIdx) (s : State) : Host.Outcome State Fault Refusal :=
  .next (if (sess s n).cur.acttmo != 0 then timeOut n s else s)

/-- MISS_HOLD_EXPIRY (R324): the hold of every target has run out. -/
def execMissHoldExpiry (s : State) : Host.Outcome State Fault Refusal :=
  .next (s.setMrg (if s.mrg.mhold then
      { s.mrg with mact := true, missTick := min s.mrg.missTick ((s.chn.ticks : Int) - longestHold s.epoch) }
    else s.mrg))

/-- MISS_FADE_END (R324): the fade to the SOLO look is over. -/
def execMissFadeEnd (s : State) : Host.Outcome State Fault Refusal :=
  .next (s.setMrg (if s.mrg.mhold && s.mrg.mact then
      { s.mrg with
        missTick := min s.mrg.missTick ((s.chn.ticks : Int) - longestHold s.epoch - (fld s.mrg.cfg 0 8 * 4800 : Nat)) }
    else s.mrg))

/-- TEMP_REPORT (R326): the D-die reports its junction temperature over DLINK. -/
def execTempReport (t : BitVec 9) (s : State) : Host.Outcome State Fault Refusal :=
  .next (if s.sys.dlink && pdOn s 58 then { s with mrg := { s.mrg with tdie := t, newT := true } } else s)

end Sys2Proof.Machine
end

