-- ==== Sys2Proof/Machine/Flags.lean ====
section
/-! DEFINITION. What hoods an output, and the hood mirrors of the host bus (R32, R137, R141, R334, R337-R342, R353, R355,
R359, R408, R417, R432). -/

namespace Sys2Proof.Machine

/-! ## Hood sources -/

/-- A restored look keeps the MODE hood off the outputs (R32, R408), but not once a save has captured it, nor in DORMANT, whose
outputs are hooded (Table 2.1). -/
def lookShows (s : State) : Bool :=
  s.ros.look && match s.mode.code with
    | .roost => !s.mode.captured
    | .dormant => false
    | _ => true

/-- The MODE source: the mode's hood, which a restored look lifts, and the restore hood (R32, R407, R408). -/
def modeSource (s : State) : Bool := (s.drv.modeHood && !lookShows s) || s.ros.rhood

/-- A boundary-scan test instruction is active (R432). -/
def JtagIr.testing : JtagIr → Bool
  | .idcode | .bypass | .kdebug => false
  | _ => true

/-- The sources that hood every emitter and every analog output alike: MODE, LINK, OWL, CLK, HOST.ALL and JTAG. -/
def commonHood (s : State) : Bool :=
  modeSource s || s.drv.lhood || s.owl.hooded || s.ckp.hood || bit s.host.hood 0 || s.jtag.ir.testing

/-- First channel and size of the gang that holds channel `i` of a flight (R334). -/
def gangOf (g : Word) (i : Nat) : Nat × Nat :=
  if bit g (16 + i / 8) then (i / 8 * 8, 8)
  else if bit g (8 + i / 4) then (i / 4 * 4, 4)
  else if bit g (i / 2) then (i / 2 * 2, 2)
  else (i, 1)

/-- The gang of emitter `n`, as first emitter and size. -/
def emGang (s : State) (n : Nat) : Nat × Nat :=
  let (f, k) := gangOf (vget s.emt.fl (n / 16) {}).actGang (n % 16)
  (n / 16 * 16 + f, k)

/-- The D-die state of emitter `n`. -/
def drvEm (s : State) (n : Nat) : DrvEm := vget s.drv.em n {}

/-- Emitter `n` is a scanned tie that is neither acknowledged nor ganged with its partner (R340). -/
def tieOpen (s : State) (n : Nat) : Bool :=
  let e := drvEm s n
  let (f, k) := emGang s n
  e.valid && e.scan == 3 && !bit s.drv.tieack n && !(f ≤ e.tiep.toNat && e.tiep.toNat < f + k)

/-- A reaction of some emitter of the gang of `n` hoods `n` (R334, R337, R338). -/
def gangFault (s : State) (n : Nat) : Bool :=
  let (f, k) := emGang s n
  (List.range k).any fun i => let e := drvEm s (f + i); e.shortHood == some 1 || e.scanHood || e.openHood

/-- A reaction FLIGHT or ALL reaches emitter `n` (Table 13.2). -/
def wideFault (s : State) (n : Nat) : Bool :=
  (List.range 64).any fun m =>
    let h := (drvEm s m).shortHood
    h == some 3 || (h == some 2 && m / 16 == n / 16)

/-- The flight of emitter `n` is hooded by a run-time tie (R341). -/
def flightTie (s : State) (n : Nat) : Bool := (List.range 16).any fun i => (drvEm s (n / 16 * 16 + i)).rtieHood

/-- Emitter `n` is hooded on the D-die (R141, Table 13.7, HOODED). -/
def emHood (s : State) (n : Nat) : Bool :=
  commonHood s || bit s.host.hood (4 + n / 16) || !s.drv.scanDone || s.drv.scanBusy || tieOpen s n || flightTie s n
    || gangFault s n || wideFault s n

/-- A reaction ALL is in force (Table 13.2). -/
def allFault (s : State) : Bool := (List.range 64).any fun m => (drvEm s m).shortHood == some 3

/-- ISO of analog output `n` (R355, R417). -/
def aoIso (s : State) (n : Nat) : Bool := (vget s.drv.ao n {}).iso || s.drv.vaoLow

/-- Analog output `n` is hooded (R352, R353). -/
def aoHood (s : State) (n : Nat) : Bool :=
  commonHood s || bit s.host.hood 8 || allFault s || aoIso s n || (vget s.drv.ao n {}).change

/-- Pixel ports are hooded (R359). -/
def pixHood (s : State) : Bool := modeSource s || s.ckp.hood || s.owl.hooded || bit s.host.hood 0

/-! ## Mirrors (R141) -/

/-- HB_HOODST as the D-die state stands (Table 5.16). -/
def hoodSources (s : State) : BitVec 7 :=
  let ns := List.range 64
  let fault := ns.any (fun n => let e := drvEm s n; (e.shortHood.any (· != 0)) || e.scanHood || e.openHood)
    || (List.range 16).any (aoIso s)
  let scan := !s.drv.scanDone || s.drv.scanBusy || ns.any (fun n => tieOpen s n || (drvEm s n).rtieHood)
  BitVec.ofNat 7 (fault.toNat * 64 + scan.toNat * 32 + s.ckp.hood.toNat * 16 + s.owl.hooded.toNat * 8
    + s.drv.lhood.toNat * 4 + (modeSource s).toNat * 2 + (s.host.hood != 0).toNat)

/-- HB_AOHOOD as the D-die state stands. -/
def aoHoodBits (s : State) : Half := BitVec.ofNat 16 (((List.range 16).map fun n => (aoHood s n).toNat * 2 ^ n).sum)

/-- HB_FLHOOD: PART 7:4 and FULL 3:0. -/
def flHoodBits (s : State) : Byte :=
  BitVec.ofNat 8 (((List.range 4).map fun f =>
    let hs := (List.range 16).map fun i => emHood s (16 * f + i)
    if hs.all id then 2 ^ f else if hs.any id then 2 ^ (f + 4) else 0).sum)

/-- The host's mirrors take the D-die state as a DLINK frame reports it (R141). -/
def mirror (s : State) : State :=
  { s with host := { s.host with hoodst := hoodSources s, aohood := aoHoodBits s, flhood := flHoodBits s } }

/-! ## Pins that follow from the state (R16, R17, R332, R350) -/

/-- Gate line of channel `i` of flight `f` at cycle `c` of its period (R332, R334). -/
def gateHigh (s : State) (f i c : Nat) : Bool :=
  let l := vget s.emt.fl f {}
  let p := fld l.actCfg 0 16
  let lead := (gangOf l.actGang i).1
  let ch := vget l.ch lead {}
  pdOn s 59 && bit l.actEn lead && decide ((c + p - ch.eff.toNat % p) % p < ch.width)

/-- Sink EMn conducts: its gate is high and it is not hooded (R16). -/
def sinkOn (s : State) (n c : Nat) : Bool := gateHigh s (n / 16) (n % 16) c && !emHood s n

/-- The four bits of `k` in reverse order (R330). -/
def bitrev4 (k : Nat) : Nat := k % 2 * 8 + k / 2 % 2 * 4 + k / 4 % 2 * 2 + k / 8 % 2

/-- AO bit line `n` at PWM cycle `c` of the AO period (R350). -/
def aoBitHigh (s : State) (n c : Nat) : Bool :=
  let d := (vget s.aou.ch n {}).code.toNat
  pdOn s 61 && decide (c < if bitrev4 s.aou.q < d % 16 then d / 16 + 1 else d / 16)

/-- What the stage of AOn drives, as the filter settles (R350-R355, R417): nothing while it is isolated, else a voltage in mV,
or with `true` a current that the pin sinks in uA. A hooded output and one whose PD61 is not ON drive 0. -/
def aoPin (s : State) (n : Nat) : Option (Bool × Rat) :=
  let a := vget s.drv.ao n {}
  let d : Rat := if aoHood s n || !pdOn s 61 then 0 else (((vget s.aou.ch n {}).code.toNat : Nat) : Rat) / 65536
  if aoIso s n then none
  else if bit a.cfg 31 then some (true, 24000 * d)
  else some (false, (if bit a.cfg 30 then 10000 else 10500) * d)

/-- Pin GTn as timer `n` drives it: low while PD60 is not ON, else its flip-flop while OUTEN = 1, and nothing where the pin is
an input (R87, R100, R380). -/
def gtPin (s : State) (n : Nat) : Option Bool :=
  let t := vget s.gpt.t n {}
  if !pdOn s 60 then some false else if bit t.cfg 7 then some t.out else none

end Sys2Proof.Machine
end

