-- ==== Sys2Proof/Machine/Emitters.lean ====
section
/-! DEFINITION. The emitter timer array, the D-die sinks and DLINK (R18, R19, R108, R109, R328-R342). -/

namespace Sys2Proof.Machine

/-! ## One period of a flight (R328-R334) -/

/-- Divisors of 50,000 from 16 to 50,000 (R328). -/
def periodDivisors : List Nat :=
  [16, 20, 25, 40, 50, 80, 100, 125, 200, 250, 400, 500, 625, 1000, 1250, 2000, 2500, 3125, 5000, 6250, 10000, 12500,
   25000, 50000]

/-- A write of EMT_FCFGf (R328): the period is made legal for the FLOCK written. -/
def legalFcfg (v : Word) : Word :=
  let lock := bit v 31
  let p := if lock then nearest (fld v 0 16) periodDivisors else clampN 16 65535 (fld v 0 16)
  BitVec.ofNat 32 (lock.toNat * 2147483648 + (bit v 30).toNat * 1073741824 + p)

/-- PERIOD of a configuration word. -/
def fcfgPeriod (w : Word) : Nat := fld w 0 16

/-- The pulse width of a level in period count `k` (R330). -/
def pulseWidth (l p k : Nat) : Nat :=
  let l1 := l + l / 524288
  let total := l1 * p / 65536
  if bitrev4 (k % 16) < total % 16 then total / 16 + 1 else total / 16

/-- The enabled units of a flight in ascending channel index, each gang once at its leader (R333). -/
def unitLeaders (en : Half) (gang : Word) : List Nat :=
  (List.range 16).filter fun i => (gangOf gang i).1 == i && bit en i

/-- Offset `m * p / n` rounded to the nearest, ties to the lower (R333). -/
def staggered (m p n : Nat) : Nat := (2 * m * p + n - 1) / (2 * n)

/-- The offset of the channel led by `lead` (R333): a channel that is not enabled has none and reads 0
(log entry 103). -/
def offsetOf (l : Flight) (lead : Nat) : Nat :=
  if bit l.actCfg 30 then
    let us := unitLeaders l.actEn l.actGang
    match us.findIdx? (· == lead) with
    | some m => staggered m (fcfgPeriod l.actCfg) us.length
    | none => 0
  else (vget l.ch lead {}).ofs.toNat

/-- The pulse of one channel in a period: accumulator, width sent and whether it was skipped (R331). -/
def pulse (a w : Nat) : Nat × Nat × Bool :=
  if w = 0 ∨ 8 ≤ w then (0, w, false)
  else if 8 ≤ a + w then (a + w - 8, 8, false)
  else (a + w, 0, true)

/-- The flight's copies of its preloads at a wrap (R329): STAG, offsets, enables and gangs at every wrap, PERIOD and FLOCK
here only when the written FLOCK is 0. -/
def Flight.copyPreloads (l : Flight) : Flight :=
  { l with
    actEn := l.en, actGang := l.gang
    actCfg := if bit l.fcfg 31 then setBit l.actCfg 30 (bit l.fcfg 30) else l.fcfg }

/-- A period begins: `k` is its count, `level i` the level loaded by channel `i` (R330-R334). A channel's enable gates its line
only (R332). -/
def Flight.begin (l : Flight) (k : Nat) (level : Nat → BitVec 20) : Flight :=
  let l := { l with ch := l.ch.mapIdx fun i (c : EmtCh) => { c with level := level i } }
  let p := fcfgPeriod l.actCfg
  let one (i : Nat) (c : EmtCh) : EmtCh × Bool :=
    let lead := (gangOf l.actGang i).1
    let ll := (vget l.ch lead {}).level
    let (a, w, skip) := pulse (vget l.ch lead {}).acc (pulseWidth ll.toNat p k)
    ({ c with level := ll, eff := BitVec.ofNat 16 (offsetOf l lead), acc := a, width := w }, skip)
  { l with
    ch := l.ch.mapIdx fun i (c : EmtCh) => (one i c).1
    skip := BitVec.ofNat 16 (((List.range 16).map fun i => (one i (vget l.ch i {})).2.toNat * 2 ^ i).sum) }

/-- PWM cycles from the latest tick boundary to the wrap of a frame-locked flight (R29). -/
def wrapMargin (s : State) (l : Flight) : Int :=
  (frameOf s.chn.ctime * 50000 + l.frameIdx * fcfgPeriod l.actCfg : Nat)
    - (s.chn.tick / 6 * 50000 + tickCycle (s.chn.tick % 6) : Nat)

/-- A wrap loads the level presented last when it lies at least 800 cycles after that presentation: always when a later
boundary has passed. Where a free-running counter stands is not in the state, so between the presentation and the next
boundary its first loading is a free value (log entry 8). -/
def loadsNew (s : State) (l : Flight) : Bool :=
  decide (s.emt.preTick < s.chn.ticks) ||
    if bit l.actCfg 31 then 800 ≤ wrapMargin s l else l.took == s.emt.preTick || bit (Config.freeWord s.free) 0

/-- The level that a channel loads at a wrap: the saved look while it shows (R408), else a presented one (R29). -/
def loadLevel (s : State) (f : Nat) (new : Bool) (i : Nat) : BitVec 20 :=
  if s.ros.look then vget s.ros.saved.emlvl (16 * f + i) 0
  else let c := vget (vget s.emt.fl f {}).ch i {}; if new then c.pre else c.preOld

/-- A wrap of flight `f` (R328-R334). -/
def emtWrap (f : Nat) (s : State) : State :=
  let l := (vget s.emt.fl f {}).copyPreloads
  let lock := bit l.actCfg 31
  let k := if lock then frameOf s.chn.ctime * (50000 / fcfgPeriod l.actCfg) + l.frameIdx else l.wraps + 1
  let new := loadsNew s l
  let l' := l.begin k (loadLevel s f new)
  let l' := { l' with wraps := l.wraps + 1, frameIdx := l.frameIdx + 1, took := if new then s.emt.preTick else l.took }
  { s with
    emt := { s.emt with fl := s.emt.fl.setIfInBounds f l' }
    free := if lock then s.free else s.free + 1 }

/-- Frame-locked flights at a frame start: a written PERIOD or FLOCK takes effect and the counter is at 0 (R328, R329). -/
def emtFrame (s : State) : State :=
  if pdOn s 59 && islandUp s 4 then
    let fl := s.emt.fl.map fun (l : Flight) =>
      { l with actCfg := if bit l.fcfg 31 then setBit l.fcfg 30 (bit l.actCfg 30) else l.actCfg, frameIdx := 0 }
    { s with emt := { s.emt with fl := fl } }
  else s

/-- EMT_WRAP (R329): frozen in ROOST (Table 16.8). -/
def execEmtWrap (f : Fin 4) (s : State) : Host.Outcome State Fault Refusal :=
  .next (if pdOn s 59 && islandUp s 4 && !(s.mode.code == .roost) then emtWrap f s else s)

/-! ## DLINK (R18, R19, R108, R109, R337, R342) -/

/-- The cause of a report (R337, R341, R354). -/
def raiseReport (r : DrvReport) (s : State) : State :=
  match r with
  | .fault n => raiseD .emfault n s
  | .tie n => raiseD .tie n s
  | .analog n => raiseD .aofault n s

/-- A D-die frame delivers the waiting reports and the hood state (R141, R337). -/
def deliver (s : State) : State :=
  mirror (s.drv.reports.foldl (fun s r => raiseReport r s) { s with drv := { s.drv with reports := [] } })

/-- DLINK traffic passes its check: the first of it after a D-die reset ends the hood that the reset left (R109, R342,
log entry 23). -/
def linkTraffic (s : State) : State :=
  deliver { s with sys := { s.sys with dlink := true }
                   drv := { s.drv with lhood := s.drv.lhood && s.drv.linkloss } }

/-- DLINK_KEEPALIVE (R19). -/
def execDlinkKeepalive (s : State) : Host.Outcome State Fault Refusal := .next (if pd1Up s then linkTraffic s else s)

/-- DLINK_LOSS (R108): outputs hooded and the flag set on the D-die; the master raises DLINK (Table 5.4). -/
def execDlinkLoss (s : State) : Host.Outcome State Fault Refusal :=
  let s1 : State := { s with
    drv := { s.drv with linkloss := true, lhood := true }, sys := { s.sys with dlink := false } }
  .next (if pd1Up s then
    raise .dlink { s1 with host := { s1.host with hoodst := setBit s1.host.hoodst 2 true } }
  else s1)

/-- DLINK_RESUME (R109): the outputs stay hooded and DLINK is raised (Table 5.4). -/
def execDlinkResume (s : State) : Host.Outcome State Fault Refusal :=
  .next (if pd1Up s then (if s.sys.dlink then s else raise .dlink (linkTraffic s)) else s)

/-- DLINK_REPORT (R337). -/
def execDlinkReport (s : State) : Host.Outcome State Fault Refusal :=
  .next (if pd1Up s && s.sys.dlink then deliver s else s)

/-- A write of DRV_HOOD.REL = 1 (R342): without recent traffic it has no effect. -/
def linkHoodRelease (s : State) : State :=
  if s.sys.dlink then { s with drv := { s.drv with linkloss := false, lhood := false } } else s

/-- LINK_HOOD_RELEASE (R342). -/
def execLinkHoodRelease (s : State) : Host.Outcome State Fault Refusal := .next (linkHoodRelease s)

/-! ## Emitter faults (R336-R338, R341) -/

/-- Change the D-die state of emitter `n`. -/
def modEm (n : Nat) (f : DrvEm → DrvEm) (s : State) : State :=
  { s with drv := { s.drv with em := vmod s.drv.em n f } }

/-- A report waits for the next DLINK frame. -/
def report (r : DrvReport) (s : State) : State := { s with drv := { s.drv with reports := s.drv.reports ++ [r] } }

/-- The emitter whose DRV_EM settings act for `n`: its gang's leader (R334). -/
def leaderOf (s : State) (n : Nat) : Nat := (emGang s n).1

/-- The short of emitter `n` trips (R337): the flag is that of the member of a gang that tripped (log entry 104). -/
def shortTrip (n : Fin 64) (s : State) : State :=
  let cfg := (drvEm s (leaderOf s n)).cfg
  report (.fault n) (modEm n (fun e =>
    { e with short := true, fcnt := satInc e.fcnt, shortHood := some (BitVec.ofNat 2 (fld cfg 28 2))
             latched := !bit cfg 30 }) s)

/-- SHORT_TRIP (R337). -/
def execShortTrip (n : Fin 64) (s : State) : Host.Outcome State Fault Refusal := .next (shortTrip n s)

/-- OPEN_TRIP (R338): a channel with ISET = 0 is not checked. -/
def execOpenTrip (n : Fin 64) (s : State) : Host.Outcome State Fault Refusal :=
  let cfg := (drvEm s (leaderOf s n)).cfg
  .next (if fld cfg 0 8 = 0 then s
    else report (.fault n) (modEm n (fun e =>
      { e with open_ := true, fcnt := satInc e.fcnt, openHood := e.openHood || bit cfg 31 }) s))

/-- HICCUP_EXPIRY (R337): the hood of a trip with RETRY = 1 lifts, SHORT stays. -/
def execHiccupExpiry (n : Fin 64) (s : State) : Host.Outcome State Fault Refusal :=
  .next (modEm n (fun e => if e.latched then e else { e with shortHood := none }) s)

/-- Writing 1 to SHORT (R337). -/
def shortClear (n : Nat) (s : State) : State := modEm n (fun e => { e with short := false, shortHood := none, scanHood := false }) s
/-- Writing 1 to OPEN (R338). -/
def openClear (n : Nat) (s : State) : State := modEm n (fun e => { e with open_ := false, openHood := false }) s

/-- A DRV access completes: the link carries it (R18). -/
def drvLink (s : State) : Bool := pd1Up s && s.sys.dlink

/-- SHORT_CLEAR (R337). -/
def execShortClear (n : Fin 64) (s : State) : Host.Outcome State Fault Refusal :=
  .next (if drvLink s then shortClear n s else s)

/-- OPEN_CLEAR (R338). -/
def execOpenClear (n : Fin 64) (s : State) : Host.Outcome State Fault Refusal :=
  .next (if drvLink s then openClear n s else s)

/-- RUNTIME_TIE (R341): watched while VFIELD is present, on a channel whose last scan is not OPEN. -/
def execRuntimeTie (n : Fin 64) (s : State) : Host.Outcome State Fault Refusal :=
  let e := drvEm s n
  .next (if s.pins.vfield && !(e.valid && e.scan == 1) && !emHood s n then
    report (.tie n) (modEm n (fun e => { e with rtie := true, fcnt := satInc e.fcnt, rtieHood := true }) s)
  else s)

/-- A write of a TIEACK word (R341): the bits are set and the run-time tie hoods of their channels lift. -/
def tieAck (hi : Bool) (m : Word) (s : State) : State :=
  let mask : Quad := if hi then m.setWidth 64 <<< 32 else m.setWidth 64
  { s with drv := { s.drv with
      tieack := s.drv.tieack ||| mask
      em := s.drv.em.mapIdx fun n (e : DrvEm) => if bit mask n then { e with rtieHood := false } else e } }

/-- TIE_ACK (R341). -/
def execTieAck (hi : Bool) (m : Word) (s : State) : Host.Outcome State Fault Refusal :=
  .next (if drvLink s then tieAck hi m s else s)

/-! ## The wiring scan (R339, R340) -/

/-- A scan starts on the D-die, or is skipped when VFIELD is low. -/
def beginScan (s : State) : State :=
  if s.pins.vfield then
    { s with drv := { s.drv with scanBusy := true, scanSkip := false, scanPos := 0, scanRes := [] } }
  else { s with drv := { s.drv with scanSkip := true } }

/-- A write of DRV_SCAN.GO = 1 (R339): ignored outside SERVICE, and while a scan runs (log entry 104). -/
def scanStart (s : State) : State := if s.mode.code == .service && !s.drv.scanBusy then beginScan s else s

/-- SCAN_START (R339). -/
def execScanStart (s : State) : Host.Outcome State Fault Refusal := .next (if drvLink s then scanStart s else s)

/-- The class of channel `n` from its samples (Table 13.4): the code and the tie partner. -/
def classifyScan (shth n : Nat) (m : ScanMeas) : BitVec 2 × BitVec 6 :=
  let v1 (i : Nat) : Nat := vget m.v1 i 0
  let tie := (List.range 64).find? fun i =>
    i != n && decide (dist (v1 i) (v1 n) ≤ 200) && decide (v1 i + 1000 ≤ vget m.v0 i 0)
  if m.i < 1200 then (1, 0)
  else if shth * 500 ≤ v1 n then (2, 0)
  else match tie with
    | some i => (3, BitVec.ofNat 6 i)
    | none => (0, 0)

/-- SCAN_CHANNEL (R339): the slot of the next channel ends; SHTH is that of its gang's leader (R334). -/
def execScanChannel (m : ScanMeas) (s : State) : Host.Outcome State Fault Refusal :=
  let d := s.drv
  .next (if d.scanBusy && decide (d.scanPos < 64) then
    { s with drv := { d with
        scanRes := d.scanRes ++ [classifyScan (fld (drvEm s (leaderOf s d.scanPos)).cfg 16 6) d.scanPos m], scanPos := d.scanPos + 1 } }
  else s)

/-- The results of a scan on one channel (R340). -/
def DrvEm.scanned (e : DrvEm) (r : BitVec 2 × BitVec 6) : DrvEm :=
  { e with
    scan := r.1, tiep := r.2, valid := true, rtie := false, rtieHood := false
    short := e.short || r.1 == 2, scanHood := e.scanHood || r.1 == 2, open_ := e.open_ || r.1 == 1 }

/-- The scan completes (R340): the reports of ties and faults go out with the next DLINK frame (log entry 104). -/
def scanComplete (s : State) : State :=
  let d := s.drv
  let rep := (List.finRange 64).filterMap fun (n : Fin 64) =>
    match (d.scanRes.getD n (0, 0)).1.toNat with
    | 2 => some (DrvReport.fault n)
    | 3 => some (DrvReport.tie n)
    | _ => none
  { s with drv := { d with
      em := d.em.mapIdx fun n (e : DrvEm) => e.scanned (d.scanRes.getD n (0, 0))
      tieack := 0, scanBusy := false, scanDone := true, scanRes := [], scanPos := 0, reports := d.reports ++ rep } }

end Sys2Proof.Machine
end

