-- ==== Sys2Proof/Machine/Analog.lean ====
section
/-! DEFINITION. Analog outputs (R343-R355, R417) and pixel ports (R356-R361). -/

namespace Sys2Proof.Machine

/-- Change analog channel `n`. -/
def Aou.mod (a : Aou) (n : Nat) (f : AouCh → AouCh) : Aou := { a with ch := vmod a.ch n f }

/-- AOU works: the peripheral is enabled and PD61 is ON. -/
def aouOn (s : State) : Bool := enabled s 1 && pdOn s 61

/-- AOU works: its island is clocked too (R68, R76), and it is not frozen by ROOST (Table 16.8). -/
def aouRuns (s : State) : Bool := aouOn s && islandUp s 4 && !(s.mode.code == .roost)

/-! ## The sine generator (R348) -/

/-- The table after power-up: T[i] = round(65,535 x sin(pi/2 x (i + 0.5) / 1,024)). -/
def quarterSine (i : Nat) : BitVec 16 :=
  BitVec.ofInt 16 (roundAt 12 (65535 * sinTurn ((2 * (i % 1024 : Nat) + 1 : Nat) / 8192)))

/-- The table value for phase `phi`, signed. -/
def Aou.sine (a : Aou) (phi : Word) : Int :=
  let i := phi.toNat / 1048576 % 1024
  let t (k : Nat) : Int := ((cget quarterSine a.table k).toNat : Int)
  match phi.toNat / 1073741824 with
  | 0 => t i
  | 1 => t (1023 - i)
  | 2 => -(t i)
  | _ => -(t (1023 - i))

/-- The target code of a SINE channel (R348). -/
def Aou.sineCode (a : Aou) (c : AouCh) : Half :=
  BitVec.ofInt 16 (clampI 0 65535 ((fld c.ampOfs 0 16 : Nat) + (fld c.ampOfs 16 16 : Nat) * a.sine c.phase / 65536))

/-! ## The AO period (R344, R349) -/

/-- The code after one step toward the target by at most `step` (R349). -/
def stepToward (code target step : Nat) : Nat := if code < target then min target (code + step) else max target (code - step)

/-- The slew limiter at a period boundary (R349). -/
def AouCh.limit (c : AouCh) : AouCh :=
  let step := fld c.cfg 16 16
  let since := min 256 (c.since + 1)
  if step = 0 then { c with code := c.target, since := since }
  else if c.code = c.target ∨ since < fld c.cfg 8 8 + 1 then { c with since := since }
  else { c with code := BitVec.ofNat 16 (stepToward c.code.toNat c.target.toNat step), since := 0 }

/-- A channel that takes a new MODE at this boundary keeps its code from now on, until that mode produces a target code; SINE
does so at once (R344). -/
def AouCh.newMode (old : BitVec 2) (c : AouCh) : AouCh := if c.mode = old ∨ c.mode = 3 then c else { c with target := c.code }

/-- A channel at a period boundary: the target that has arisen, MODE, the sine value, which is the target of the boundary that
computes it (log entry 102), then the limiter (R344, R348, R349); `look` is the saved code that a restored look gives it
(R408). -/
def AouCh.period (a : Aou) (look : Option Half) (c : AouCh) : AouCh :=
  let m := BitVec.ofNat 2 (fld c.cfg 0 2)
  let keep := if m = c.mode then c.target else c.code
  let d := { c with target := c.next.getD keep, next := none, mode := m
                    phase := if m = 3 ∧ c.mode ≠ 3 then c.ph0 else c.phase }
  let d := if m = 3 then { d with target := a.sineCode d, phase := d.phase + d.inc } else d
  match look with
  | some v => ({ d with target := v }).limit
  | none => d.limit.newMode c.mode

/-- The saved code of a USED output while the look shows (R408). -/
def lookCode (s : State) (n : Nat) : Option Half :=
  if s.ros.look && bit s.ros.saved.used n then some (vget s.ros.saved.aocode n 0) else none

/-- AO_PERIOD (R344). -/
def execAoPeriod (s : State) : Host.Outcome State Fault Refusal :=
  .next (if aouRuns s then
    { s with aou := { s.aou with
        q := (s.aou.q + 1) % 16, ch := s.aou.ch.mapIdx fun n (c : AouCh) => c.period s.aou (lookCode s n) } }
  else s)

/-! ## The sample queue (R345) -/

/-- A write of AOU_QWRn.VALUE (R345): discarded with OVER on a full FIFO. -/
def Aou.queueWrite (a : Aou) (n : Nat) (v : Half) : Aou :=
  if 32 ≤ (vget a.ch n {}).fifo.length then { a with ovr := setBit a.ovr n true }
  else a.mod n fun c => { c with fifo := c.fifo ++ [v] }

/-- A write of AOU_QWRn.CLR = 1 (R345). -/
def Aou.queueClear (a : Aou) (n : Nat) : Aou := a.mod n fun c => { c with fifo := [] }

/-- A QUEUE channel takes an entry at a firing (R345). -/
def AouCh.take (c : AouCh) : AouCh :=
  match c.fifo with
  | x :: xs => { c with fifo := xs, next := some x }
  | [] => c

/-- The sample clock fires at tick boundary `b`, whose frame count is one of 40 bits (R345). -/
def queueFire (b : Nat) (s : State) : State :=
  if aouRuns s && b % (6 * 2 ^ 40) % s.aou.qdiv.toNat == 0 then
    let under := ((List.range 16).map fun n =>
      let c := vget s.aou.ch n {}
      (c.mode == 1 && c.fifo.isEmpty).toNat * 2 ^ n).sum
    { s with aou := { s.aou with
        ch := s.aou.ch.map fun c => if c.mode = 1 then c.take else c, under := s.aou.under ||| BitVec.ofNat 16 under } }
  else s

/-- AO_QUEUE_WRITE (R345). -/
def execAoQueueWrite (n : Fin 16) (v : Half) (s : State) : Host.Outcome State Fault Refusal :=
  .next (if aouOn s then { s with aou := s.aou.queueWrite n v } else s)

/-- AO_QUEUE_CLEAR (R345). -/
def execAoQueueClear (n : Fin 16) (s : State) : Host.Outcome State Fault Refusal :=
  .next (if aouOn s then { s with aou := s.aou.queueClear n } else s)

/-! ## Strobes (R346, R347) -/

/-- A strobe on one channel selected by SMASK (R346). -/
def AouCh.strobe (c : AouCh) : AouCh :=
  if c.mode = 2 then { c with next := some (if bit c.cfg 4 then c.merge else c.stg) }
  else if c.mode = 3 then { c with phase := c.ph0 }
  else c

/-- A strobe (R346). -/
def Aou.strobeAll (a : Aou) : Aou :=
  { a with ch := a.ch.mapIdx fun n (c : AouCh) => if bit a.smask n then c.strobe else c }

/-- SRC of AOU_STROBE. -/
def Aou.src (a : Aou) : Nat := fld a.strobe 0 2

/-- A strobe by timer `n` (R346). -/
def timerStrobe (n : Nat) (s : State) : State :=
  if aouRuns s && s.aou.src == 1 && fld s.aou.strobe 4 3 == n then { s with aou := s.aou.strobeAll } else s

/-- AO_STROBE_FIRE (R346). -/
def execAoStrobeFire (s : State) : Host.Outcome State Fault Refusal :=
  .next (if aouOn s then { s with aou := s.aou.strobeAll } else s)

/-- Chain time moves on to a mark: CTIME only rises to it, by the row that says it has been reached. -/
def reachTime (t : Quad) (s : State) : State :=
  if s.chn.ctime.toNat < t.toNat then { s with chn := { s.chn with ctime := t } } else s

/-- AO_STROBE_MARK (R347): CTIME reaches the armed mark. -/
def execAoStrobeMark (s : State) : Host.Outcome State Fault Refusal :=
  .next (if aouRuns s && s.aou.arm && s.aou.src == 2 then
    reachTime s.aou.mark { s with aou := { s.aou.strobeAll with arm := false } }
  else s)

/-- AO_STROBE_LOAD (R346): a falling edge of LOAD_N, the pin GP1. -/
def execAoStrobeLoad (s : State) : Host.Outcome State Fault Refusal :=
  .next (if aouRuns s && s.aou.src == 3 then { s with aou := s.aou.strobeAll } else s)

/-- A write of SMARKHI (R347). -/
def Aou.loadMark (a : Aou) (hi : Word) : Aou :=
  { a with markhi := hi, mark := hi ++ a.marklo, arm := true }

/-- AO_MARK_LOAD (R347). -/
def execAoMarkLoad (hi : Word) (s : State) : Host.Outcome State Fault Refusal :=
  .next (if aouOn s then { s with aou := s.aou.loadMark hi } else s)

/-! ## The output stage (R352-R355, R417) -/

/-- Change the stage of AOn. -/
def modAo (n : Nat) (f : DrvAo → DrvAo) (s : State) : State := { s with drv := { s.drv with ao := vmod s.drv.ao n f } }

/-- A write of MODE or RANGE (R352). -/
def stageChange (n : Nat) (mode range : Bool) (s : State) : State :=
  modAo n (fun a => { a with cfg := setBit (setBit a.cfg 31 mode) 30 range, change := true }) s

/-- AO_STAGE_CHANGE (R352). -/
def execAoStageChange (n : Fin 16) (mode range : Bool) (s : State) : Host.Outcome State Fault Refusal :=
  .next (if drvLink s then stageChange n mode range s else s)

/-- AO_CHANGEOVER_END (R352). -/
def execAoChangeoverEnd (n : Fin 16) (s : State) : Host.Outcome State Fault Refusal :=
  .next (modAo n (fun a => { a with change := false }) s)

/-- AO_CONTENTION (R354). -/
def execAoContention (n : Fin 16) (s : State) : Host.Outcome State Fault Refusal :=
  .next (report (.analog n) (modAo n (fun a => { a with cont := true }) s))

/-- The pin of AOn is at 12 V or more: the stage is isolated (R355). -/
def overvoltage (n : Fin 16) (s : State) : State :=
  report (.analog n) (modAo n (fun a => { a with ov := true, iso := true, ovcnt := satInc a.ovcnt }) s)

/-- AO_OVERVOLTAGE (R355): a stage that is isolated already stays so. -/
def execAoOvervoltage (n : Fin 16) (s : State) : Host.Outcome State Fault Refusal :=
  .next (if aoIso s n then s else overvoltage n s)

/-- AO_RECONNECT (R355): 10 ms after isolation; a pin still high isolates again. -/
def execAoReconnect (n : Fin 16) (stillHigh : Bool) (s : State) : Host.Outcome State Fault Refusal :=
  .next (if (vget s.drv.ao n {}).iso then
    let s := modAo n (fun a => { a with iso := false }) s
    if stillHigh then overvoltage n s else s
  else s)

/-- VAO_LOCKOUT (R417). -/
def execVaoLockout (s : State) : Host.Outcome State Fault Refusal := .next { s with drv := { s.drv with vaoLow := true } }

/-- VAO_LOCKOUT_END (R417). -/
def execVaoLockoutEnd (s : State) : Host.Outcome State Fault Refusal :=
  .next { s with drv := { s.drv with vaoLow := false } }

/-! ## Pixel ports (R356-R359) -/

/-- PIX works: the peripheral is enabled and PD62 is ON. -/
def pixOn (s : State) : Bool := enabled s 2 && pdOn s 62

/-- Components of a refresh in sending order, as pixel and component (R356). -/
def sendOrder (cfg : Word) : List (Nat × Nat) :=
  (List.range (fld cfg 0 11)).flatMap fun i => (List.range (fld cfg 24 2 + 1)).map fun k => (i, fld cfg (16 + 2 * k) 2)

/-- Bytes that a port's saved refresh takes in PIXDATA (Table 16.9). -/
def savedBytes (cfg : Word) : Nat := if bit cfg 31 then fld cfg 0 11 * (fld cfg 24 2 + 1) else 0

/-- The saved components of port `p` (R408): the upper 8 bits, 0 beyond the bytes saved. -/
def lookData (s : State) (p : Nat) (w16 : Bool) (n : Nat) : List Half :=
  let o := ((List.range p).map fun q => savedBytes (vget s.ros.saved.pixcfg q 0)).sum
  (List.range n).map fun i =>
    let b := (s.ros.saved.pixdata.getD (o + i) 0).setWidth 16
    if w16 then b <<< 8 else b

/-- The component values of a refresh of port `p` (R356, R359, R408). -/
def pixData (s : State) (p : Nat) (cfg : Word) : List Half :=
  let order := sendOrder cfg
  let w16 := bit cfg 28
  if pixHood s then order.map fun _ => 0
  else if s.ros.look && bit (vget s.ros.saved.pixcfg p 0) 31 then lookData s p w16 order.length
  else order.map fun ic =>
    let v := (cget zeroCell s.pix.lvl (0x1000 + p * 0x1000 + ic.1 * 4 + ic.2)).toNat
    BitVec.ofNat 16 (if w16 then v / 256 else v / 65536)

/-- Port `p` at the start of frame `f` (R357, R358). -/
def PixPort.trigger (x : PixPort) (f : Nat) : PixPort :=
  let ref := if x.busy then vget x.act 2 0 else x.ref
  if bit x.cfg 31 && f % fld ref 0 16 == fld ref 16 13 then
    if x.busy then { x with skip := satInc x.skip }
    else { x with act := #v[x.cfg, x.clk, x.ref, x.latch], busy := true, gap := false, snap := true }
  else x

/-- The pixel ports at a frame start (R357): frozen in ROOST. -/
def pixFrame (s : State) : State :=
  if pixOn s && !(s.mode.code == .roost) then
    { s with pix := { s.pix with port := s.pix.port.map fun x => x.trigger (frameOf s.chn.ctime) } }
  else s

/-- The snapshots of triggered ports at the boundary of tick 0 (R357). -/
def pixSnapshot (s : State) : State :=
  { s with pix := { s.pix with port := s.pix.port.mapIdx fun p (x : PixPort) =>
      if x.snap then { x with snap := false, data := pixData s p (vget x.act 0 0) } else x } }

/-- The bits of a CLOCKED refresh: PRE zeros, the components MSB first, TRAIL zeros (R356, R360). -/
def clockedBits (cfg clk : Word) (data : List Half) : List Bool :=
  let n := if bit cfg 28 then 16 else 8
  List.replicate (fld clk 16 8) false ++ data.flatMap (fun v => (List.range n).reverse.map fun i => bit v i)
    ++ List.replicate (fld clk 24 8) false

/-- Low and high cycles of CK in a CLOCKED bit (R360). -/
def clockedCycles (clk : Word) : Nat × Nat := ((fld clk 0 13 + 1) / 2, fld clk 0 13 / 2)

/-- High and low times in ns of a SELFCLOCKED bit, or of SYNC (Table 14.2). -/
def selfclockedTimes (rate : Bool) (symbol : Option Bool) : Nat × Nat :=
  match rate, symbol with
  | false, some false => (300, 950) | false, some true => (750, 500) | false, none => (1500, 1000)
  | true, some false => (150, 474) | true, some true => (374, 250) | true, none => (750, 498)

/-- What a refresh drives on CK and DT, and for how many SYS cycles of 2 ns each (R360, R361): CLOCKED bits sample at the
rising edge of CK; SELFCLOCKED holds CK low and begins with SYNC. Afterwards both pins stay low. -/
def refreshWave (cfg clk : Word) (data : List Half) : List (Bool × Bool × Nat) :=
  if bit cfg 30 then
    let n := if bit cfg 28 then 16 else 8
    let bits := data.flatMap fun v => (List.range n).reverse.map fun i => bit v i
    (none :: bits.map some).flatMap fun b =>
      let t := selfclockedTimes (bit cfg 29) b
      [(false, true, t.1 / 2), (false, false, t.2 / 2)]
  else
    (clockedBits cfg clk data).flatMap fun b =>
      [(false, b, (clockedCycles clk).1), (true, b, (clockedCycles clk).2)]

/-- PIX_REFRESH_END (R357). -/
def execPixRefreshEnd (p : Fin 4) (s : State) : Host.Outcome State Fault Refusal :=
  let x := vget s.pix.port p {}
  .next (if x.busy && !x.gap then
    when (bit (vget x.act 0 0) 27) (raise .pix)
      { s with pix := { s.pix with port := vmod s.pix.port p fun x => { x with gap := true } } }
  else s)

/-- PIX_GAP_END (R357). -/
def execPixGapEnd (p : Fin 4) (s : State) : Host.Outcome State Fault Refusal :=
  .next { s with pix := { s.pix with port := vmod s.pix.port p fun x =>
    if x.gap then { x with busy := false, gap := false } else x } }

/-- PIX is disabled or powered off: its pins are low and a refresh in progress is cut off (R358). -/
def Pix.cutOff (x : Pix) : Pix :=
  { x with port := x.port.map fun p => { p with busy := false, gap := false, snap := false } }

end Sys2Proof.Machine
end

