-- ==== Sys2Proof/Machine/Sense.lean ====
section
/-! DEFINITION. The sense converter (R362-R370) and the general timers (R375-R381). -/

namespace Sys2Proof.Machine

/-! ## Scan settings (R363, R366) -/

/-- SNS answers: enabled, PD63 ON and its island not stopped by ROOST (R404). -/
def snsOn (s : State) : Bool := enabled s 3 && pdOn s 63 && !(s.mode.code == .roost)

/-- SNS works: its island is clocked too (R68, R76). -/
def snsRuns (s : State) : Bool := snsOn s && islandUp s 5

/-- RUN. -/
def Sns.run (x : Sns) : Bool := bit x.ctrl 31
/-- MODE = SINGLE. -/
def Sns.single (x : Sns) : Bool := bit x.ctrl 29
/-- NENT. -/
def Sns.nent (x : Sns) : Nat := fld x.ctrl 16 6
/-- The filter order of an entry: 3 for SINC3, 4 for SINC4. -/
def sincOrder (e : Word) : Nat := if bit e 12 then 4 else 3

/-- Tagged samples for a change from settings `old` to `new` (Table 15.3). -/
def settleCount (old new : Word) : Nat :=
  let o := sincOrder new
  let ch := if fld old 24 5 = fld new 24 5 then 0 else o
  let gain := if fld old 16 3 = fld new 16 3 then 0 else o + 1
  let filt := if bit old 12 = bit new 12 ∧ fld old 8 3 = fld new 8 3 then 0 else 2 * o
  max ch (max gain filt)

/-- Tagged samples at the start of a visit (R366): the first visit after RUN counts as a filter change. -/
def Sns.visitTags (x : Sns) (e : Word) : Nat :=
  match x.prev with
  | none => 2 * sincOrder e
  | some p => settleCount p e

/-- Entry `i`. -/
def Sns.entry (x : Sns) (i : Nat) : Word := vget x.ent i 0x1201

/-- A visit of entry `i` begins. -/
def Sns.visit (x : Sns) (i : Nat) : Sns := { x with idx := i, got := 0, tags := x.visitTags (x.entry i) }

/-- A pass begins with entry 0. -/
def Sns.startPass (x : Sns) : Sns := ({ x with pass := true, trig := false }).visit 0

/-! ## Samples (R364, R368-R370) -/

/-- A sample word (Table 15.2). -/
def sampleWord (settle clip : Bool) (ch : Nat) (data : BitVec 24) : Word :=
  BitVec.ofNat 32 (settle.toNat * 2147483648 + clip.toNat * 1073741824 + ch * 16777216 + data.toNat)

/-- A word goes into the FIFO; the flag says that the SNS cause is raised (R369). -/
def Sns.push (x : Sns) (w : Word) : Sns × Bool :=
  if 256 ≤ x.fifo.length then ({ x with ovf := true }, true)
  else ({ x with fifo := x.fifo ++ [w] }, x.fifo.length + 1 == fld x.ctrl 0 9)

/-- The maps of channel `ch` take an untagged sample (R370). -/
def Sns.publish (x : Sns) (ch : Nat) (data : BitVec 24) : Sns :=
  { x with
    val := x.val.mapIdx fun i (v : Rat) =>
      let m := vget x.map i 0
      if fld m 24 5 = ch then
        clampQ 0 1 ((data.toInt - (BitVec.ofNat 24 (fld m 0 24)).toInt : Int) / ((fld (vget x.span i 1) 0 24 : Nat) : Rat))
      else v
    vfield := if ch = 16 then BitVec.ofNat 16 (fld data 8 16) else x.vfield
    vhold := if ch = 17 then BitVec.ofNat 16 (fld data 8 16) else x.vhold }

/-- After a sample: the visit goes on, or the next visit or the end of the pass follows (R365, R367); no entry is
visited between two passes and IDX reads 0 (log entry 106). -/
def Sns.after (x : Sns) (e : Word) : Sns :=
  if x.tags = 0 ∧ fld e 0 8 ≤ x.got then
    if x.nent ≤ x.idx + 1 then
      if x.single then { x with pass := false, idx := 0, got := 0, tags := 0 } else x.visit 0
    else x.visit (x.idx + 1)
  else x

/-- One sample boundary (R363-R370): the converter's result, whether the input overranged, and whether SNS is raised. -/
def Sns.sample (x : Sns) (raw : Int) (clip : Bool) : Sns × Bool :=
  if !x.pass then
    (if x.trig || !x.single then x.startPass else x, false)
  else
    let e := x.entry x.idx
    let ch := fld e 24 5
    let v := clampI (-8388608) 8388607 raw
    let data := BitVec.ofInt 24 v
    let clip := clip || v != raw
    if 0 < x.tags then
      let (y, r) := if bit x.ctrl 28 then (x, false) else x.push (sampleWord true clip ch data)
      (({ y with tags := x.tags - 1, prev := some e }).after e, r)
    else
      let (y, r) := x.push (sampleWord false clip ch data)
      ((({ y with got := x.got + 1, prev := some e }).publish ch data).after e, r)

/-- A trigger (R365): a SINGLE pass starts at the next sample boundary; one that arrives during a pass is ignored. -/
def Sns.trigger (x : Sns) : Sns :=
  if x.run && x.single then (if x.pass then { x with trigmiss := true } else { x with trig := true }) else x

/-- A trigger of kind TRIG = `k` arrives. -/
def snsTrigger (k : Nat) (s : State) : State :=
  if snsRuns s && fld s.sns.ctrl 26 2 == k then { s with sns := s.sns.trigger } else s

/-- A trigger by timer `n` (R365). -/
def snsTimerTrigger (n : Nat) (s : State) : State := if fld s.sns.ctrl 23 3 = n then snsTrigger 3 s else s

/-- RUN is written (R365-R367): a write that leaves it as it is starts nothing anew (log entry 106). -/
def Sns.setRun (x : Sns) (on : Bool) : Sns :=
  if on = x.run then x
  else if on then
    let x := { x with ctrl := setBit x.ctrl 31 true, prev := none, trig := false }
    if x.single then x else x.startPass
  else { x with ctrl := setBit x.ctrl 31 false, pass := false, trig := false, tags := 0, got := 0, idx := 0 }

/-- SNS_ENTi fields (Table 15.4). -/
def sntFields : List Field := [⟨24, 5, .enum 24 0, .rw⟩, ⟨16, 3, .enum 5 0, .rw⟩, ⟨12, 1, .all, .rw⟩, ⟨8, 3, .enum 5 0, .rw⟩,
  ⟨0, 8, .clamp 1 255, .rw⟩]

/-- A write of SNS_ENTi (R367): a change of settings of the entry being visited restarts the conversion. -/
def Sns.writeEntry (x : Sns) (i : Nat) (v : Word) : Sns :=
  let old := x.entry i
  let new := applyWrite sntFields old v
  { x with
    ent := x.ent.setIfInBounds i new
    tags := if x.run && x.pass && x.idx == i then max x.tags (settleCount old new) else x.tags }

/-- What a read of SNS_FIFO returns (R369). -/
def Sns.head (x : Sns) : Word := x.fifo.headD 0x1F000000

/-- SNS_RUN (R365). -/
def execSnsRun (on : Bool) (s : State) : Host.Outcome State Fault Refusal :=
  .next (if snsOn s then { s with sns := s.sns.setRun on } else s)

/-- SNS_START (R365). -/
def execSnsStart (s : State) : Host.Outcome State Fault Refusal := .next (snsTrigger 0 s)

/-- SNS_SAMPLE (R365). -/
def execSnsSample (raw : Int) (clip : Bool) (s : State) : Host.Outcome State Fault Refusal :=
  .next (if snsRuns s && s.sns.run then
    let (x, r) := s.sns.sample raw clip
    when r (raise .sns) { s with sns := x }
  else s)

/-- SNS_ENTRY_WRITE (R367). -/
def execSnsEntryWrite (i : Fin 32) (v : Word) (s : State) : Host.Outcome State Fault Refusal :=
  .next (if enabled s 3 && pdOn s 63 then { s with sns := s.sns.writeEntry i v } else s)

/-- SNS_FIFO_POP (R369). -/
def execSnsFifoPop (s : State) : Host.Outcome State Fault Refusal :=
  .next (if enabled s 3 && pdOn s 63 then { s with sns := { s.sns with fifo := s.sns.fifo.drop 1 } } else s)

/-! ## General timers -/

/-- GPT works: enabled and PD60 ON. -/
def gptOn (s : State) : Bool := enabled s 0 && pdOn s 60

/-- GPT works: its island is clocked too (R68, R76). -/
def gptRuns (s : State) : Bool := gptOn s && islandUp s 4

/-- Timer `n`. -/
def gpt (s : State) (n : Nat) : Gpt := vget s.gpt.t n {}

/-- Change timer `n`. -/
def modGpt (n : Nat) (f : Gpt → Gpt) (s : State) : State := { s with gpt := { t := vmod s.gpt.t n f } }

/-- FRZ: the owner is in debug halt or DFAULT (R381). -/
def frozen (s : State) (t : Gpt) : Bool :=
  let k := vget s.kst.core (fld t.cfg 25 2) {}
  bit t.cfg 27 && (k.halted || k.dfault)

/-- The timer is running (R377). -/
def running (s : State) (t : Gpt) : Bool := bit t.cfg 31 && !frozen s t

/-- The output flip-flop after an action: none, set, clear, toggle (R380). -/
def flipFlop (act : Nat) (o : Bool) : Bool :=
  match act with
  | 1 => true
  | 2 => false
  | 3 => !o
  | _ => o

/-- A match of timer `n` (R378, R380, R381): flag, action, strobe, sense trigger and, with IEM, the cause. With
MATCH = TOP the match comes before the wrap (log entry 107). -/
def gptMatch (n : Nat) (s : State) : State :=
  let t := gpt s n
  if t.match_.toNat ≤ t.top.toNat then
    let s := modGpt n (fun t => { t with mf := true, count := t.match_, out := flipFlop (fld t.cfg 5 2) t.out }) s
    when (bit t.cfg 2) (raiseGpt n) (snsTimerTrigger n (timerStrobe n s))
  else s

/-- An overflow of timer `n` (R375, R378, R380, R381): the count wraps and waiting preloads are copied. -/
def gptOverflow (n : Nat) (s : State) : State :=
  let t := gpt s n
  when (bit t.cfg 1) (raiseGpt n) (modGpt n (fun t =>
    { t with ovf := true, count := 0, out := flipFlop (fld t.cfg 3 2) t.out
             top := t.topNext.getD t.top, match_ := t.matchNext.getD t.match_, topNext := none, matchNext := none }) s)

/-- A capture of `c` by timer `n` (R379, R381). -/
def gptCapture (n : Nat) (c : Word) (s : State) : State :=
  let t := gpt s n
  when (bit t.cfg 0) (raiseGpt n) (modGpt n (fun t => { t with cap := c, ovr := t.ovr || t.capf, capf := true }) s)

/-- The timer counts the PWM clock, which the state cannot follow count by count (log entry 8). -/
def countsPwm (s : State) (t : Gpt) : Bool := running s t && decide (fld t.cfg 29 2 < 2)

/-- The count that a capture copies: the model's own for a timer that is stopped, frozen, or on CHAIN or PIN, else the one
given (R379). -/
def captured (s : State) (t : Gpt) (cnt : Word) : Word := if countsPwm s t then cnt else t.count

/-- The input of a timer is at its counting level (R376). -/
def gateOpen (s : State) (t : Gpt) : Bool := !bit t.cfg 24 || bit s.pins.gt (fld t.cfg 16 3) == bit t.cfg 23

/-- The count of timer `n` wraps by an edge that the model counts: the preloads are copied, and where MATCH is 0 its action
comes before that of the overflow in the same cycle (R378, R380). -/
def gptWrap (n : Nat) (s : State) : State :=
  let s := modGpt n (fun t => { t with
    count := 0, top := t.topNext.getD t.top, match_ := t.matchNext.getD t.match_, topNext := none, matchNext := none }) s
  gptOverflow n (if (gpt s n).match_ = 0 then gptMatch n s else s)

/-- A clock edge reaches the counter of timer `n` (R375, R378): the count moves after PRESC + 1 edges, wrapping from TOP to
0. -/
def countEdge (n : Nat) (s : State) : State :=
  let t := gpt s n
  if t.pre < fld t.cfg 8 8 then modGpt n (fun t => { t with pre := t.pre + 1 }) s
  else
    let s := modGpt n (fun t => { t with pre := 0 }) s
    if t.count = t.top then gptWrap n s
    else
      let s := modGpt n (fun t => { t with count := t.count + 1 }) s
      if (gpt s n).count = t.match_ then gptMatch n s else s

/-- A CHAIN edge reaches timer `n` (R375, R376). -/
def chainCount (sel : Bool) (n : Nat) (s : State) : State :=
  let t := gpt s n
  if gptRuns s && running s t && fld t.cfg 29 2 == 2 && bit t.cfg 28 == sel && gateOpen s t then countEdge n s else s

/-- An edge of its input reaches timer `n`, as PEDGE selects it for CLK = PIN (R375, R376). -/
def pinCount (rising : Bool) (n : Nat) (s : State) : State :=
  let t := gpt s n
  let edge : Bool := match fld t.cfg 19 2 with | 0 => rising | 1 => !rising | _ => true
  if gptRuns s && running s t && fld t.cfg 29 2 == 3 && edge && gateOpen s t then countEdge n s else s

/-- A tick boundary (`sel` false) or frame boundary reaches every CHAIN timer. -/
def chainTick (sel : Bool) (s : State) : State := (List.range 8).foldl (fun s n => chainCount sel n s) s

/-- The count that timer `n` has reached on the PWM clock: the spec gives a running count that the state cannot follow, so it
is a free value of 0 to TOP (log entry 8). -/
def freeCount (n : Nat) (s : State) : State :=
  { modGpt n (fun t => { t with count := BitVec.ofNat 32 ((Config.freeWord s.free).toNat % (t.top.toNat + 1)) }) s with
    free := s.free + 1 }

/-- Timer `n` stops: its count stays. -/
def stopCount (n : Nat) (s : State) : State := if fld (gpt s n).cfg 29 2 < 2 then freeCount n s else s

/-- Kestrel `k` has entered debug halt or DFAULT: the timers it freezes hold their counts (R381). -/
def freezeTimers (k : Nat) (s : State) : State :=
  (List.range 8).foldl (fun s n =>
    let t := gpt s n
    if bit t.cfg 31 && bit t.cfg 27 && fld t.cfg 25 2 == k then stopCount n s else s) s

/-- Timer `n` counts: it runs and its gate is open (R376, R377). -/
def counts (s : State) (n : Nat) : Bool := gptRuns s && running s (gpt s n) && gateOpen s (gpt s n)

/-- GPT_MATCH (R378): the count becomes equal to MATCH. -/
def execGptMatch (n : Fin 8) (s : State) : Host.Outcome State Fault Refusal :=
  .next (if counts s n then gptMatch n s else s)

/-- GPT_OVERFLOW (R375): the count wraps from TOP to 0. -/
def execGptOverflow (n : Fin 8) (s : State) : Host.Outcome State Fault Refusal :=
  .next (if counts s n then gptOverflow n s else s)

/-- GPT_CAPTURE (R375, R379): an edge of the timer's input at count `cnt`. CAPE selects the edges that capture; with CLK = PIN
the edge is then counted (log entry 101). -/
def execGptCapture (n : Fin 8) (rising : Bool) (cnt : Word) (s : State) : Host.Outcome State Fault Refusal :=
  let t := gpt s n
  let s1 : State := { s with pins := { s.pins with gt := setBit s.pins.gt (fld t.cfg 16 3) rising } }
  .next (pinCount rising n (if gptRuns s && bit t.cfg (if rising then 21 else 22) then gptCapture n (captured s t cnt) s1 else s1))

/-- GPT_SWCAP (R379): a write of SWCAP = 1 at count `cnt`. -/
def execGptSwcap (n : Fin 8) (cnt : Word) (s : State) : Host.Outcome State Fault Refusal :=
  .next (if gptOn s then gptCapture n (captured s (gpt s n) cnt) s else s)

/-- GPT_CAP_READ (R379). -/
def execGptCapRead (n : Fin 8) (s : State) : Host.Outcome State Fault Refusal :=
  .next (if gptOn s then modGpt n (fun t => { t with capf := false }) s else s)

end Sys2Proof.Machine
end

