-- ==== Sys2Proof/Machine/Audio.lean ====
section
/-! DEFINITION. The audio input, the envelope followers and the beat tracker (R371-R374). -/

namespace Sys2Proof.Machine

/-- AUD works: enabled, PD64 ON and its island not stopped by ROOST (R404). -/
def audOn (s : State) : Bool := enabled s 4 && islandUp s 6 && pdOn s 64 && !(s.mode.code == .roost)

/-! ## Real functions of R373 and R374 -/

/-- log2 e. -/
def log2e : Rat := 14426950408889634 / 10000000000000000

/-- exp(-x) for x at least 0. -/
def expNeg (x : Rat) : Rat := exp2Q (-(x * log2e))

/-- Sixteen binary digits of log2 of a mantissa in [1, 2), in 2^-30 (log entry 108). -/
def log2Digits : Nat → Nat → Nat
  | 0, _ => 0
  | n + 1, m =>
    let q := m * m / 1073741824
    if 2147483648 ≤ q then 2 ^ n + log2Digits n (q / 2) else log2Digits n q

/-- log2 of a positive rational, in steps of 2^-16. -/
def log2Fix (q : Rat) : Int :=
  let v := (q * 1152921504606846976).floor.toNat
  if v = 0 then -3932160
  else
    let k := Nat.log2 v
    let m := v * 1073741824 / 2 ^ k
    ((k : Int) - 60) * 65536 + log2Digits 16 m

/-! ## Samples and followers -/

/-- The first 24 bits of a slot of `len` bits (R371). -/
def slotSample (len : Nat) (raw : Word) : Int :=
  (BitVec.ofNat 24 (if 24 ≤ len then raw.toNat / 2 ^ (len - 24) else raw.toNat * 2 ^ (24 - len))).toInt

/-- The source chosen by a SRC code: left, right or their mean, in 2^-24. -/
def audSource (code : Nat) (l r : Int) : Int :=
  match code with
  | 0 => 2 * l
  | 1 => 2 * r
  | _ => l + r

/-- The detected rate in Hz. -/
def audRate (r : BitVec 2) : Nat := match r.toNat with | 1 => 44100 | 2 => 48000 | 3 => 96000 | _ => 0

/-- Band `b` of a follower's source `x`, whose filter holds `z`: FULL is the source, the filters' outputs are free (log entry
7); in 2^-24. -/
def bandOf (b z : Nat) (x : Int) : Int := if b = 0 then x else Config.bandOutput b z

/-- The source of follower `k`. -/
def Aud.followed (x : Aud) (k : Nat) : Int := audSource (fld (vget x.env k 0) 28 2) x.left x.right

/-- The source of the tracker. -/
def Aud.tracked (x : Aud) : Int := audSource (fld x.cfg 28 2) x.left x.right

/-- What the filters hold after a pair of samples; the fifth is the 150 Hz low-pass of the tracker. -/
def Aud.filters (x : Aud) : Vector Nat 5 :=
  x.filt.mapIdx fun k (z : Nat) =>
    if k = 4 then Config.bandStep 1 (audRate x.rate) z x.tracked
    else Config.bandStep (fld (vget x.env k 0) 24 2) (audRate x.rate) z (x.followed k)

/-- One follower step (R373): `e` in 2^-32, `x` in 2^-24. -/
def followStep (w : Word) (fs : Nat) (x : Int) (e : Nat) : Nat :=
  let a : Rat := ((min x.natAbs 16777216 : Nat) : Rat) / 16777216
  let ev : Rat := (e : Rat) / 4294967296
  let t : Nat := if ev < a then fld w 0 8 + 1 else fld w 8 8 + 1
  (clampI 0 4294967296 (openRound 13 ((ev + (a - ev) * (1 - expNeg (2000 / ((t * fs : Nat) : Rat)))) * 4294967296))).toNat

/-- A left and right sample pair: the followers, and the square sum of the tracker's low-passed source (R373, R374). -/
def Aud.pair (x : Aud) : Aud :=
  let fs := audRate x.rate
  let f := x.filters
  let y := Config.bandOutput 1 (vget f 4 0)
  { x with
    e := x.e.mapIdx fun k (e : Nat) =>
      let w := vget x.env k 0
      followStep w fs (bandOf (fld w 24 2) (vget f k 0) (x.followed k)) e
    filt := f, sum := x.sum + y.natAbs * y.natAbs, num := x.num + 1 }

/-- AUDIO_SAMPLE (R371): a slot received while LRCK is at level `lrck`, which is the left channel's when it is low in I2S and
when it is high in left-justified framing. The right sample completes a pair. Without LOCK it is not used (R372). -/
def execAudioSample (lrck : Bool) (len : Nat) (raw : Word) (s : State) : Host.Outcome State Fault Refusal :=
  .next (if audOn s then
    { s with aud :=
        let right := lrck != bit s.aud.cfg 31
        let v := slotSample len raw
        let x := if right then { s.aud with right := v } else { s.aud with left := v }
        if right && s.aud.lock then x.pair else x }
  else s)

/-! ## LOCK (R372) -/

/-- The RATE code of 1,024 LRCK periods in a number of PLL_AUD cycles at 24.576 MHz, 0 when none lies within 1 %. -/
def rateCode (cycles : Nat) : BitVec 2 :=
  let ok (hz : Nat) : Bool := dist (1024 * 24576000) (hz * cycles) * 100 ≤ hz * cycles
  if ok 44100 then 1 else if ok 48000 then 2 else if ok 96000 then 3 else 0

/-- LOCK clears (R372): BEAT is raised once. -/
def audUnlock (s : State) : State :=
  when s.aud.lock (raise .beat) { s with aud := { s.aud with lock := false, rate := 0 } }

/-- AUDIO_RATE_CHECK (R372). -/
def execAudioRateCheck (cycles : Nat) (s : State) : Host.Outcome State Fault Refusal :=
  .next (if audOn s then
    let r := rateCode cycles
    if r = 0 then audUnlock s else { s with aud := { s.aud with lock := true, rate := r } }
  else s)

/-- AUDIO_LRCK_LOSS (R372). -/
def execAudioLrckLoss (s : State) : Host.Outcome State Fault Refusal := .next (if audOn s then audUnlock s else s)

/-! ## The beat tracker (R374) -/

/-- Mean square of the last millisecond, x in -1..1. -/
def Aud.energy (x : Aud) : Rat :=
  if x.num = 0 then 0 else (x.sum : Rat) / ((x.num * 281474976710656 : Nat) : Rat)

/-- The onset detection value of a millisecond, in 2^-16, and its logarithm (R374). -/
def Aud.detect (x : Aud) : Nat × Int :=
  let l := log2Fix (x.energy + 1 / 1073741824)
  ((l - x.prevLog).toNat, l)

/-- An onset is reported for detection value `d` (R374), which is one of those of the mean (log entry 108). -/
def Aud.isOnset (x : Aud) (d : Nat) : Bool :=
  let hist := (d :: x.odf).take 500
  fld x.cfg 0 6 * hist.sum < 16 * d * 500 && 16384 < d

/-- Distance of two instants. -/
def gap (a b : Int) : Nat := (a - b).natAbs

/-- One millisecond of the tracker (R374): the new state, whether a beat and whether an onset is reported. Instants are in
1/64 ms; the nearest predicted beat of an onset is the next or the last (log entry 108). -/
def Aud.ms (x : Aud) : Aud × Bool × Bool :=
  let (d, l) := x.detect
  let onset := x.isOnset d
  let now := x.now + 1
  let t : Int := 64 * (now : Int)
  let beat := x.nextBeat ≤ t
  let last := if beat then t else x.lastBeat
  let next := if beat then t + 64 * x.tau else x.nextBeat
  let near := gap t next * 8 ≤ 64 * x.tau || gap t last * 8 ≤ 64 * x.tau
  let pred := if gap t next < gap t last then next else last
  let next := if onset && near then next + openDiv 14 (t - pred) 4 else next
  ({ x with
     prevLog := l, odf := (d :: x.odf).take 6144, onset := min 262144 d, sum := 0, num := 0, now := now
     lastBeat := last, nextBeat := next, pulse := x.pulse || beat }, beat, onset)

/-- While LOCK = 0 the followers receive zero samples (R372), at a rate that the spec does not give: what a level has
fallen to after a millisecond is free between 0 and what it was (log entry 20). -/
def silentFollow (s : State) : State :=
  if s.aud.lock then s
  else
    { s with
      aud := { s.aud with e := s.aud.e.mapIdx fun k (e : Nat) => (Config.freeWord (s.free + k)).toNat % (e + 1) }
      free := s.free + 4 }

/-- BEAT_TRACK_MS (R374): a beat stores its CTIME; beats and onsets raise BEAT under their IE bits. -/
def execBeatTrackMs (s : State) : Host.Outcome State Fault Refusal :=
  .next (if audOn s then
    let (x, beat, onset) := s.aud.ms
    let x := if beat then { x with btfrm := BitVec.ofNat 32 (fld s.chn.ctime 24 32), btfrac := BitVec.ofNat 24 (fld s.chn.ctime 0 24) } else x
    when ((beat && bit s.aud.cfg 27) || (onset && bit s.aud.cfg 26)) (raise .beat)
      (silentFollow { s with aud := x })
  else s)

/-- The weighted correlation of a lag (R374). -/
def lagScore (odf : List Nat) (tau : Nat) : Rat :=
  let sum := ((odf.take 4096).zip (odf.drop tau)).foldl (fun a p => a + p.1 * p.2) 0
  let l : Rat := (log2Fix ((tau : Rat) / 500) : Rat) / 65536
  expNeg (l * l / 2) * (sum : Nat)

/-- The lag of the highest score, the shortest of equal ones; none when every sum is 0 (R374). -/
def bestLag (odf : List Nat) (lo hi : Nat) : Option Nat :=
  ((List.range (hi + 1 - lo)).foldl (fun (b : Option (Nat × Rat)) i =>
    let t := lo + i
    let q := lagScore odf t
    match b with
    | none => if 0 < q then some (t, q) else none
    | some (_, p) => if p < q then some (t, q) else b) none).map (·.1)

/-- TEMPO_UPDATE (R374). -/
def execTempoUpdate (s : State) : Host.Outcome State Fault Refusal :=
  .next (if audOn s then
    let hi := fld s.aud.cfg 16 8
    let lo := fld s.aud.cfg 8 8
    { s with aud := { s.aud with tau := (bestLag s.aud.odf ((60000 + hi - 1) / hi) (60000 / lo)).getD s.aud.tau } }
  else s)

/-- AUD_STAT.BPM: 60,000 / tau in steps of 1/64 BPM. -/
def Aud.bpm (x : Aud) : Half := BitVec.ofInt 16 (openDiv 15 3840000 x.tau)

/-- BEATPULSE for the tick that begins (Table 10.1). -/
def beatTick (s : State) : State := { s with aud := { s.aud with pulseNow := s.aud.pulse, pulse := false } }

end Sys2Proof.Machine
end

