-- ==== Sys2Proof/WellFormed.lean ====
section
/-! DEFINITION. When the operands of a command are ones the outside world can send. The meanings are total and do not
rest on it; statements about operands do. -/

namespace Sys2Proof

/-- An internal access is of one 32-bit register: its address is a multiple of 4 (R9, R10). -/
def RegAccess.wf : RegAccess → Bool
  | .host _ => true
  | .internal _ addr _ => addr.toNat % 4 == 0

/-- A tap delivers the downstream cells of a frame: at most 44,544 of them (Table 7.1). -/
def CellRx.wf (c : CellRx) : Bool := c.idx < 44544

/-- The checks on a command's operands. -/
def Instr.wf : Instr → Bool
  | .registerWrite a => a.wf
  | .streamCell c | .strikeCell c | .paramCell c | .rangeAssign c | .claim c | .claimRelease c
  | .mgmtCommandQueue c | .bulkCell c => c.wf
  | .mewsAccess q => q.addr.toNat % 4 == 0
  | .dmxPacketEnd _ slots _ => slots.length ≤ 513
  | .deviceLabelSet _ _ label => label.length ≤ 32
  | _ => true

end Sys2Proof
end

