-- ==== Sys2Proof/Machine/Clocks.lean ====
section
/-! DEFINITION. Clock sources, XO qualification, island switching, failover and the reference mux (03_clocks.md). -/

namespace Sys2Proof.Machine

/-- SRC and DIV of CKP_ICLKn as stored. -/
def Iclk.src (i : Iclk) : Nat := fld i.cfg 0 2
/-- DIV of CKP_ICLKn as stored. -/
def Iclk.div (i : Iclk) : Nat := fld i.cfg 4 3

/-- Change island `n`. -/
def Ckp.modIclk (c : Ckp) (n : Nat) (f : Iclk → Iclk) : Ckp := { c with iclk := vmod c.iclk n f }

/-- The switch that the stored SRC and DIV ask for begins (R71). -/
def Iclk.begin (i : Iclk) : Iclk :=
  { i with waitsrc := false
           sw := some { dst := BitVec.ofNat 2 i.src, div := BitVec.ofNat 3 i.div, stopped := false, engaged := false,
                        failover := false } }

/-- What the stored SRC and DIV start on an island without a switch, when the register held `base` before (R71, R72, R74): a
changed SRC, or one that the island still waits for, starts a switch once its source is live; a lower DIV starts a ramp, a
higher one takes effect at once, and a write that changes neither starts nothing. -/
def Iclk.start (i : Iclk) (base : Word) (live : Bool) : Iclk :=
  if i.waitsrc ∨ i.src ≠ fld base 0 2 then (if live then i.begin else { i with waitsrc := true })
  else if i.div = fld base 4 3 then i
  else if i.div < i.step.toNat then
    { i with sw := some { dst := i.act, div := BitVec.ofNat 3 i.div, stopped := true, engaged := true, failover := false } }
  else { i with step := BitVec.ofNat 3 i.div }

/-- A write of CKP_ICLKn (R67, R71-R74): held while a switch runs, only stored while the island is stopped. -/
def Ckp.writeIclk (c : Ckp) (n : Nat) (v : Word) (storeOnly : Bool) : Ckp :=
  c.modIclk n fun i =>
    let i' := { i with cfg := applyWrite iclkFields i.cfg v }
    if i.sw.isSome then { i' with held := some (i.held.getD i.cfg) }
    else if storeOnly ∨ i.act = 3 then i'
    else i'.start i.cfg (c.srcLive n i'.src)

/-- The old source of the switch on an island stops low after a falling edge (R71). -/
def Iclk.disengage (i : Iclk) : Iclk :=
  { i with sw := i.sw.map fun w => if w.engaged then w else { w with stopped := true } }

/-- No switch runs any more: a held write starts, and so does a switch whose source has come to life meanwhile (R73,
R74). -/
def Iclk.next (i : Iclk) (live : Bool) : Iclk := { i with sw := none, held := none }.start (i.held.getD i.cfg) live

/-- A switch that has reached its divider ends (R71, Table 3.12 FAILED). -/
def Iclk.finish (i : Iclk) (w : Switch) (live : Bool) : Iclk :=
  { i with failed := if w.failover then i.failed else false }.next live

/-- The new source engages at divider 32, or at the step already reached where the ramp goes on (R71, R75, R77). -/
def Iclk.engage (i : Iclk) (live : Bool) : Iclk :=
  match i.sw with
  | none => i
  | some w =>
    if w.engaged then i
    else
      let st : BitVec 3 := if w.cont then i.step else 5
      let w' := { w with stopped := true, engaged := true }
      let j := { i with act := w.dst, step := st, sw := some w' }
      if st.toNat ≤ w.div.toNat then { j with step := w.div }.finish w' live else j

/-- One dwell of the ramp passes: the divider halves (R71). -/
def Iclk.ramp (i : Iclk) (live : Bool) : Iclk :=
  match i.sw with
  | none => i
  | some w =>
    if w.engaged && w.div.toNat < i.step.toNat then
      let j := { i with step := i.step - 1 }
      if j.step = w.div then j.finish w live else j
    else i

/-- The island fails over to the RCO (R77, R78): from its source in use, or in the place of a switch whose new source died.
Only a ramp that had begun goes on from its step; the model's choice for a new source that dies between the two is to start
again at divider 32 (log entry 75). -/
def Iclk.toRco (i : Iclk) : Iclk :=
  { i with
    act := 2, failed := true
    sw := some (match i.sw with
      | none => { dst := 2, div := BitVec.ofNat 3 i.div, stopped := false, engaged := false, failover := true }
      | some w =>
        { w with dst := 2, stopped := w.stopped && !w.engaged, engaged := false, failover := true, cont := w.engaged }) }

/-- Source `k` of island `n` dies (R77, R78); the flag says that a failover started. An old source that dies during a switch
is left to the force of R75. A new source that dies before the old one has disengaged ends the switch, which R77 does not
list: the island waits for it as under R74, on its old source, or fails over where that one is dead too (the model's choice,
log entry 75). `c` holds the liveness as it is now. -/
def Iclk.failover (c : Ckp) (n : Nat) (k : Clk) (i : Iclk) : Iclk × Bool :=
  match i.sw with
  | none => if sourceClk n i.act.toNat = some k then (i.toRco, true) else (i, false)
  | some w =>
    if sourceClk n w.dst.toNat ≠ some k then (i, false)
    else if w.stopped then (i.toRco, true)
    else if c.srcLive n i.act.toNat then ({ i with waitsrc := true }.next (c.srcLive n i.src), false)
    else ({ i with sw := none, waitsrc := true }.toRco, true)

/-- CKP_STAT as read (Table 3.7). -/
def Ckp.stat (c : Ckp) : Word :=
  BitVec.ofNat 32 (c.fmux.toNat * 256 + c.xolost.toNat * 16 + c.refsw.toNat * 8 + c.holdover.toNat * 4
    + c.failover.toNat * 2 + c.forced.toNat)

/-- Store CKP and raise CLK, logged with CKP_STAT, when `r` holds (R86, Table 16.4). -/
def setCkp (c : Ckp) (r : Bool) (s : State) : State :=
  when r (raiseD .clk c.stat.toNat) { s with ckp := c }

/-! ## Reference mux (R79-R81) -/

/-- The input that R79 selects: 0 XO, 1 CRW, 2 CRE; none gives holdover. -/
def refWanted (s : State) (c : Ckp) : Option (BitVec 2) :=
  let xo := if c.xoq && c.isLive .xo then some 0 else none
  let crw := c.isLive .crw
  let cre := c.isLive .cre
  match c.refSel.toNat with
  | 0 =>
    if s.mode.code == .show && s.chn.role != 1 then
      if s.chn.tring then (if cre then some 2 else if crw then some 1 else xo)
      else (if crw then some 1 else if cre then some 2 else xo)
    else xo
  | 1 => xo
  | 2 => if crw then some 1 else none
  | _ => if cre then some 2 else none

/-- The CLOCK step has ended: VOX, which starts then and stops at a reset only, has started (R65, R68). -/
def coreStarted (s : State) : Bool := (s.ckp.icl 0).act != 3

/-- Decide the reference anew (R79-R81): a wanted input other than the one in use waits to engage, none gives holdover.
Until the CLOCK step ends the PLLs lock on the XO (R65). The flag says that HOLDOVER became 1. -/
def Ckp.decideRef (s : State) (c : Ckp) : Ckp × Bool :=
  if (c.icl 0).act == 3 then (c, false)
  else match refWanted s c with
    | some r => if r = c.refNow then ({ c with refNext := none }, false) else ({ c with refNext := some r }, false)
    | none => ({ c with refNext := none, refNow := 3, holdover := true }, !c.holdover)

/-- Decide the reference after a change of state (R79). -/
def redecideRef (s : State) : State :=
  let (c, r) := s.ckp.decideRef s
  setCkp c r s

/-- A waiting reference switch engages (R80). -/
def Ckp.engageRef (c : Ckp) (forced : Bool) : Ckp × Bool :=
  match c.refNext with
  | none => (c, false)
  | some r =>
    ({ c with refNow := r, refNext := none, holdover := false, refsw := true, forced := c.forced || forced
              fmux := if forced then 7 else c.fmux }, true)

/-! ## XO qualification (R64-R66) -/

/-- The reference for a run that starts now (R64). -/
def Ckp.chooseRun (c : Ckp) : QualRef := if c.isLive .crw then .crw else if c.isLive .cre then .cre else .rco

/-- Start a run (R64). -/
def Ckp.startRun (c : Ckp) : Ckp := { c with run := 0, fails := 0, runRef := c.chooseRun }

/-- Expected count times the reference frequency in MHz: 2^16 x 50 x 64 (R64). -/
def xoExpected : Nat := 209715200

/-- A window of `count` passes against reference `r` (R64). -/
def Ckp.windowPasses (c : Ckp) (r : QualRef) (count : Nat) : Bool :=
  match r with
  | .rco => dist (count * 32) xoExpected * 200 ≤ xoExpected * fld c.xoqCfg 0 4
  | _ => dist (count * 3500) xoExpected * 40000 ≤ xoExpected * fld c.xoqCfg 8 6

/-- A qualification window ends (R64, R66); the flag says that XOLOST was set. The fourth pass ends a run: RUN shows 4, and
the next run, whose reference is chosen now, counts from 1. -/
def Ckp.window (c : Ckp) (count : BitVec 24) : Ckp × Bool :=
  let pass := c.windowPasses c.runRef count.toNat
  let c := { c with xocnt := count, xocntRec := c.runRef != QualRef.rco }
  if pass then
    let run : BitVec 3 := if 4 ≤ c.run.toNat then 1 else c.run + 1
    ({ c with run := run, fails := 0, xoq := c.xoq || run == 4, runRef := if run = 4 then c.chooseRun else c.runRef }, false)
  else if c.xoq && 1 ≤ c.fails then ({ c.startRun with xoq := false, xolost := true }, true)
  else ({ c.startRun with fails := c.fails + 1 }, false)

/-- The comparator runs from the start of the CLOCK step on (R65). -/
def comparatorRuns (s : State) : Bool := pd1Up s && !(beforeFuse s)

/-! ## Liveness -/

/-- Failover on every island whose source died: the new islands, and whether an island of VOX, MEWS or PWM, and any
island, failed over (R78). -/
def Ckp.failAll (c : Ckp) (k : Clk) : Ckp × Bool × Bool :=
  let hit (n : Nat) : Bool := ((c.icl n).failover c n k).2
  ({ c with iclk := c.iclk.mapIdx fun n (i : Iclk) => (i.failover c n k).1 },
   hit 0 || hit 2 || hit 4, (List.range 7).any hit)

/-- A clock is declared dead (R63, R66, R78, R81). The monitor lies in the AON: while PD1 is down only its view changes. A
dead XO starts a new run as two failing windows do, and a PLL keeps its lock bit when its output dies: the model's choices
(log entries 74 and 76). -/
def clockDies (k : Clk) (s : State) : State :=
  if !s.ckp.isLive k then s
  else if !pd1Up s then { s with ckp := s.ckp.setLive k false }
  else
    let c := s.ckp.setLive k false
    let xo := k == .xo
    let c := if xo then { c.startRun with xoq := false, xolost := true } else c
    let (c, hooded, any) := c.failAll k
    let c := { c with failover := c.failover || any, hood := c.hood || hooded }
    let (c, h) := c.decideRef s
    setCkp c (xo || any || h) s

/-- A clock is declared live (R63, R74, R81): waiting switches to it start, on an island that is switching when that switch
ends. -/
def clockLives (k : Clk) (s : State) : State :=
  if s.ckp.isLive k then s
  else if !pd1Up s then { s with ckp := s.ckp.setLive k true }
  else
    let c := s.ckp.setLive k true
    let c := { c with iclk := c.iclk.mapIdx fun n (i : Iclk) =>
      if i.waitsrc && sourceClk n i.src == some k && i.sw.isNone then i.begin else i }
    let (c, h) := c.decideRef s
    setCkp c h s

/-! ## Island starts (R68, R84) -/

/-- An island starts on the source and divider its register holds, without a ramp (R68). -/
def Iclk.run (i : Iclk) : Iclk := { i with act := BitVec.ofNat 2 i.src, step := BitVec.ofNat 3 i.div, sw := none, waitsrc := false }

/-- An island stops (R68). -/
def Iclk.stop (i : Iclk) : Iclk := { i with act := 3, step := 0, sw := none, held := none, waitsrc := false, failed := false }

/-- The islands at the end of the CLOCK step (R65, R68): SYS has been switched to NOMINAL divided by 1 whatever its register
holds, and the others start, whether or not the monitor has declared the outputs of the locked PLLs live (log entry 84). -/
def Ckp.startIslands (c : Ckp) : Ckp :=
  { c with iclk := c.iclk.mapIdx fun n (i : Iclk) =>
      if n = 1 then { i with act := 0, step := 0, sw := none, held := none, waitsrc := false }
      else if n = 5 then (if bit c.en 3 then i.run else i)
      else if n = 6 then i
      else i.run }

/-- A write of CKP_EN (R68, R83, R84): ANA follows SNS once the CLOCK step has ended, AUD its bit once PLL_AUD has locked. -/
def Ckp.writeEn (c : Ckp) (v : BitVec 6) (started : Bool) : Ckp :=
  { c with
    en := v
    iclk := c.iclk.mapIdx fun n (i : Iclk) =>
      if n = 5 then (if !bit v 3 then i.stop else if i.act = 3 && started then i.run else i)
      else if n = 6 then (if !bit v 4 then i.stop else if i.act = 3 && bit c.lock 4 then i.run else i)
      else i }

/-- Place of a PLL's lock bit in CKP_SRC 12:8 (Table 3.6). -/
def pllIdx : Pll → Nat
  | .sdw => 0 | .sde => 1 | .core => 2 | .pwm => 3 | .aud => 4

/-- PLL `p` has been started (Table 3.2): a SerDes PLL when FUSE has ended, PLL_CORE and PLL_PWM by the CLOCK step once the XO
has qualified (R65), PLL_AUD by CKP_EN.AUD. -/
def pllStarted (p : Pll) (s : State) : Bool :=
  match p with
  | .sdw | .sde => !beforeFuse s
  | .core | .pwm => s.ckp.xoq && s.mode.code == .boot && s.mode.step == 1 && !s.mode.clkfail
  | .aud => enabled s 4

/-- PLL `p` locks (R62, R68). Whether its outputs are live is the monitor's to say (R63). -/
def Ckp.locks (c : Ckp) (p : Pll) : Ckp :=
  let c := { c with lock := setBit c.lock (pllIdx p) true }
  if p = .aud then c.modIclk 6 fun i => if bit c.en 4 && i.act == 3 then i.run else i else c

/-- The failover hood lifts: VOX, MEWS and PWM run on NOMINAL with DIV 0 and no switch in progress (R78). -/
def Ckp.nominalAgain (c : Ckp) : Bool :=
  [0, 2, 4].all fun n => let i := c.icl n; i.act == 0 && i.step == 0 && i.sw.isNone

/-! ## The commands -/

/-- XOQ_WINDOW (R64, R66). -/
def execXoqWindow (count : BitVec 24) (s : State) : Host.Outcome State Fault Refusal :=
  .next (if comparatorRuns s then
    let (c, lost) := s.ckp.window count
    let (c, h) := c.decideRef s
    setCkp c (lost || h) s
  else s)

/-- REQUAL (R64): the run restarts and XOQ stays. -/
def requal (s : State) : State := if comparatorRuns s then { s with ckp := s.ckp.startRun } else s

/-- REQUAL (R64). -/
def execRequal (s : State) : Host.Outcome State Fault Refusal := .next (requal s)

/-- CLOCK_DEAD (R63). -/
def execClockDead (c : Clk) (s : State) : Host.Outcome State Fault Refusal := .next (clockDies c s)

/-- An RX lane of the port whose recovered clock `k` is holds CDR lock (R61); true of every other clock. -/
def recoveredLocked (k : Clk) (s : State) : Bool :=
  let locked (p : Nat) : Bool := (vget s.lanes.port p {}).rx.any fun r => r.st == .adapt || r.st == .ready
  match k with
  | .crw => locked 0
  | .cre => locked 1
  | _ => true

/-- CLOCK_LIVE (R61, R63). -/
def execClockLive (c : Clk) (s : State) : Host.Outcome State Fault Refusal :=
  .next (if recoveredLocked c s then clockLives c s else s)

/-- A write of CKP_ICLKn; before the CLOCK step ends it is only stored (R68). -/
def writeIclk (n : Nat) (v : Word) (s : State) : State :=
  { s with ckp := s.ckp.writeIclk n v (!coreStarted s) }

/-- ICLK_WRITE (R71). -/
def execIclkWrite (n : Fin 7) (v : Word) (s : State) : Host.Outcome State Fault Refusal :=
  .next (if pd1Up s then writeIclk n v s else s)

/-- CLOCK_DISENGAGE (R71): a falling edge of the old source, in a failover switch too (R78). -/
def execClockDisengage (n : Fin 7) (s : State) : Host.Outcome State Fault Refusal :=
  .next { s with ckp := s.ckp.modIclk n Iclk.disengage }

/-- CLOCK_FORCED (R75, R80): FORCED and FMUX record the mux, and the new source engages. -/
def execClockForced (mux : Fin 8) (s : State) : Host.Outcome State Fault Refusal :=
  .next (if mux = 7 then
    let (c, r) := s.ckp.engageRef true
    setCkp c r s
  else
    let i := s.ckp.icl mux
    if i.sw.any (fun w => !w.engaged && !w.stopped) then
      let c := s.ckp.modIclk mux fun i => i.engage (s.ckp.srcLive mux i.src)
      setCkp { c with forced := true, fmux := BitVec.ofNat 3 mux } true s
    else s)

/-- CLOCK_ENGAGE (R71). -/
def execClockEngage (n : Fin 7) (s : State) : Host.Outcome State Fault Refusal :=
  .next (if (s.ckp.icl n).sw.any (fun w => w.stopped && !w.engaged) then
    { s with ckp := s.ckp.modIclk n fun i => i.engage (s.ckp.srcLive n i.src) }
  else s)

/-- CLOCK_RAMP_STEP (R71). -/
def execClockRampStep (n : Fin 7) (s : State) : Host.Outcome State Fault Refusal :=
  .next { s with ckp := s.ckp.modIclk n fun i => i.ramp (s.ckp.srcLive n i.src) }

/-- A write of CKP_REF.SEL (R79). -/
def refSelect (sel : BitVec 2) (s : State) : State := redecideRef { s with ckp := { s.ckp with refSel := sel } }

/-- REF_SELECT (R79). -/
def execRefSelect (sel : BitVec 2) (s : State) : Host.Outcome State Fault Refusal :=
  .next (if pd1Up s then refSelect sel s else s)

/-- REF_SWITCH_ENGAGE (R80). -/
def execRefSwitchEngage (forced : Bool) (s : State) : Host.Outcome State Fault Refusal :=
  .next (let (c, r) := s.ckp.engageRef forced; setCkp c r s)

/-- PLL_LOCK (R62). -/
def execPllLock (p : Pll) (s : State) : Host.Outcome State Fault Refusal :=
  .next (if pd1Up s && pllStarted p s then { s with ckp := s.ckp.locks p } else s)

end Sys2Proof.Machine
end

