-- ==== Sys2Proof/Machine/Lanes.lean ====
section
/-! DEFINITION. Daril lanes: training, defects, wrap and restore, and the module sideband (R143-R167). -/

namespace Sys2Proof.Machine

/-- Port `p`. -/
def lport (s : State) (p : PortIdx) : LanePort := s.lanes.port[p]

/-- The other port. -/
def otherPort (p : PortIdx) : PortIdx := if p = 0 then 1 else 0

/-- Change port `p`. -/
def modPort (p : PortIdx) (f : LanePort → LanePort) (s : State) : State :=
  { s with lanes := { s.lanes with port := s.lanes.port.set p (f (lport s p)) } }

/-- RX lane `l` of a port. -/
def LanePort.lane (x : LanePort) (l : Fin 2) : RxLane := x.rx[l]

/-- Change RX lane `l` of a port. -/
def LanePort.modLane (x : LanePort) (l : Fin 2) (f : RxLane → RxLane) : LanePort :=
  { x with rx := x.rx.set l (f (x.lane l)) }

/-- RATEMAX. -/
def LanePort.ratemax (x : LanePort) : BitVec 2 := BitVec.ofNat 2 (fld x.lcfg 8 2)

/-- Domain of RX lane `l` of port `p` (Table 6.1). -/
def rxDomain (p : PortIdx) (l : Fin 2) : Nat := 4 + 4 * p.val + l.val
/-- Domain of TX lane `l` of port `p` (Table 6.1). -/
def txDomain (p : PortIdx) (l : Fin 2) : Nat := 6 + 4 * p.val + l.val

/-- Both RX lanes hold CDR lock. -/
def LanePort.lockedBoth (x : LanePort) : Bool := x.rx.all fun r => r.st == .adapt || r.st == .ready

/-- Any RX lane holds CDR lock (Table 2.3). -/
def anyLock (s : State) : Bool := s.lanes.port.any fun x => x.rx.any fun r => r.st == .adapt || r.st == .ready

/-- A lane holds CDR lock. -/
def RxLane.locked? (r : RxLane) : Bool := r.st == .adapt || r.st == .ready

/-- Lane domain `n` works: it is ON, or an island reset of it runs, which keeps the repeat path (R48, R49, R167). -/
def laneOn (s : State) (n : Nat) : Bool :=
  pdOn s n || match s.gate.run with
    | some (.reset, d, _) => d.val == n
    | _ => false

/-! ## The timing ring (R186) -/

/-- Frame timing may be taken from ring `i`: its latest frame is valid and not TURNED. A ring on which no frame has arrived
while two arrived on the other has no latest frame that is valid (R186, R188, log entry 95). -/
def Chn.ringGood (c : Chn) (i : Nat) : Bool :=
  match vget c.last i none with
  | some r => r.valid && !r.turned && decide (r.since < 2)
  | none => false

/-- The timing ring (R186): kept when neither ring is eligible. -/
def timingRing (c : Chn) : Bool :=
  match fld c.cfg 13 2 with
  | 1 => false
  | 2 => true
  | _ => if c.ringGood 0 then false else if c.ringGood 1 then true else c.tring

/-- The timing ring is chosen again, and with it the reference that follows it (R186, R79). -/
def retime (s : State) : State := redecideRef { s with chn := { s.chn with tring := timingRing s.chn } }

/-- Port `p` gives CHN no frames any more: its domain has left ON (R107). -/
def portSilent (p : PortIdx) (s : State) : State :=
  retime { s with chn := { s.chn with last := s.chn.last.set p none } }

/-! ## Defects (R160) -/

/-- Port `p` has a defect other than TRAIN. -/
def hardDefect (s : State) (p : PortIdx) : Bool :=
  let x := lport s p
  x.rx.any (·.los) || !x.lockedBoth || x.alignDef || x.moduleDef || !laneOn s (rxDomain p 0) || !laneOn s (rxDomain p 1)
    || bit x.wrapcfg 0

/-- Port `p` has a defect. -/
def hasDefect (s : State) (p : PortIdx) : Bool := hardDefect s p || (lport s p).trainDef

/-- Port `p` moves to a state: WRAPCNT and WRAP (R164), and the turns that end (R161). The turn of the other port's ring
outlives the move to UP until the next frame of this port's ring (R163). TRAIN is a defect of an UP port only, and none for
ARMED (R160, Table 6.7). -/
def moveTo (p : PortIdx) (st : PortState) (s : State) : State :=
  if (lport s p).state = st then s
  else
    let s := modPort p (fun x => { x with state := st, wrapcnt := satInc x.wrapcnt }) s
    let s := match st with
      | .up | .armed => modPort p (fun x => { x with trainDef := false }) s
      | .isolated => modPort p (fun x => { x with turned := false }) (modPort (otherPort p) (fun x => { x with turned := false }) s)
      | .wrapped => s
    raiseD .wrap p.val s

/-- Where a defect takes its own port (Table 6.7): ISOLATED where the other port has a defect too. A port that is WRAPPED
already becomes ISOLATED when both ports have a defect (Table 6.6, log entry 96). -/
def defectState (st : PortState) (qBad : Bool) : PortState :=
  if st = .isolated then .isolated else if qBad then .isolated else .wrapped

/-- A condition of a CAUSE code, which `f` records, gives port `p` a defect (R160, R161, Table 6.7). The first condition seen
is the one recorded: one of a port that is UP or ARMED, one of a port that had no defect, or the first since reset. A
further condition of a port with a defect moves nothing, save FORCEWRAP. -/
def portDefect (p : PortIdx) (cause : BitVec 3) (f : LanePort → LanePort) (s : State) : State :=
  let q := otherPort p
  let st := (lport s p).state
  let first := (st == .up || st == .armed || !hasDefect s p || (lport s p).cause == 0) && !(st == .armed && cause == 4)
  let s := modPort p f s
  if !first then
    if cause = 7 then moveTo p (if hasDefect s q then .isolated else .wrapped) s else s
  else
    let s := modPort p (fun x => { x with cause := cause }) s
    let dest := if cause = 7 then defectState .wrapped (hasDefect s q) else defectState st (hasDefect s q)
    let s := moveTo p dest s
    match (lport s q).state with
    | .wrapped | .armed => moveTo q .isolated s
    | _ => s

/-! ## Repeat, regeneration, turn (R149-R163) -/

/-- Hop index on the ring that enters port `p` (R157): 0 without a position, and a late one counts as none (R192). -/
def hopIndex (s : State) (p : PortIdx) : Nat :=
  if !s.chn.held || s.chn.late then 0 else if p = 0 then s.chn.pos.toNat else s.chn.npos.toNat + 1 - s.chn.pos.toNat

/-- N_eff (R157). -/
def neff (s : State) (p : PortIdx) : Nat :=
  let r := (lport s p).rgn
  if fld r 8 2 = 0 && s.lanes.neffRecv then s.lanes.neff.toNat else fld r 0 6

/-- The ring that enters port `p` is regenerated here (R157): CHx_RGN.ACTIVE. A late position counts as none (R192), and a
head, which terminates both rings, does not regenerate (R194). -/
def regenerates (s : State) (p : PortIdx) : Bool :=
  let m := fld (lport s p).rgn 8 2
  s.chn.role != 1 && (m == 1 || (m == 0 && s.chn.held && !s.chn.late && hopIndex s p % neff s p == 0) || (lport s p).turned)

/-- The latency that the hop of the ring that enters port `p` adds, as CHx_HOPDLY reports it (R155, R158): that of the
repeat since CDR lock, or, while the ring is regenerated here, one within the bound of R158 that the spec does not fix (log
entry 97). -/
def hopDelay (s : State) (p : PortIdx) : Half :=
  let x := lport s p
  if regenerates s p && (x.repeating || x.turned) then BitVec.ofNat 16 (min (Config.regenDelay x.rate x.hopdly) (if x.rate = 0 then 12348 else 23622))
  else x.hopdly

/-- Port `p` sends TRAIN on both lanes (Table 6.6, R162): after a defect a port that is not UP or ARMED, and the port that the
ring of a defective or ARMED port, or a turned ring, would leave by. One that has had no defect since reset repeats as soon
as the ring that leaves by it has locked (R49, log entry 24). -/
def sendsTrain (s : State) (p : PortIdx) : Bool :=
  let x := lport s p
  let y := lport s (otherPort p)
  x.state == .isolated || (x.state == .wrapped && x.cause != 0) || (y.state == .wrapped && y.cause != 0) || y.state == .armed
    || y.turned

/-- What TX lane `l` of port `p` sends (Table 6.9, R143, R151, R161): 0 off, 1 TRAIN, 2 repeat, 3 regenerate, 4 turn. A turn
sends the lane of this port; a repeat the lane of the other one, from its CDR lock on. -/
def laneSource (s : State) (p : PortIdx) (l : Fin 2) : BitVec 3 :=
  let x := lport s p
  let y := lport s (otherPort p)
  if !laneOn s (txDomain p l) then 0
  else if x.turned then (if (x.lane l).locked? then 4 else 1)
  else if sendsTrain s p || !y.repeating || !(y.lane l).locked? || !laneOn s (rxDomain (otherPort p) l) then 1
  else if regenerates s (otherPort p) then 3
  else 2

/-- TXSRC of port `p`: 0 with both lanes off, else the lesser code of the lanes that are on (log entry 98). -/
def txSource (s : State) (p : PortIdx) : BitVec 3 :=
  let a := laneSource s p 0
  let b := laneSource s p 1
  if a = 0 then b else if b = 0 then a else if a.toNat ≤ b.toNat then a else b

/-! ## The commands -/

/-- The recovered clock of a port. -/
def recovered (p : PortIdx) : Clk := if p = 0 then .crw else .cre

/-- The tap of the port stops: it is no longer aligned (R153). -/
def LanePort.unaligned (x : LanePort) : LanePort := { x with aligned := false, tap := false }

/-- LANE_LOS (R149, R160, R164, R63). A lane that has had no signal since its reset, where LOS stands at 1 already, gives its
port the defect and counts no further event. -/
def execLaneLos (p : PortIdx) (l : Fin 2) (s : State) : Host.Outcome State Fault Refusal :=
  let r := (lport s p).lane l
  .next (if r.st == .off then s
  else if r.los then portDefect p 1 id s
  else
    let f (x : LanePort) : LanePort := { (x.modLane l fun r => { r with los := true, st := .hunt, rate := x.ratemax }).unaligned with
      loscnt := satInc x.loscnt }
    clockDies (recovered p) (portDefect p 1 f (raiseD .los p.val s)))

/-- Lane `l` of a port may lock at a rate: the one it is trying, and the other lane's where that one holds lock (R145,
R150). -/
def LanePort.mayLock (x : LanePort) (l : Fin 2) (rate : BitVec 2) : Bool :=
  let r := x.lane l
  let o := x.lane (1 - l)
  r.st == .hunt && rate == r.rate && rate != 3 && (!o.locked? || o.rate == rate)

/-- A port whose lane `l` reaches CDR lock (R149, R151, R155); a lock shows that a module is present (log entry 24). -/
def LanePort.lock (x : LanePort) (l : Fin 2) (rate : BitVec 2) (hopDly : Half) : LanePort :=
  let r := x.lane l
  { (x.modLane l fun r => { r with los := false, st := .adapt, rate := rate, locked := true }) with
    repeating := true, hopdly := hopDly, hopchg := x.hopchg || r.locked
    relock := if r.locked then satInc x.relock else x.relock, prs := true, moduleDef := false }

/-- LANE_CDR_LOCK (R49, R61, R149-R151, R155): the repeat starts, and the port's recovered clock is live. -/
def execLaneCdrLock (p : PortIdx) (l : Fin 2) (rate : BitVec 2) (hopDly : Half) (s : State) :
    Host.Outcome State Fault Refusal :=
  .next (if laneOn s (rxDomain p l) && (lport s p).mayLock l rate then
    clockLives (recovered p) (modPort p (fun x => x.lock l rate hopDly) s)
  else s)

/-- LANE_LOCK_LOSS (R149, R160). -/
def execLaneLockLoss (p : PortIdx) (l : Fin 2) (s : State) : Host.Outcome State Fault Refusal :=
  .next (if ((lport s p).lane l).locked? then
    portDefect p 2 (fun x => (x.modLane l fun r => { r with st := .hunt, rate := x.ratemax }).unaligned) s
  else s)

/-- LANE_CONVERGED (R149, R153, R144): when both lanes are READY the port is aligned, or has an alignment defect when the
skew cannot be removed. A READY lane of a port that is not aligned may report again. -/
def execLaneConverged (p : PortIdx) (l : Fin 2) (deskewed : Bool) (s : State) : Host.Outcome State Fault Refusal :=
  let r := (lport s p).lane l
  .next (if r.st == .adapt || (r.st == .ready && !(lport s p).aligned) then
    let s := modPort p (fun x => x.modLane l fun r => { r with st := .ready }) s
    let x := lport s p
    if x.rx.all (fun r => r.st == .ready) then
      if deskewed then modPort p (fun x => { x with aligned := true, alignDef := false, rate := (x.lane l).rate }) s
      else portDefect p 3 (fun x => { x.unaligned with alignDef := true }) s
    else s
  else s)

/-- The rate that HUNT tries after `rate` (R150): the next lower one, then RATEMAX again; never one above RATEMAX. -/
def nextRate (ratemax rate : BitVec 2) : BitVec 2 :=
  if rate.toNat < 2 ∧ ratemax.toNat ≤ rate.toNat then rate + 1 else ratemax

/-- LANE_RATE_TIMEOUT (R150). -/
def execLaneRateTimeout (p : PortIdx) (l : Fin 2) (s : State) : Host.Outcome State Fault Refusal :=
  .next (modPort p (fun x => x.modLane l fun r =>
    if r.st = .hunt then { r with rate := nextRate x.ratemax r.rate } else r) s)

/-- A write of RATEMAX (R150): a lane that hunts above it tries RATEMAX. -/
def LanePort.capRates (x : LanePort) : LanePort :=
  { x with rx := x.rx.map fun r => if r.st = .hunt ∧ r.rate.toNat < x.ratemax.toNat then { r with rate := x.ratemax } else r }

/-- MODULE_REMOVED (R160). -/
def execModuleRemoved (p : PortIdx) (s : State) : Host.Outcome State Fault Refusal :=
  .next (portDefect p 5 (fun x => { x with prs := false, moduleDef := true }) s)

/-- FORCEWRAP is written (R160, Table 6.7). -/
def forceWrap (p : PortIdx) (on : Bool) (s : State) : State :=
  let f (x : LanePort) : LanePort := { x with wrapcfg := setBit x.wrapcfg 0 on }
  if on then portDefect p 7 f s else modPort p f s

/-- FORCE_WRAP (R161). -/
def execForceWrap (p : PortIdx) (on : Bool) (s : State) : Host.Outcome State Fault Refusal :=
  .next (if pdOn s (2 + p.val) then forceWrap p on s else s)

/-- TURN_ENGAGE (R163): the ring that enters port `p` is turned while the other port is WRAPPED by a defect, which it may
have had since reset, or ARMED. A head sends nothing on (R193). -/
def execTurnEngage (p : PortIdx) (s : State) : Host.Outcome State Fault Refusal :=
  let q := lport s (otherPort p)
  .next (if (q.state == .wrapped || q.state == .armed) && (q.cause != 0 || hasDefect s (otherPort p)) && !hardDefect s p
      && (lport s p).state != .isolated && s.chn.role != 1 then
    modPort p (fun x => { x with turned := true }) s
  else s)

/-- PORT_ARMED (R161, Table 6.7): the port, WRAPPED or ISOLATED, has been clean for RESTORE frames; an ISOLATED other port
becomes WRAPPED. -/
def execPortArmed (p : PortIdx) (s : State) : Host.Outcome State Fault Refusal :=
  .next (if hardDefect s p || !(lport s p).aligned then s
  else match (lport s p).state with
    | .wrapped | .isolated =>
      let s := moveTo p .armed s
      if (lport s (otherPort p)).state = .isolated then moveTo (otherPort p) .wrapped s else s
    | _ => s)

/-- PORT_UP (R161): valid frames on two consecutive frames, and LOCKOUT = 0. -/
def execPortUp (p : PortIdx) (s : State) : Host.Outcome State Fault Refusal :=
  .next (if (lport s p).state == .armed && !bit (lport s p).wrapcfg 1 then moveTo p .up s else s)

/-- TRAIN_RECEIVED (R160): a defect while the port is UP. -/
def execTrainReceived (p : PortIdx) (s : State) : Host.Outcome State Fault Refusal :=
  .next (if (lport s p).state == .up then portDefect p 4 (fun x => { x with trainDef := true }) s else s)

/-- ALIGNMENT_LOSS (R144, R160). -/
def execAlignmentLoss (p : PortIdx) (s : State) : Host.Outcome State Fault Refusal :=
  .next (portDefect p 3 (fun x => { x.unaligned with alignDef := true }) s)

/-! ## Lane domains (R107, R149, R160) -/

/-- RX lane domain `n` goes ON with FUSE ended: its lane hunts from RATEMAX (Table 6.3). -/
def wakeLane (n : Nat) (s : State) : State :=
  { s with lanes := match rxOfDomain n with
      | some (p, l) => setRx p l (fun r =>
          if r.st = .off then { r with st := .hunt, rate := (vget s.lanes.port p {}).ratemax } else r) s.lanes
      | none => s.lanes }

/-- RX lane domain `n` leaves ON: its lane is OFF with its state lost, its port has a defect (R149, R160, Table 4.1), and
with no lane of the port locked the recovered clock has no source (R61). -/
def stopLane (n : Nat) (s : State) : State :=
  match rxOfDomain n with
  | some (p, l) =>
    let p : PortIdx := if p = 0 then 0 else 1
    let s := portDefect p 6 (fun x => { x with rx := vmod x.rx l fun _ => {} }.unaligned) s
    if (lport s p).rx.any RxLane.locked? then s else clockDies (recovered p) s
  | none => s

/-- The ring logic of a port leaves ON: its tap stops and CHN hears it no more (R107). -/
def stopTap (n : Nat) (s : State) : State :=
  if n = 2 ∨ n = 3 then
    let p : PortIdx := if n = 2 then 0 else 1
    portSilent p (modPort p (fun x => { x with tap := false }) s)
  else s

/-! ## Module sideband (R165) -/

/-- CHx_MSBCMD fields (Table 6.13). -/
def msbFields : List Field := [⟨24, 1, .all, .rw⟩, ⟨17, 7, .all, .rw⟩, ⟨16, 1, .all, .rw⟩, ⟨8, 8, .all, .rw⟩, ⟨0, 8, .all, .rw⟩]

/-- A write of CHx_MSBCMD (R165): GO starts a transaction unless one runs, and clears NACK and TMO (log entry 109). -/
def LanePort.msbWrite (x : LanePort) (v : Word) : LanePort :=
  let y := { x with msbCmd := applyWrite msbFields x.msbCmd v }
  if bit v 31 && !x.msbBusy then { y with msbBusy := true, msbNack := false, msbTmo := false, msbRd := bit v 24 } else y

/-- MSB_GO (R165). -/
def execMsbGo (p : PortIdx) (v : Word) (s : State) : Host.Outcome State Fault Refusal :=
  .next (if pdOn s (2 + p.val) then modPort p (fun x => x.msbWrite v) s else s)

/-- MSB_DONE (R165). -/
def execMsbDone (p : PortIdx) (nack : Bool) (rdata : Byte) (s : State) : Host.Outcome State Fault Refusal :=
  .next (modPort p (fun x =>
    if x.msbBusy then
      { x with msbBusy := false, msbNack := nack, msbRdata := if x.msbRd && !nack then rdata else x.msbRdata }
    else x) s)

/-- MSB_TIMEOUT (R165). -/
def execMsbTimeout (p : PortIdx) (s : State) : Host.Outcome State Fault Refusal :=
  .next (modPort p (fun x => if x.msbBusy then { x with msbBusy := false, msbTmo := true } else x) s)

end Sys2Proof.Machine
end

