-- ==== Sys2Proof/Machine/Kcore.lean ====
section
/-! DEFINITION. Starting, stopping, parking and halting a kestrel, apart from its instructions (R33, R106, R290-R295). -/

namespace Sys2Proof.Machine

/-- Kestrel `k`. -/
def kes (s : State) (k : Nat) : Kestrel := vget s.kst.core k {}

/-- Change kestrel `k`. -/
def modK (k : Nat) (f : Kestrel → Kestrel) (s : State) : State := { s with kst := { s.kst with core := vmod s.kst.core k f } }

/-- Kestrels stand parked in this mode (R292). -/
def Mode.parks : Mode → Bool
  | .muster | .relay => true
  | _ => false

/-- The kestrel is held in reset: stopped under RST = 1, or released in BOOT and waiting for its end (R290, R291). -/
def Kestrel.held (c : Kestrel) : Bool := (c.rst && !c.stopping) || c.startPend

/-- Kestrel `k` can execute its next instruction (R76, R267, R290-R295, Table 2.1): its domain is ON and its
island clocked, nothing holds it. -/
def kReady (s : State) (k : Nat) : Bool :=
  let c := kes s k
  pdOn s (54 + k) && islandUp s 3 && !c.rst && !c.startPend && !c.halted && !c.parked && !c.dfault && !(s.mode.code == .roost)

/-- The registers at a start (R290). -/
def Kestrel.begin (k : Nat) (c : Kestrel) (parked : Bool) : Kestrel :=
  { c with
    rst := false, startPend := false, parked := parked, halted := false, dfault := false, haltReq := false
    stepping := false, stopping := false, parkReq := false, skipBrk := false, pc := c.bootpc, regs := Vector.replicate 16 0, mark := Vector.replicate 16 false
    tentry := 0, intrap := false, tpc := 0, tcause := 0, tinfo := 0, pend := 0, crossed := c.crossing k, sbuf := [], wait := .none }

/-- A WAIT is abandoned: it is executed again on resume (R286). -/
def Kestrel.dropWait (c : Kestrel) : Kestrel :=
  match c.wait with
  | .event _ _ => { c with wait := .none }
  | _ => c

/-- An instruction of kestrel `k` is under way that a stop, a park or a halt must wait for. -/
def Kestrel.inside (c : Kestrel) : Bool :=
  match c.wait with
  | .none | .event _ _ => false
  | _ => true

/-- The kestrel has stopped (R291): buffered entries that crossed stay for their target, the rest are discarded. -/
def Kestrel.stopped (k : Nat) (c : Kestrel) : Kestrel :=
  { c with stopping := false, parked := false, halted := false, dfault := false, sbuf := c.sbuf.filter (·.hasCrossed k) }

/-- RST = 1 is written (R291): the kestrel stops after its current instruction. -/
def Kestrel.stop (k : Nat) (c : Kestrel) : Kestrel :=
  let d : Kestrel := { c.dropWait with
    rst := true, startPend := false, parked := false, parkReq := false, halted := false, dfault := false
    haltReq := false, stepping := false, skipBrk := false }
  if d.inside then { d with stopping := true } else d.stopped k

/-- The gate of kestrel `k` closes (R97, R106): it stops, what has crossed is performed at its target, the rest is
discarded. -/
def Kestrel.cut (k : Nat) (c : Kestrel) : Kestrel :=
  { Kestrel.stop k { c with wait := .none } with sbuf := [], crossed := c.crossing k }

/-- Kestrel `k` enters debug halt with a cause (R293): KHALT is raised and the timers it owns freeze. -/
def debugHalt (k : Nat) (cause : BitVec 3) (s : State) : State :=
  freezeTimers k (raise .khalt (modK k (fun c =>
    { c.dropWait with halted := true, hcause := cause, haltReq := false, stepping := false, skipBrk := false }) s))

/-- DFAULT (R295). -/
def doubleFault (k : Nat) (s : State) : State := modK k (fun c => { c with dfault := true }) (debugHalt k 4 s)

/-- After an instruction of `k` has completed: RST = 1 stops it, a pending park and a pending HALTREQ act, and a STEP halts
again (R291-R294). -/
def afterInstr (k : Nat) (s : State) : State :=
  let c := kes s k
  if c.rst && c.stopping && !c.inside then modK k (Kestrel.stopped k) s
  else if c.halted || c.dfault || c.rst || c.inside then s
  else
  let s := when c.parkReq (modK k fun c => { c with parked := true, parkReq := false }) s
  if c.haltReq then debugHalt k 0 s
  else if c.stepping then debugHalt k 3 s
  else modK k (fun c => { c with skipBrk := false }) s

/-- HALTREQ (R293). -/
def haltRequest (k : Nat) (s : State) : State :=
  let c := kes s k
  if c.rst || c.startPend || c.halted || c.dfault then s
  else if c.inside then modK k (fun c => { c with haltReq := true }) s
  else debugHalt k 0 s

/-- RESUME (R294). -/
def kResume (k : Nat) (s : State) : State :=
  let c := kes s k
  if c.halted && !c.dfault && !c.rst then modK k (fun c => { c with halted := false, stepping := false, skipBrk := true }) s
  else s

/-- STEP (R294). -/
def kStep (k : Nat) (s : State) : State :=
  let c := kes s k
  if c.halted && !c.dfault && !c.rst then modK k (fun c => { c with halted := false, stepping := true, skipBrk := true }) s
  else s

/-- Start of kestrel `k` by RST = 0 (R290): stored in BOOT, parked in MUSTER and RELAY. -/
def kStart (k : Nat) (s : State) : State :=
  modK k (fun c =>
    if s.mode.code = .boot then { c with rst := false, startPend := true }
    else { c.begin k s.mode.code.parks with rst := false }) s

/-- A write of KST_CTRLk (Table 11.7): RST, BRKH, SESS under R6, and the debug controls under R294. -/
def writeKctrl (k : Nat) (v : Word) (s : State) : State :=
  let rst := bit v 31
  let was := (kes s k).rst
  let s := modK k (fun c =>
    { c with brkh := bit v 27, sess := if rst then BitVec.ofNat 4 (fld v 0 4) else c.sess }) s
  if rst then (if was then s else modK k (Kestrel.stop k) s)
  else
    let s := if was then kStart k s else s
    if bit v 30 then haltRequest k s
    else if bit v 28 then kStep k s
    else if bit v 29 then kResume k s
    else s

/-- The kestrels park on entry to MUSTER or RELAY, each after its current instruction; a WAIT is abandoned (R33, R286,
R292). -/
def parkAll (s : State) : State :=
  { s with kst := { s.kst with core := s.kst.core.mapIdx fun k c =>
      if c.rst then c
      else if c.startPend then c.begin k true
      else if c.inside then { c with parkReq := true }
      else { c.dropWait with parked := true } } }

/-- The kestrels resume, and those released from reset in BOOT start (R33, R290). -/
def unparkAll (s : State) : State :=
  { s with kst := { s.kst with core := s.kst.core.mapIdx fun k c =>
      if c.rst then c else if c.startPend then c.begin k false else { c with parked := false, parkReq := false } } }

/-! ## The commands -/

/-- KESTREL_START (R290): a write of KST_CTRLk with RST = 0. -/
def execKestrelStart (k : KIdx) (v : Word) (s : State) : Host.Outcome State Fault Refusal :=
  .next (if pdOn s (54 + k) then writeKctrl k (setBit v 31 false) s else s)

/-- KESTREL_RESET (R291): a write of KST_CTRLk with RST = 1. -/
def execKestrelReset (k : KIdx) (v : Word) (s : State) : Host.Outcome State Fault Refusal :=
  .next (if pdOn s (54 + k) then writeKctrl k (setBit v 31 true) s else s)

/-- HALT_REQUEST (R293). -/
def execHaltRequest (k : KIdx) (s : State) : Host.Outcome State Fault Refusal :=
  .next (if pdOn s (54 + k) then haltRequest k s else s)

/-- KESTREL_RESUME (R294). -/
def execKestrelResume (k : KIdx) (s : State) : Host.Outcome State Fault Refusal :=
  .next (if pdOn s (54 + k) then kResume k s else s)

/-- KESTREL_STEP (R294): the next instruction of the kestrel is the one it executes. -/
def execKestrelStep (k : KIdx) (s : State) : Host.Outcome State Fault Refusal :=
  .next (if pdOn s (54 + k) then kStep k s else s)

/-- The breakpoint that matches the PC about to execute (R293, R294). -/
def Kestrel.atBreak (c : Kestrel) : Bool :=
  !c.skipBrk && c.brk.any fun b => bit b 31 && fld b 2 12 == c.pc.toNat / 4

/-- BREAKPOINT_HALT (R293). -/
def execBreakpointHalt (k : KIdx) (s : State) : Host.Outcome State Fault Refusal :=
  .next (if kReady s k && decide ((kes s k).wait = .none) && (kes s k).atBreak then debugHalt k 1 s else s)

end Sys2Proof.Machine
end

