-- ==== Sys2Proof/Machine/Gating.lean ====
section
/-! DEFINITION. The island gate controller as commands and mode entries share it: refusals, closing, opening, and the
domains that a mode entry switches one after the other (R90-R102, Tables 2.4, 4.3-4.7). -/

namespace Sys2Proof.Machine

/-- The code of a command (Table 4.3). -/
def GateCmd.code : GateCmd → Nat
  | .nop => 0 | .down => 1 | .up => 2 | .reset => 3 | .update => 4 | .reopen => 5

/-- The command of a code; 6 and 7 act as NOP. -/
def GateCmd.ofCode : Nat → GateCmd
  | 1 => .down | 2 => .up | 3 => .reset | 4 => .update | 5 => .reopen | _ => .nop

/-- The domain that PD names; 67-127 act as 0 (Table 4.6). -/
def gateDomain (pd : BitVec 7) : Fin 67 := if h : pd.toNat < 67 then ⟨pd.toNat, h⟩ else 0

/-- SRC of an issuer (Table 4.7); the debug port has no code there, and what SRC then reads is free (log entry 41). -/
def gateSrc (r : Requester) (n : Nat) : BitVec 3 :=
  match r with
  | .window w => BitVec.ofNat 3 w.val
  | .kestrel k => BitVec.ofNat 3 (2 + k.val)
  | .mgmt => 6
  | .mode => 7
  | .jtag => (Config.freeWord n).setWidth 3

/-- A RESULT is set for a command: SRC, CMD and PD name it, and GATE is raised (R114, log entry 42). -/
def gateResult (res : BitVec 4) (c : GateCmd) (r : Requester) (n : Fin 67) (s : State) : State :=
  raise .gate { s with
    gate := { s.gate with result := res, src := gateSrc r s.free, cmd := BitVec.ofNat 3 c.code, pdReg := BitVec.ofNat 7 n.val }
    free := if r = .jtag then s.free + 1 else s.free }

/-- The state of a domain. -/
def pdState (s : State) (n : Fin 67) : PdState := s.gate.pd[n]

/-! ## Refusals (R92) -/

/-- A command is refused for RULE. -/
def gateRule (s : State) (c : GateCmd) (r : Requester) (n : Fin 67) : Bool :=
  n.val == 0
  || (n.val == 1 && (c == .down || c == .update))
  || (n.val == 66 && c == .update)
  || (c == .update && match r with | .kestrel k => n.val == 54 + k.val | _ => false)
  || (pdState s n == .off && (c == .reset || c == .reopen))

/-- A command is refused for MODE. A command of the debug port is held to it as a window's is (log entry 41). -/
def gateMode (s : State) (r : Requester) (n : Fin 67) : Bool :=
  r != .mode && (s.mode.busy || match s.mode.code with
    | .roost | .dormant | .boot => true
    | .muster | .relay => modeDomain n.val
    | _ => false)

/-! ## Closing (R95-R102) -/

/-- The gate of domain `n` has closed under command `c`: it issues nothing more and its outputs idle (R97, R100, R106,
Table 4.1). A lane that goes down, or is held for update, stops; an island reset does not interrupt the repeat path (R48,
R49, R167, Table 2.5). -/
def gateCloses (c : GateCmd) (n : Nat) (s : State) : State :=
  let s := if 54 ≤ n ∧ n ≤ 57 then modK (n - 54) (Kestrel.cut (n - 54)) s else s
  let s := stopTap n (if c = .reset then s else stopLane n s)
  if n = 62 then { s with pix := s.pix.cutOff }
  else if n = 65 then { s with dmx := { s.dmx with port := s.dmx.port.map fun p => { p with txBusy := false } } }
  else s

/-- A command closes an ON domain: an eyrie waits for a migration and is vacated, any other domain's gate closes (R95). It is
TRANSIT from here on, and a new request into it ends ABSENT also before its gate closes (R99, log entry 83). -/
def startClose (c : GateCmd) (r : Requester) (n : Fin 67) (s : State) : State :=
  let s : State := { s with gate := { setPd n .transit s.gate with run := some (c, n, r), busy := true, phase := 3 } }
  if 13 ≤ n.val ∧ n.val ≤ 44 then
    if s.epoch.mig then { s with gate := { s.gate with phase := 1 } } else beginVacate (n.val - 13) s
  else gateCloses c n s

/-- The gate of a domain has opened: a lane trains again (R149), PD1 chooses its reference again (R79), and the voices of an
eyrie are FREE (Table 9.9). -/
def gateOpens (n : Nat) (s : State) : State := if n = 1 then redecideRef s else reachOn n (wakeLane n s)

/-- The updater of a domain is forgotten. -/
def dropUpdater (n : Nat) (s : State) : State :=
  { s with gate := { s.gate with updater := s.gate.updater.filter (·.1 != n) } }

/-- The reset of a domain is asserted (R98, R106, R110): a reset of PD1 ends DLINK traffic, and the D-die hoods. -/
def assertReset (n : Nat) (s : State) : State :=
  let s := resetDomain n s
  if n = 1 then
    { s with drv := { s.drv with linkloss := true, lhood := true }, pix := s.pix.cutOff
             dmx := { s.dmx with port := s.dmx.port.map fun p => { p with txBusy := false } } }
  else s

/-- The command proceeds to its switching step. -/
def startSwitch (c : GateCmd) (r : Requester) (n : Fin 67) (phase : BitVec 3) (s : State) : State :=
  { s with gate := { setPd n .transit s.gate with run := some (c, n, r), busy := true, phase := phase } }

/-- Table 4.3, for a command that is not refused. A power-up shows PHASE 5 from its acceptance to its end: Table 4.7 gives it
4 switching and 5 initialising, and no rule says when each shows (log entry 77). -/
def gateAct (c : GateCmd) (r : Requester) (n : Fin 67) (s : State) : State :=
  match pdState s n, c with
  | .on, .down | .on, .reset | .on, .update => startClose c r n s
  | .on, _ => gateResult 1 c r n s
  | .off, .up | .off, .update => startSwitch c r n 5 s
  | .off, _ => gateResult 1 c r n s
  | .closed, .down => startSwitch c r n 4 (dropUpdater n s)
  | .closed, .reset => startSwitch c r n 4 (assertReset n (dropUpdater n s))
  | .closed, .update => gateResult 1 c r n s
  | .closed, _ => gateResult 1 c r n (gateOpens n { dropUpdater n s with gate := setPd n .on (dropUpdater n s).gate })
  | .transit, _ => s

/-! ## The domains of a mode entry (R37, R90, R93, Table 2.4) -/

/-- What the entry in progress has still to switch, in the order of R90: PD45 to PD13 down for MUSTER and RELAY, PD13 to
PD45 up for SHOW, SOLO and SERVICE, PD66 to PD1 down for DORMANT. -/
def entryTodo (s : State) : List (GateCmd × Fin 67) :=
  let ups := ((List.finRange 67).filter fun n => modeDomain n.val && s.gate.pd[n] != .on).map fun n => (GateCmd.up, n)
  let downs (q : Nat → Bool) := ((List.finRange 67).reverse.filter fun n => q n.val && s.gate.pd[n] != .off).map fun n =>
    (GateCmd.down, n)
  if !s.mode.busy then []
  else match s.mode.code with
    | .muster | .relay => if s.mode.from_.active then downs modeDomain else []
    | .show | .solo | .service => if s.mode.from_.active then [] else ups
    | .dormant => downs (· != 0)
    | _ => []

/-- What follows when the domains of an entry are switched (Table 2.4): the kestrels resume, and the MODE hood lifts, at
the next frame boundary for SHOW and at once for SOLO; nothing is hooded between SHOW and SOLO. -/
def entryLast (s : State) : State :=
  let s1 := if s.mode.code.active && !s.mode.from_.active then unparkAll s else s
  match s.mode.code with
  | .show => if s.mode.from_ = .solo then s1 else { s1 with drv := { s1.drv with liftAtFrame := true } }
  | .solo => { s1 with drv := { s1.drv with modeHood := false, liftAtFrame := false } }
  | _ => s1

/-- The entry in progress goes on while no gate command runs: its next domain is switched, and after the last its other
actions follow (R37, R90). -/
def entryGoes (s : State) : State :=
  if s.mode.busy && !s.gate.busy then
    let t := (entryTodo s).foldl (fun s c => if s.gate.busy then s else gateAct c.1 .mode c.2 s) s
    if !t.gate.busy && (entryTodo t).isEmpty then entryLast t else t
  else s

/-- The command in progress is over: `st` is the domain's state (R95). A mode entry in progress goes on. -/
def gateFinish (st : PdState) (s : State) : State :=
  match s.gate.run with
  | some (c, n, r) =>
    entryGoes (gateResult 1 c r n { s with gate := { setPd n st s.gate with run := none, busy := false, phase := 0 } })
  | none => s

end Sys2Proof.Machine
end

