-- ==== Sys2Proof/Machine/Roost.lean ====
section
/-! DEFINITION. The roost: what a save captures, how a slot is programmed and torn, and what ROOSTCHK finds and restores
(R402-R409). -/

namespace Sys2Proof.Machine

/-! ## Capture (R404, Tables 16.4, 16.9) -/

/-- A fault-log entry in memory (Table 16.4). -/
def LogEntry.bytes (e : LogEntry) : List Byte :=
  leBytes 8 e.ctime.toNat ++ [e.cause, BitVec.ofNat 8 e.mode.toNat, e.rep, 0] ++ leBytes 4 e.detail.toNat
    ++ List.replicate 16 0

/-- Entry `i` of the log as MGT_FLOG numbers it: HEAD is the place of the next entry. -/
def Mgt.logSlot (m : Mgt) (i : Nat) : Option LogEntry :=
  let n := m.log.length
  let j := (i + 63 - (m.logHead.toNat + 63 - n) % 63) % 63
  if j < n then m.log[j]? else none

/-- The bytes of entry `i`, zeros where there is none. -/
def Mgt.logBytes (m : Mgt) (i : Nat) : List Byte :=
  match m.logSlot i with
  | some e => e.bytes
  | none => List.replicate 32 0

/-- The fault-log image of a slot, offsets 0x1800-0x1FFF (R405). -/
def logImage (m : Mgt) : List Byte :=
  let head := leBytes 2 m.log.length ++ leBytes 2 m.logHead.toNat ++ leBytes 4 m.logTotal.toNat ++ List.replicate 20 0
  let body := (List.range 63).flatMap m.logBytes
  head ++ leBytes 4 (crc32c (head ++ body)) ++ body

/-- The user block: poisoned words and words that end ABSENT are saved as 0; the flag says that a word was poisoned. -/
def userBlock (s : State) : List Byte × Bool :=
  if bit s.ros.cfg 1 then
    let ws := (List.range 32).map fun i =>
      let a := s.ros.uaddr.toNat + 8 * i
      let on := match memOf a with | some t => pdOn s (memDomain t) | none => false
      let (d, p) := memData s a
      (if on && !p then d else 0, on && p)
    (ws.flatMap fun w => leBytes 8 w.1.toNat, ws.any (·.2))
  else (List.replicate 256 0, false)

/-- What reading the user block does to the memory and its counters. -/
def userBlockEffect (s : State) : State :=
  match memOf s.ros.uaddr.toNat with
  | some t => if bit s.ros.cfg 1 && pdOn s (memDomain t) then readWordsEffect 9 s.ros.uaddr.toNat 32 s else s
  | none => s

/-- The saved bytes of the pixel ports, before the limit of 5,324 (log entry 25). -/
def pixBytes (s : State) : List Byte :=
  s.pix.port.toList.flatMap fun x =>
    (List.range (savedBytes x.cfg)).map fun i =>
      let d := x.data.getD i 0
      BitVec.ofNat 8 (if bit (vget x.act 0 0) 28 then d.toNat / 256 else d.toNat)

/-- The record of a save without its CRC, offsets 0x0000-0x17FB (Table 16.9). -/
def recordBody (s : State) : List Byte :=
  let (user, upois) := userBlock s
  let px := (pixBytes s).take 5324
  let body :=
    leBytes 4 0x54534F52 ++ leBytes 2 1
    ++ leBytes 2 (s.mode.saveFrom.num + 8 * s.mode.saveReq.toNat + 16 * upois.toNat)
    ++ leBytes 4 (if s.ros.hasH then s.ros.seq.toNat + 1 else 1)
    ++ [BitVec.ofNat 8 (fld s.ros.cfg 0 1), 0] ++ leBytes 2 px.length ++ leBytes 8 s.mode.saveTime.toNat
    ++ leBytes 4 s.mgt.mseq.toNat ++ leBytes 4 (if bit s.ros.cfg 1 then s.ros.uaddr.toNat else 0) ++ List.replicate 32 0
    ++ (List.range 64).flatMap (fun n => leBytes 4 (vget (vget s.emt.fl (n / 16) {}).ch (n % 16) {}).level.toNat)
    ++ (List.range 16).flatMap (fun n => leBytes 2 (vget s.aou.ch n {}).code.toNat)
    ++ (List.range 64).map (fun n => BitVec.ofNat 8 (fld (drvEm s n).cfg 0 8))
    ++ (List.range 4).flatMap (fun f =>
        let l := vget s.emt.fl f {}
        leBytes 4 l.fcfg.toNat ++ leBytes 4 l.gang.toNat ++ leBytes 4 l.en.toNat ++ leBytes 4 0)
    ++ (List.range 16).map (fun n =>
        BitVec.ofNat 8 (fld (vget s.drv.ao n {}).cfg 30 2 * 64 + (enabled s 1).toNat))
    ++ (List.range 4).flatMap (fun p =>
        let x := vget s.pix.port p {}
        leBytes 4 x.cfg.toNat ++ leBytes 4 x.clk.toNat ++ leBytes 4 x.ref.toNat ++ leBytes 4 x.latch.toNat)
    ++ user ++ px
  slice body 0 0x17FC

/-- The 8 KiB image of a slot: the record, its CRC and the fault log (R405). -/
def slotImage (s : State) : List Byte :=
  let r := recordBody s
  r ++ leBytes 4 (crc32c r) ++ logImage s.mgt

/-- The capture of a save completes: the buffer of PD66 holds the image and every output is hooded (Tables 2.1, 16.8). -/
def capturePart (s : State) : State :=
  let t := userBlockEffect s
  { t with
    mode := { t.mode with captured := true }
    ros := { t.ros with buffer := slotImage s }
    drv := { t.drv with modeHood := true, liftAtFrame := false } }

/-! ## Programming a slot (R405) -/

/-- The slot that the next save writes. -/
def nextSlot (r : Ros) : Nat := if r.hasH then (r.hslot.toNat + 1) % 32 else 0

/-- The first `n` words of the buffer stored in slot `k`; with `erase` the rest of the slot is erased. -/
def programWords (k n : Nat) (erase : Bool) (r : Ros) : Ros :=
  let base := k * 1024
  let kept := if erase then r.store.filter fun c => !(base ≤ c.1 && c.1 < base + 1024) else r.store
  { r with store := cputs erasedCell kept base (((packWords r.buffer).take n).map cleanCode) }

/-- A save programs its slot to the end. -/
def programSlot (r : Ros) : Ros :=
  let k := nextSlot r
  { programWords k 1024 true r with
    hslot := BitVec.ofNat 5 k, seq := if r.hasH then r.seq + 1 else 1, hasH := true, buffer := [] }

/-- A power-on reset stops a save: how many words were programmed, and whether the others were erased, is open
(log entry 26). -/
def tearSlot (s : State) : State :=
  if s.mode.code = .roost ∧ s.mode.captured then
    let w := Config.freeWord s.free
    { s with ros := programWords (nextSlot s.ros) (fld w 0 10) (bit w 31) s.ros, free := s.free + 1 }
  else s

/-! ## ROOSTCHK (R406) -/

/-- `n` bytes at offset `o` of slot `k`, as reads of the store deliver them. -/
def slotBytes (r : Ros) (k o n : Nat) : List Byte :=
  (List.range n).map fun i =>
    let a := k * 8192 + o + i
    BitVec.ofNat 8 ((roostData r a).1.toNat / 2 ^ (a % 8 * 8))

/-- The little-endian number at offset `o` of slot `k`. -/
def slotNum (r : Ros) (k o n : Nat) : Nat := leNat (slotBytes r k o n)

/-- The slot's MAGIC is correct. -/
def slotMagic (r : Ros) (k : Nat) : Bool := slotNum r k 0 4 == 0x54534F52

/-- Some word of the record area of slot `k` is uncorrectable (R314). -/
def slotBad (r : Ros) (k : Nat) : Bool :=
  r.store.any fun c => decide (k * 1024 ≤ c.1) && decide (c.1 < k * 1024 + 768) && (roostData r (8 * c.1)).2

/-- Slot `k` holds a valid record (R406). -/
def slotValid (r : Ros) (k : Nat) : Bool :=
  slotMagic r k && slotNum r k 4 2 == 1 && !slotBad r k && crc32c (slotBytes r k 0 0x17FC) == slotNum r k 0x17FC 4

/-- SEQ of slot `k`. -/
def slotSeq (r : Ros) (k : Nat) : Nat := slotNum r k 8 4

/-- The slot of a list with the highest SEQ; the lower slot of two that are equal. -/
def highest (r : Ros) : List Nat → Option Nat
  | [] => none
  | k :: ks =>
    match highest r ks with
    | none => some k
    | some j => if slotSeq r j ≤ slotSeq r k then some k else some j

/-- What ROOSTCHK finds: the valid slots, the newest of them, and the torn slots (R406). -/
structure RoostFound where
  valid : List Nat
  newest : Option Nat
  torn : List Nat

/-- ROOSTCHK looks at every slot (R406). -/
def findSlots (r : Ros) : RoostFound :=
  let valid := (List.range 32).filter (slotValid r)
  let newest := highest r valid
  let torn := (List.range 32).filter fun k =>
    slotMagic r k && !valid.contains k && match newest with | some j => slotSeq r j < slotSeq r k | none => true
  { valid := valid, newest := newest, torn := torn }

/-- Bits of a list of slots. -/
def slotMask (l : List Nat) : Word := BitVec.ofNat 32 ((l.map fun k => 2 ^ k).sum)

/-- The reads of ROOSTCHK count in the ECC block: every word of the store that is not erased is read once (R308, R314). -/
def checkReads (r : Ros) (e : Ecc) : Ecc := r.store.foldl (fun e c => roostReadEffect 9 (8 * c.1) r e) e

/-- The results in ROS and HB_ROOSTST; the highest SEQ found, valid or torn, is that of slot h (R405, R406). -/
def foundRos (f : RoostFound) (r : Ros) : Ros :=
  let h := highest r ((List.range 32).filter fun k => f.valid.contains k || f.torn.contains k)
  { r with
    valid := slotMask f.valid, torn := slotMask f.torn, stValid := f.newest.isSome, stTorn := !f.torn.isEmpty
    cold := f.newest.isNone, slot := BitVec.ofNat 5 (f.newest.getD 0), hasH := h.isSome
    hslot := BitVec.ofNat 5 (h.getD 0)
    seq := match h with | some k => BitVec.ofNat 32 (slotSeq r k) | none => 0 }

/-! ## Restore (R407) -/

/-- A fault-log entry of the image of slot `k` (Table 16.4). -/
def readLogEntry (r : Ros) (k i : Nat) : LogEntry :=
  let o := 0x1820 + 32 * i
  { ctime := BitVec.ofNat 64 (slotNum r k o 8), cause := BitVec.ofNat 8 (slotNum r k (o + 8) 1)
    mode := BitVec.ofNat 3 (slotNum r k (o + 9) 1), rep := BitVec.ofNat 8 (slotNum r k (o + 10) 1)
    detail := BitVec.ofNat 32 (slotNum r k (o + 12) 4) }

/-- The log CRC of slot `k` passes (R405). -/
def logCrcOk (r : Ros) (k : Nat) : Bool :=
  crc32c (slotBytes r k 0x1800 0x1C ++ slotBytes r k 0x1820 2016) == slotNum r k 0x181C 4

/-- The entries saved in slot `k`, oldest first. -/
def savedLog (r : Ros) (k : Nat) : List LogEntry :=
  let n := min (slotNum r k 0x1800 2) 63
  let head := slotNum r k 0x1802 2 % 63
  (List.range n).map fun j => readLogEntry r k ((head + 63 - n + j) % 63)

/-- MGT_MSEQ and the fault log from slot `k`; the entries of the present boot follow the restored ones (log entry 27). -/
def restoreMgt (r : Ros) (k : Nat) (m : Mgt) : Mgt :=
  let old := if logCrcOk r k then savedLog r k else []
  let all := old ++ m.log
  let total := if logCrcOk r k then slotNum r k 0x1804 4 else 0
  let head := if logCrcOk r k then slotNum r k 0x1802 2 else 0
  { m with
    mseq := BitVec.ofNat 32 (slotNum r k 0x18 4), log := all.drop (all.length - 63)
    logTotal := BitVec.ofNat 16 (total + m.logTotal.toNat)
    logHead := BitVec.ofNat 6 ((head + m.log.length) % 63) }

/-- The saved look of slot `k` (Table 16.9). -/
def readLook (r : Ros) (k : Nat) : Look :=
  { emlvl := Vector.ofFn fun n => BitVec.ofNat 20 (slotNum r k (0x40 + 4 * n.val) 4)
    aocode := Vector.ofFn fun n => BitVec.ofNat 16 (slotNum r k (0x140 + 2 * n.val) 2)
    used := BitVec.ofNat 16 (((List.range 16).map fun n => slotNum r k (0x1E0 + n) 1 % 2 * 2 ^ n).sum)
    pixdata := slotBytes r k 0x330 (min (slotNum r k 0x0E 2) 5324)
    pixcfg := Vector.ofFn fun p => BitVec.ofNat 32 (slotNum r k (0x1F0 + 16 * p.val) 4) }

/-- The user block of slot `k` goes back to its address (R407). -/
def restoreUser (k : Nat) (s : State) : State :=
  let a := slotNum s.ros k 0x1C 4
  match memOf a with
  | some t =>
    if t < 8 && pdOn s (memDomain t) then writeWords a (packWords (slotBytes s.ros k 0x230 256)) s else s
  | none => s

/-- The registers of a look: ISET, FLIGHT, AOSTG and PIXCFG, with the peripherals they need (R407). -/
def restoreRegs (k : Nat) (s : State) : State :=
  let r := s.ros
  let num := slotNum r k
  let look := readLook r k
  let en := setBit (setBit s.ckp.en 1 (bit s.ckp.en 1 || look.used != 0)) 2
    (bit s.ckp.en 2 || look.pixcfg.any fun w => bit w 31)
  { s with
    ckp := s.ckp.writeEn en (coreStarted s)
    drv := { s.drv with
      em := s.drv.em.mapIdx fun n (e : DrvEm) => { e with cfg := setFld e.cfg 0 8 (num (0x160 + n) 1) }
      ao := s.drv.ao.mapIdx fun n (a : DrvAo) => { a with cfg := setFld a.cfg 30 2 (num (0x1E0 + n) 1 / 64) } }
    emt := { s.emt with fl := s.emt.fl.mapIdx fun f (l : Flight) =>
      { l with fcfg := BitVec.ofNat 32 (num (0x1A0 + 16 * f) 4), gang := BitVec.ofNat 32 (num (0x1A4 + 16 * f) 4)
               en := BitVec.ofNat 16 (num (0x1A8 + 16 * f) 4) } }
    pix := { s.pix with port := s.pix.port.mapIdx fun p (x : PixPort) =>
      { x with cfg := BitVec.ofNat 32 (num (0x1F0 + 16 * p) 4), clk := BitVec.ofNat 32 (num (0x1F4 + 16 * p) 4)
               ref := BitVec.ofNat 32 (num (0x1F8 + 16 * p) 4), latch := BitVec.ofNat 32 (num (0x1FC + 16 * p) 4) } }
    ros := { r with look := true, saved := look } }

/-- The boots that apply the restore policy and the user block (R407). -/
def policyBoot (b : BitVec 3) : Bool := b == 0 || b == 4 || b == 5

/-- The restore policy of slot `k` (R407). -/
def restorePolicy (k : Nat) (s : State) : State :=
  let s := restoreUser k s
  if slotNum s.ros k 0x0C 1 = 1 then raise .roost (restoreRegs k s)
  else { s with ros := { s.ros with rhood := true } }

/-- ROOSTCHK (R406, R407). -/
def roostCheck (s : State) : State :=
  let f := findSlots s.ros
  let s1 : State := { s with
    ros := foundRos f s.ros, ecc := checkReads s.ros s.ecc, mode := { s.mode with roostvalid := f.newest.isSome } }
  let s1 := when (!f.torn.isEmpty) (raise .roost) s1
  match f.newest with
  | none => { s1 with mgt := { s1.mgt with mseq := 0 } }
  | some k =>
    let s2 : State := { s1 with mgt := restoreMgt s.ros k s1.mgt }
    if policyBoot s.mode.bcause then restorePolicy k s2 else s2

/-! ## The end of a look (R408) -/

/-- LOOK and RHOOD end. -/
def endLook (s : State) : State := { s with ros := { s.ros with look := false, rhood := false } }

end Sys2Proof.Machine
end

