-- ==== Sys2Proof/Machine/Modes.lean ====
section
/-! DEFINITION. The mode controller: triggers, entry actions, requests, resets, wake, BOOT and ROOST (02_modes_reset_boot.md,
R402-R408). -/

namespace Sys2Proof.Machine

/-! ## Small conditions -/

/-- Running modes: those that a sag or a request for ROOST leaves (Table 2.2). -/
def Mode.running : Mode → Bool
  | .muster | .relay | .show | .solo | .service => true
  | _ => false

/-- The SHOW condition (R36): a position that COUNT gave counts from the END that latches it (R191). -/
def showCondition (s : State) : Bool := s.chn.held && s.chn.fixed && s.chn.framesNow && s.chn.lock

/-- The device is a head candidate (R193). -/
def candidate? (s : State) : Bool := bit s.head.cfg 15

/-- RESULT of HB_MODE takes a code (Table 2.7); MODE is raised when it changes (R42, Table 5.4). -/
def setResult (r : BitVec 2) (s : State) : State :=
  when (s.mode.result != r) (raise .mode) { s with mode := { s.mode with result := r } }

/-! ## Head role at a MUSTER entry (R193, R194) -/

/-- A head starts a count (R191): MEPOCH moves on and COUNT frames with CMD = REMUSTER follow. -/
def startCount (s : State) : State :=
  { s with
    chn := { s.chn with mepoch := s.chn.mepoch + 1, mustering := true }
    head := { s.head with counting := true, cmd := 1, countRun := 0, hellos := [], assigned := [], ownRun := 0
                          probing := false, probeKnown := false } }

/-- A device that enters MUSTER as a candidate takes the head role and starts a count; one that lost an election does so
again only after a host request (R193, R194). A head that is no candidate any more gives the role and position 0 up
(log entry 31). -/
def takeRole (src : ModeSrc) (s : State) : State :=
  if candidate? s && (s.chn.role != 2 || src == .host) then
    when (s.chn.huid != Config.uid) (raise .ring) (startCount
      { s with
        chn := { s.chn with role := 1, huid := Config.uid, held := true, fixed := true, pos := 0, late := false, lock := true }
        lanes := { s.lanes with port := s.lanes.port.map fun p => { p with repeating := false } } })
  else if s.chn.role = 1 then
    raise .ring { s with
      chn := { s.chn with role := 0, held := false, fixed := false, huid := 0, lock := false, lockRun := 0 }
      lanes := { s.lanes with port := s.lanes.port.map fun p => { p with repeating := p.rx.any fun r => r.st != .off && r.st != .hunt } } }
  else s

/-! ## Entering a mode (R37, Table 2.4) -/

/-- The outputs are hooded by the MODE source. -/
def hoodMode (s : State) : State := { s with drv := { s.drv with modeHood := true, liftAtFrame := false } }

/-- Voices end, session queues are flushed uncounted, kestrels park (R33, R34). -/
def quiet (s : State) : State :=
  parkAll { s with
    vox := endVoices s.vox
    dis := { s.dis with sess := s.dis.sess.map (fun x => { x with queue := [] }), reads := [], params := [] } }

/-- What the trigger of an entry to `m` from `f` does at once (Table 2.4, R32, R313). -/
def entryActions (f m : Mode) (src : ModeSrc) (s : State) : State :=
  match m with
  | .muster => takeRole src
      { (quiet (hoodMode s)) with
        chn := { s.chn with mustering := true } }
  | .relay => endLook (quiet (hoodMode s))
  | .service => endLook (if f.parks || f == .boot then s else hoodMode s)
  | .dormant => hoodMode { s with vox := endVoices s.vox }
  | _ => s

/-- A transition to `m` starts from source `src` (R37): the code changes at the trigger and BUSY is set
(log entry 28); its first domain begins to switch unless a gate command runs (R90, R94). -/
def enterMode (m : Mode) (src : ModeSrc) (s : State) : State :=
  let f := s.mode.code
  let s1 : State := { s with
    mode := { s.mode with code := m, busy := true, tsrc := src, from_ := f
                          step := s.mode.step, done := s.mode.done || f == .boot }
    ecc := if f = .service then { s.ecc with flipctl := setBit s.ecc.flipctl 31 false } else s.ecc }
  entryGoes (redecideRef (entryActions f m src s1))

/-- A trigger of Table 2.2, in the modes it is listed for (R35). -/
def takeTrigger (t : Trigger) (s : State) : State :=
  match t, s.mode.code with
  | .lost, .muster | .lost, .show => enterMode .relay .ring s
  | .remuster, .relay | .remuster, .show => enterMode .muster .ring s
  | .candidate, .solo => if bit s.mode.bootcfg 10 then enterMode .muster .device s else s
  | _, _ => s

/-- A trigger acts at once, or when BUSY clears (R35, R39). -/
def trigger (t : Trigger) (s : State) : State :=
  if s.mode.busy then { s with mode := { s.mode with held := s.mode.held ++ [t] } } else takeTrigger t s

/-- The triggers that waited for BUSY act in the order of precedence of R40. -/
def heldTriggers (s : State) : State :=
  [Trigger.lost, .remuster, .candidate].foldl (fun t x => if s.mode.held.contains x then trigger x t else t)
    { s with mode := { s.mode with held := [] } }

/-- The entry's actions are not done: a gate command runs, a domain is still to be switched, or SHOW waits for the frame
boundary at which it unhoods (R37, Table 2.4). -/
def entryWaits (s : State) : Bool :=
  s.gate.busy || !(entryTodo s).isEmpty || (s.mode.code == .show && s.mode.from_ != .solo && s.drv.liftAtFrame)

/-- MODE_TRANSITION_DONE (R31, R37, R42): SHOW and SOLO leave the outputs driven (Table 2.1). Then what waited for BUSY
acts: a held commit (R262) and held triggers (R39). -/
def transitionDone (s : State) : State :=
  let driven := s.mode.code == .show || s.mode.code == .solo
  heldTriggers (acceptHeld (raise .mode { s with
    mode := { s.mode with busy := false, src := s.mode.tsrc }
    drv := { s.drv with modeHood := s.drv.modeHood && !driven } }))

/-- MODE_TRANSITION_DONE (R37). -/
def execModeTransitionDone (s : State) : Host.Outcome State Fault Refusal :=
  .next (if s.mode.busy && !entryWaits s then transitionDone s else s)

/-! ## ROOST (R402, R404) -/

/-- ROOST is entered (R41, R402, Table 16.8): a pending request ends REFUSED, a transition in progress is abandoned with the
domains as they stand, and a migration stops (R266). A gate command in progress runs to its end state first (R94); one
that waited for the migration goes on (log entry 82). Reference switching follows the mode (R79). -/
def enterRoost (req : Bool) (src : ModeSrc) (s : State) : State :=
  let s1 := when (s.mode.pend || s.mode.mgmtReq.isSome) (setResult 2) s
  redecideRef (leaveEpochWait { s1 with
    mode := { s1.mode with code := .roost, busy := true, tsrc := src, from_ := s.mode.code, pend := false, mgmtReq := none
                           held := [], saveReq := req, saveFrom := s.mode.code, saveTime := s.chn.ctime, captured := false }
    epoch := { s1.epoch with mig := false, snap := false, held := false }
    drv := { s1.drv with liftAtFrame := false }
    ecc := { s1.ecc with flipctl := setBit s1.ecc.flipctl 31 false } })

/-- SAG (R402): in BOOT it starts no save (R58). -/
def execSag (s : State) : Host.Outcome State Fault Refusal :=
  .next (if s.mode.inPor then s
  else if s.mode.code = .boot then { s with mode := { s.mode with rstcause := setBit s.mode.rstcause 6 true } }
  else if s.mode.code.running then enterRoost false .device s
  else s)

/-- ROOST_CAPTURE_DONE (R404). -/
def execRoostCaptureDone (s : State) : Host.Outcome State Fault Refusal :=
  .next (if s.mode.code == .roost && !s.mode.busy && !s.mode.captured then capturePart s else s)

/-- SAVE_END (R404, R46, R51): the slot is programmed; with power-good BOOT follows, with RST_N low by a pin reset, and
without power-good DORMANT. -/
def execSaveEnd (powerGood rstLow : Bool) (s : State) : Host.Outcome State Fault Refusal :=
  .next (if s.mode.code == .roost && s.mode.captured then
    let s := { s with ros := programSlot s.ros }
    if rstLow then resetState .pin 1 1 s
    else if powerGood then resetState .pin 4 4 s
    else
      let t := enterMode .dormant .device { s with lanes := { s.lanes with port := s.lanes.port.map fun p => { p with repeating := false } } }
      { t with mode := { t.mode with roostSleep := true } }
  else s)

/-! ## Requests (R38-R40, R57) -/

/-- A request for code `c` is admitted in the current mode (Table 2.3). -/
def admits (s : State) (c : Mode) : Bool :=
  let m := s.mode.code
  match c with
  | .dormant => m == .solo && !anyLock s
  | .boot => false
  | .muster | .relay | .service | .roost | .solo => m.running
  | .show => m.running && (m == .show || showCondition s)

/-- A host request writes HB_MODE_REQ (R38); in BOOT only SOLO and SERVICE wait, any other is REFUSED at once (R57); in
ROOST and DORMANT the write is discarded (R117, R118). -/
def hostRequest (c : Mode) (s : State) : State :=
  if s.mode.inPor || s.mode.code == .roost || s.mode.code == .dormant then s
  else
    let s := when s.mode.pend (setResult 3) s
    let s := { s with mode := { s.mode with pend := true, pcode := BitVec.ofNat 3 c.num } }
    if s.mode.code = .boot ∧ c ≠ .solo ∧ c ≠ .service then setResult 2 { s with mode := { s.mode with pend := false } }
    else s

/-- A management request for code `c` (R40, Table 16.2). PEND, PCODE and SUPERSEDED are described for writes of HB_MODE_REQ
only: the model keeps a management request apart, and a second one before its evaluation replaces the first without a
RESULT (log entry 72). -/
def mgmtRequest (c : BitVec 3) (s : State) : State := { s with mode := { s.mode with mgmtReq := some c } }

/-- An evaluated request (R39): RESULT is set, and an accepted one for another mode starts its transition. -/
def evalRequest (c : Mode) (src : ModeSrc) (s : State) : State :=
  if admits s c then
    let s := setResult 1 s
    if c = s.mode.code then s
    else if c = .roost then enterRoost true src s
    else
      let s := enterMode c src s
      if c = .dormant then { s with mode := { s.mode with roostSleep := false } } else s
  else setResult 2 s

/-- MODE_REQUEST_EVAL (R39, R40): a management request displaces a host request. In BOOT a held request is evaluated at
the end of ROOSTCHK, or at once in RINGWAIT (R57, log entry 29). -/
def evalPending (s : State) : State :=
  if s.mode.busy || s.mode.inPor || s.mode.code == .dormant || s.mode.code == .roost then s
  else if s.mode.code = .boot then
    if s.mode.pend ∧ s.mode.step = 5 then
      enterMode (Mode.ofNum s.mode.pcode.toNat) .host (setResult 1 { s with mode := { s.mode with pend := false } })
    else s
  else match s.mode.mgmtReq with
    | some c =>
      let s := when s.mode.pend (setResult 3) { s with mode := { s.mode with mgmtReq := none, pend := false } }
      evalRequest (Mode.ofNum c.toNat) .mgmt s
    | none =>
      if s.mode.pend then evalRequest (Mode.ofNum s.mode.pcode.toNat) .host { s with mode := { s.mode with pend := false } }
      else s

/-- MODE_REQUEST_EVAL (R39). -/
def execModeRequestEval (s : State) : Host.Outcome State Fault Refusal := .next (evalPending s)

/-! ## Triggers of the ring and the device (Table 2.2) -/

/-- SHOW_CONDITION (R36): MUSTER is left for SHOW or, with AUTOSHOW = 0, for RELAY. SRC records RING (log entry 70). -/
def execShowCondition (s : State) : Host.Outcome State Fault Refusal :=
  .next (if s.mode.code == .muster && !s.mode.busy && showCondition s then
    enterMode (if bit s.mode.bootcfg 11 then .show else .relay) .ring s
  else s)

/-- Frames or a candidate end RINGWAIT and, with AUTOMUSTER, frames leave SOLO (R56, Table 2.2). SRC records DEVICE for the
end of RINGWAIT and RING for SOLO (log entry 70). -/
def ringTriggers (s : State) : State :=
  if s.mode.busy then s
  else if s.mode.code = .boot ∧ s.mode.step = 5 then
    (if s.chn.framesNow || candidate? s then enterMode .muster .device s else s)
  else if s.mode.code = .solo ∧ bit s.mode.bootcfg 10 ∧ s.chn.framesNow then enterMode .muster .ring s
  else s

/-- A write of CHN_HEAD with EN going to 1 (R193, Table 2.2): SOLO moves to MUSTER with AUTOMUSTER, and RINGWAIT ends. SRC
records DEVICE (log entry 70). -/
def candidateTrigger (s : State) : State :=
  if s.mode.code = .boot ∧ s.mode.step = 5 then enterMode .muster .device s else trigger .candidate s

/-! ## Resets (R43-R51) -/

/-- POWER_ON_RESET (R43): a rail is below its threshold; the device is held in reset. -/
def execPowerOnReset (s : State) : Host.Outcome State Fault Refusal :=
  .next (let t := resetState .por 0 0 (tearSlot s); { t with mode := { t.mode with inPor := true } })

/-- POWER_GOOD (R43): the rails have been good for 100 us and BOOT begins. -/
def execPowerGood (s : State) : Host.Outcome State Fault Refusal :=
  .next (if s.mode.inPor then { s with mode := { s.mode with inPor := false } } else s)

/-- PIN_RESET (R44, R51): RST_N was low for `lowNs`; between 100 ns and 1 us the device may do either. -/
def execPinReset (lowNs : Nat) (s : State) : Host.Outcome State Fault Refusal :=
  .next (if s.mode.inPor || s.mode.code == .roost || decide (lowNs < 100) then s
  else if lowNs < 1000 then
    let t := { s with free := s.free + 1 }
    if Config.shortPulseResets s.free then resetState .pin 1 1 t else t
  else resetState .pin 1 1 s)

/-- A soft reset (R45, R50). -/
def softReset (keep : Bool) (s : State) : State :=
  if s.mode.inPor || s.mode.code == .roost || s.mode.code == .dormant then s
  else resetState (if keep then .softKeep else .soft) 2 2 s

/-- An owl reset (R45): a soft reset with KEEP = 0. -/
def owlReset (s : State) : State := resetState .soft 3 3 s

/-! ## Wake (R53) -/

/-- The device wakes from DORMANT into BOOT, a transition that is complete at once (R42, R53, Table 2.2); D-die registers
and the mode registers of Table 2.7 are kept (log entry 30). A wake condition that comes while the entry to DORMANT is
still BUSY has no effect and is not held (log entry 73). -/
def wake (s : State) : State :=
  if s.mode.code == .dormant && !s.mode.busy && !s.mode.inPor then
    raise .mode { s with
      mode := { s.mode with code := .boot, from_ := .dormant, step := 0, done := false, clkfail := false, memfail := false
                            scanskip := false, roostvalid := false, kept := false, keepBoot := false, bcause := 5
                            src := .device, tsrc := .device
                            roostSleep := false, rstcause := setBit s.mode.rstcause 5 true }
      owl := { s.owl with count := BitVec.ofNat 16 (fld s.owl.cfg 0 7 * 64) } }
  else s

/-- WAKE_HCS (R53, R117): the access reads 0x0000 and its write is discarded. -/
def execWakeHcs (s : State) : Host.Outcome State Fault Refusal :=
  .next (if s.mode.code == .dormant then wake { s with host := { s.host with hd := 0 } } else s)

/-- WAKE_GP0 (R53): in DORMANT with WAKEEN = 1, GP0 has been at the level of WAKEPOL for 1 us, which wakes the device. The row
is that occasion: at the other level there is none (log entry 110). -/
def execWakeGp0 (s : State) : Host.Outcome State Fault Refusal :=
  .next (if bit s.mode.bootcfg 9 && s.mode.code == .dormant then
    wake { s with pins := { s.pins with gp0 := bit s.mode.bootcfg 8 } }
  else s)

/-- WAKE_POWER_GOOD (R53). -/
def execWakePowerGood (s : State) : Host.Outcome State Fault Refusal :=
  .next (if s.mode.roostSleep then wake s else s)

/-! ## BOOT (R54-R57) -/

/-- BOOT stands in step `n`. -/
def inStep (s : State) (n : BitVec 4) : Bool := s.mode.code == .boot && s.mode.step == n && !s.mode.inPor

/-- The step register moves. -/
def toStep (n : BitVec 4) (s : State) : State := { s with mode := { s.mode with step := n } }

/-- The domains at the end of FUSE (Table 2.1, R88): after a power-on reset or a wake they are powered up, after any other
reset they were never switched. Where MEMTEST does not run, a domain it failed before stays OFF (R312). -/
def fuseDomains (s : State) : State :=
  let p (n : Nat) : Bool := n != 0 && !modeDomain n && !(s.mode.keepBoot && failedDomain s n)
  if s.mode.bcause = 0 ∨ s.mode.bcause = 5 then powerUpAll p s
  else { s with gate := mapPd (fun n x => if p n then .on else x) s.gate }

/-- The lanes begin to train (R54, R149). -/
def startLanes (s : State) : State := (List.range 67).foldl (fun s n => if (rxOfDomain n).isSome then wakeLane n s else s) s

/-- FUSE_DONE (R54, R390, R391): the fuses are loaded, the reset is logged, the comparator starts its run. -/
def execFuseDone (s : State) : Host.Outcome State Fault Refusal :=
  .next (if inStep s 0 then
    let s := startLanes (fuseDomains s)
    toStep 1 { s with
      mgt := logEvent (32 + s.mode.bcause.toNat) 0 s.chn.ctime .boot { s.mgt with mkey := Config.mkey }
      ckp := s.ckp.startRun }
  else s)

/-- WIRESCAN begins (R55, R339): with VFIELD low it is skipped. -/
def startWirescan (s : State) : State :=
  if s.pins.vfield then toStep 3 (beginScan s)
  else toStep 4 { s with mode := { s.mode with scanskip := true } }

/-- CLOCK_STEP_DONE (R65, R68): the XO has qualified and PLL_CORE and PLL_PWM have locked. After CLKFAIL only a reset
leaves the step (R55). -/
def execClockStepDone (s : State) : Host.Outcome State Fault Refusal :=
  .next (if inStep s 1 && !s.mode.clkfail && s.ckp.xoq && bit s.ckp.lock 2 && bit s.ckp.lock 3 then
    let s := redecideRef { s with ckp := s.ckp.startIslands }
    if s.mode.keepBoot then startWirescan { s with mode := { s.mode with kept := true } } else toStep 2 s
  else s)

/-- CLOCK_STEP_FAIL (R55): no reference has qualified within 40 ms. -/
def execClockStepFail (s : State) : Host.Outcome State Fault Refusal :=
  .next (if inStep s 1 && !s.ckp.xoq then { s with mode := { s.mode with clkfail := true } } else s)

/-- MEMTEST_DONE (R311, R312): every memory is zero; failed memories are recorded and powered down. -/
def execMemtestDone (banks : BitVec 8) (kests : BitVec 4) (addr : Word) (s : State) : Host.Outcome State Fault Refusal :=
  .next (if inStep s 2 then
    let bad := banks != 0 || kests != 0
    let s := { s with
      mem := {}
      gate := { s.gate with failed := kests ++ banks }
      ecc := { s.ecc with fail := banks, kfail := kests, bistaddr := if bad then addr else 0 }
      mode := { s.mode with memfail := bad } }
    startWirescan (powerDownAll (fun n =>
      (decide (46 ≤ n) && decide (n ≤ 53) && bit banks (n - 46)) || (decide (54 ≤ n) && decide (n ≤ 57) && bit kests (n - 54))) s)
  else s)

/-- SCAN_COMPLETE (R340): in BOOT the WIRESCAN step ends. -/
def execScanComplete (s : State) : Host.Outcome State Fault Refusal :=
  .next (if s.drv.scanBusy && s.drv.scanPos == 64 then
    let t := scanComplete s
    if inStep s 3 then toStep 4 t else t
  else s)

/-- The device leaves BOOT after ROOSTCHK, or waits in RINGWAIT (R56, R57). SRC records HOST for a held request and DEVICE
for every other exit (log entry 70). -/
def leaveBoot (s : State) : State :=
  if s.mode.pend then
    enterMode (Mode.ofNum s.mode.pcode.toNat) .host (setResult 1 { s with mode := { s.mode with pend := false } })
  else if s.chn.framesNow || candidate? s then enterMode .muster .device s
  else if s.ros.look then enterMode .solo .device s
  else s

/-- ROOSTCHK_DONE (R406, R56). STEP goes to 5 also when BOOT is left at once and no wait runs (log entry 71). -/
def execRoostchkDone (s : State) : Host.Outcome State Fault Refusal :=
  .next (if inStep s 4 then leaveBoot (toStep 5 (roostCheck s)) else s)

/-- RINGWAIT_END (R56): 15 waits without limit. -/
def execRingwaitEnd (s : State) : Host.Outcome State Fault Refusal :=
  .next (if inStep s 5 && fld s.mode.bootcfg 12 4 != 15 then
    enterMode (if s.chn.framesNow || candidate? s then .muster else .solo) .device s
  else s)

/-- VFIELD_PRESENT (R414): VFIELD rises to its present threshold or falls below it. -/
def execVfieldPresent (present : Bool) (s : State) : Host.Outcome State Fault Refusal :=
  .next { s with pins := { s.pins with vfield := present } }

end Sys2Proof.Machine
end

