-- ==== Sys2Proof/Machine/Signature.lean ====
section
/-! DEFINITION. The signature check that R394 names: ECDSA on the curve P-256 (FIPS 186-4) over the SHA-256 digest
(FIPS 180-4) of the signed bytes (log entry 2). -/

namespace Sys2Proof.Machine

/-! ## SHA-256 -/

/-- The 64 round constants, eight to a row, the first the most significant. -/
def shaRows : List Nat :=
  [0x428A2F9871374491B5C0FBCFE9B5DBA53956C25B59F111F1923F82A4AB1C5ED5,
   0xD807AA9812835B01243185BE550C7DC372BE5D7480DEB1FE9BDC06A7C19BF174,
   0xE49B69C1EFBE47860FC19DC6240CA1CC2DE92C6F4A7484AA5CB0A9DC76F988DA,
   0x983E5152A831C66DB00327C8BF597FC7C6E00BF3D5A7914706CA635114292967,
   0x27B70A852E1B21384D2C6DFC53380D13650A7354766A0ABB81C2C92E92722C85,
   0xA2BFE8A1A81A664BC24B8B70C76C51A3D192E819D6990624F40E3585106AA070,
   0x19A4C1161E376C082748774C34B0BCB5391C0CB34ED8AA4A5B9CCA4F682E6FF3,
   0x748F82EE78A5636F84C878148CC7020890BEFFFAA4506CEBBEF9A3F7C67178F2]

/-- The words of a number of `8 * 32` bits, most significant first. -/
def words8 (x : Nat) : List Nat := (List.range 8).map fun i => x >>> (32 * (7 - i)) % 2 ^ 32

/-- The hash value before the first block. -/
def shaInit : List Nat := words8 0x6A09E667BB67AE853C6EF372A54FF53A510E527F9B05688C1F83D9AB5BE0CD19

/-- A word rotated to the right. -/
def rotr (n x : Nat) : Nat := (x >>> n ||| x <<< (32 - n)) % 2 ^ 32

/-- The exclusive or of two rotations and a third term. -/
def sigma (a b x third : Nat) : Nat := rotr a x ^^^ rotr b x ^^^ third

/-- The 64 words of the message schedule of a block of 16. -/
def shaSchedule (m : List Nat) : List Nat :=
  (List.range 48).foldl (fun w i =>
    let x := w.getD (i + 1) 0
    let y := w.getD (i + 14) 0
    w ++ [(w.getD i 0 + sigma 7 18 x (x >>> 3) + w.getD (i + 9) 0 + sigma 17 19 y (y >>> 10)) % 2 ^ 32]) m

/-- One round on the eight working words, with its constant and word of the schedule. -/
def shaRound (v : List Nat) (kw : Nat × Nat) : List Nat :=
  match v with
  | [a, b, c, d, e, f, g, h] =>
    let ch := (e &&& f) ^^^ ((2 ^ 32 - 1 - e) &&& g)
    let t1 := h + sigma 6 11 e (rotr 25 e) + ch + kw.1 + kw.2
    let t2 := sigma 2 13 a (rotr 22 a) + ((a &&& b) ^^^ (a &&& c) ^^^ (b &&& c))
    [(t1 + t2) % 2 ^ 32, a, b, c, (d + t1) % 2 ^ 32, e, f, g]
  | _ => v

/-- The hash value after one block. -/
def shaBlock (h m : List Nat) : List Nat :=
  let v := ((shaRows.flatMap words8).zip (shaSchedule m)).foldl shaRound h
  List.zipWith (fun x y => (x + y) % 2 ^ 32) h v

/-- A message with its padding: a one bit, zeros, and its length in bits. -/
def shaPad (msg : List Byte) : List Byte :=
  msg ++ 0x80 :: List.replicate ((119 - msg.length % 64) % 64) 0 ++ beBytes 8 (8 * msg.length)

/-- The hash value after the first `n` blocks of padded bytes. -/
def shaBlocks : Nat → List Byte → List Nat → List Nat
  | 0, _, h => h
  | n + 1, bs, h => shaBlocks n (bs.drop 64) (shaBlock h ((List.range 16).map fun i => beNat (slice (bs.take 64) (4 * i) 4)))

/-- The digest of a message, as a number. -/
def sha256 (msg : List Byte) : Nat :=
  let p := shaPad msg
  (shaBlocks (p.length / 64) p shaInit).foldl (fun a x => a * 2 ^ 32 + x) 0

/-! ## The curve -/

/-- The prime of the field. -/
def curveP : Nat := 0xFFFFFFFF00000001000000000000000000000000FFFFFFFFFFFFFFFFFFFFFFFF

/-- The order of the base point. -/
def curveN : Nat := 0xFFFFFFFF00000000FFFFFFFFFFFFFFFFBCE6FAADA7179E84F3B9CAC2FC632551

/-- The base point. -/
def curveG : Nat × Nat :=
  (0x6B17D1F2E12C4247F8BCE6E563A440F277037D812DEB33A0F4A13945D898C296,
   0x4FE342E2FE1A7F9B8EE7EB4A7C0F9E162BCE33576B315ECECBB6406837BF51F5)

/-- A power modulo `m` of an exponent below 2^256, by squaring from its highest bit. -/
def powMod (x e m : Nat) : Nat :=
  (List.range 256).foldl (fun a i => (if e.testBit (255 - i) then a * a % m * x else a * a) % m) 1

/-- The inverse modulo a prime. -/
def invMod (x m : Nat) : Nat := powMod (x % m) (m - 2) m

/-- A difference in the field. -/
def subP (a b : Nat) : Nat := (a + (curveP - b % curveP)) % curveP

/-- The third point on the line of slope `l` through two points, mirrored. -/
def chord (l : Nat) (a b : Nat × Nat) : Nat × Nat :=
  let x := subP (subP (l * l) a.1) b.1
  (x, subP (l * subP a.1 x) a.2)

/-- The sum of two points; none is the point at infinity. -/
def addPoint : Option (Nat × Nat) → Option (Nat × Nat) → Option (Nat × Nat)
  | none, q => q
  | p, none => p
  | some a, some b =>
    if a.1 = b.1 then
      if (a.2 + b.2) % curveP = 0 then none
      else some (chord ((3 * a.1 * a.1 + (curveP - 3)) % curveP * invMod (2 * a.2) curveP % curveP) a a)
    else some (chord (subP b.2 a.2 * invMod (subP b.1 a.1) curveP % curveP) a b)

/-- A point times a number below 2^256. -/
def mulPoint (k : Nat) (p : Nat × Nat) : Option (Nat × Nat) :=
  (List.range 256).foldl (fun a i =>
    let d := addPoint a a
    if k.testBit (255 - i) then addPoint d (some p) else d) none

/-- A signature of a digest verifies under a public key. -/
def ecdsaVerifies (key : Nat × Nat) (digest r s : Nat) : Bool :=
  if r = 0 ∨ s = 0 ∨ curveN ≤ r ∨ curveN ≤ s then false
  else
    let w := invMod s curveN
    match addPoint (mulPoint (digest * w % curveN) curveG) (mulPoint (r * w % curveN) key) with
    | none => false
    | some p => p.1 % curveN == r

end Sys2Proof.Machine
end

