-- ==== Sys2Proof/Machine/Content.lean ====
section
/-! DEFINITION. What the management engine does with cells and content: the command queue, BULK chunks, the content
engine, keys and the fault log (R382, R387, R390-R395). -/

namespace Sys2Proof.Machine

/-! ## The command queue (R382, R387) -/

/-- Management and BULK cells are taken in this mode (R382). -/
def takesMgmt (s : State) : Bool :=
  match s.mode.code with
  | .roost | .dormant | .boot => false
  | _ => true

/-- A downstream MGMT cell (R382, R387): FORM 4 enters the queue of 8, any other FORM counts BADFORM. -/
def queueCommand (c : CellBytes) (s : State) : State :=
  if !takesMgmt s then s
  else if cellAux c / 256 % 16 ≠ 4 then { s with mgt := { s.mgt with badform := satInc s.mgt.badform } }
  else if 8 ≤ s.mgt.queue.length then { s with mgt := { s.mgt with cdrop := satInc s.mgt.cdrop } }
  else { s with mgt := { s.mgt with queue := s.mgt.queue ++ [c.toList.take 68] } }

/-! ## Memory copies of the engine -/

/-- A 64-bit write of the engine to mews; it ends ABSENT while the bank is not ON. -/
def mewsWrite (a : Nat) (d : Quad) (s : State) : State :=
  match memOf a with
  | some t => if t < 8 && pdOn s (memDomain t) then write64 a d (slideReads s) else s
  | none => s

/-- 64-bit writes of bytes to mews. -/
def mewsWrites (a : Nat) : List Quad → State → State
  | [], s => s
  | d :: ds, s => mewsWrites (a + 8) ds (mewsWrite a d s)

/-- `n` bytes of mews from `a` as the engine reads them: the bytes, whether a word was poisoned, whether one was ABSENT. -/
def engineRead (s : State) (a n : Nat) : List Byte × Bool × Bool :=
  let (bs, bad) := memBytes s a n
  let absent := (List.range ((n + 7) / 8)).any fun i =>
    match memOf (a + 8 * i) with
    | some t => !pdOn s (memDomain t)
    | none => true
  (bs, bad, absent)

/-! ## BEGIN and BULK (R393) -/

/-- Number of 56-byte chunks of an image. -/
def chunkCount (len : Nat) : Nat := (len + 55) / 56

/-- The engine is checking or activating (R384, BUSY). -/
def contentBusy (m : Mgt) : Bool := m.cstate == 2 || m.cstate == 4

/-- LEN of a BEGIN, brought into the range of its register (log entry 32). -/
def legalLen (len : Nat) : Nat := clampN 128 1048576 len

/-- BEGIN is admitted (R393). -/
def beginAllowed (m : Mgt) (len : Nat) : Bool :=
  (m.cstate == 0 || m.cstate == 5 || m.cstate == 6) && decide (m.cstage.toNat + chunkCount (legalLen len) * 56 ≤ 0x01400000)

/-- BEGIN with arguments (R393). -/
def contentStart (cid : Word) (len : Nat) (m : Mgt) : Mgt :=
  { m with cid := cid, len := legalLen len, chunks := [], cstate := 1, reason := 0, unsigned := false, abort := false }

/-- CHECK starts (R394). -/
def checkStart (m : Mgt) : Mgt := { m with cstate := 2, reason := 0, unsigned := false }

/-- A BULK cell (R393). -/
def bulkChunk (c : CellBytes) (s : State) : State :=
  if !takesMgmt s then s
  else
    let m := s.mgt
    let off := payNum c 4 4
    if m.cstate = 1 ∧ payNum c 0 4 = m.cid.toNat ∧ off % 56 = 0 ∧ off < m.len then
      let data := (List.range 56).map fun i => payByte c (8 + i)
      let s := mewsWrites (m.cstage.toNat + off) (packWords data) s
      let chunks := if m.chunks.contains (off / 56) then m.chunks else off / 56 :: m.chunks
      let m := { s.mgt with chunks := chunks }
      { s with mgt := if chunks.length = chunkCount m.len then checkStart m else m }
    else { s with mgt := { m with bulkdrop := satInc m.bulkdrop } }

/-! ## CHECK (R392, R394) -/

/-- A section entry of an image (R392). -/
structure Section where
  type : Nat
  tgt : Nat
  off : Nat
  len : Nat
  dest : Nat
  deriving DecidableEq, Repr

/-- The sections of an image's bytes. -/
def sectionsOf (img : List Byte) : List Section :=
  (List.range (leNat (slice img 6 2))).map fun i =>
    let o := 0x80 + 16 * i
    { type := leNat (slice img o 1), tgt := leNat (slice img (o + 1) 1), off := leNat (slice img (o + 4) 4)
      len := leNat (slice img (o + 8) 4), dest := leNat (slice img (o + 12) 4) }

/-- TYPE and TGT of a section are legal (R392). -/
def Section.legal (x : Section) : Bool :=
  match x.type with
  | 1 => x.tgt < 4
  | 2 => true
  | 3 => x.tgt < 8
  | 4 => true
  | _ => false

/-- The image fails with FORMAT (R394). -/
def badFormat (img : List Byte) (len : Nat) : Bool :=
  let nsec := leNat (slice img 6 2)
  leNat (slice img 0 4) != 0x4D494C59 || leNat (slice img 4 2) != 1 || decide (nsec < 1) || decide (16 < nsec)
    || leNat (slice img 8 4) != len || !((sectionsOf img).all fun x => x.legal && decide (x.off + x.len ≤ len))

/-- The signature verifies (R394). -/
def signed (img : List Byte) (len : Nat) : Bool :=
  ecdsaVerifies (Config.publicKey (leNat (slice img 0x10 1))) (sha256 (slice img 0 0x40 ++ slice img 0x80 (len - 0x80)))
    (beNat (slice img 0x40 32)) (beNat (slice img 0x60 32))

/-- The outcome of CHECK: the reason of a failure, none for READY; the reasons are tried in the order of R394, a read that
ends ABSENT first (log entry 33). -/
def checkReason (m : Mgt) (img : List Byte) (bad absent : Bool) : Option (BitVec 3) :=
  if absent then some 5
  else if badFormat img m.len then some 1
  else if leNat (slice img 0xC 4) < m.ivmin.toNat then some 3
  else if bad then some 4
  else if !signed img m.len && Config.sigreq then some 2
  else none

/-- CHECK ends (R394). -/
def checkEnd (s : State) : State :=
  let m := s.mgt
  let (img, bad, absent) := engineRead s m.cstage.toNat m.len
  let r := checkReason m img bad absent
  let uns := !absent && !badFormat img m.len && decide (m.ivmin.toNat ≤ leNat (slice img 0xC 4)) && !bad && !signed img m.len
  let s := if absent then s else readWordsEffect 8 m.cstage.toNat ((m.len + 7) / 8) s
  raise .mgmt { s with mgt := { s.mgt with
    cstate := if r.isSome then 6 else 3, reason := r.getD 0, unsigned := uns
    iver := if absent then m.iver else BitVec.ofNat 32 (leNat (slice img 0xC 4)) } }

/-- CONTENT_CHECK_DONE (R394). -/
def execContentCheckDone (s : State) : Host.Outcome State Fault Refusal :=
  .next (if s.mgt.cstate = 2 then checkEnd s else s)

/-! ## ACTIVATE (R395, R296) -/

/-- Merged byte writes of a tail shorter than a word. -/
def tailWrites (src : BitVec 4) (a : Nat) : List Byte → State → State
  | [], s => s
  | b :: bs, s => tailWrites src (a + 1) bs (mergedWrite src a 1 (b.setWidth 32) false s)

/-- Bytes written from an 8-byte aligned address: whole words at once, the tail merged. -/
def copyBytes (a : Nat) (bs : List Byte) (s : State) : State :=
  let n := bs.length / 8 * 8
  tailWrites 8 (a + n) (bs.drop n) (writeWords a (packWords (bs.take n)) s)

/-- A cue-code section that a loader does not refuse (R296, Table 11.6). -/
def cueLegal (k : Nat) (b : List Byte) : Bool :=
  let codelen := leNat (slice b 0x0C 4)
  let scrlen := leNat (slice b 0x10 4)
  leNat (slice b 0 4) == 0x4354534B && leNat (slice b 4 2) == 1 && bit (BitVec.ofNat 16 (leNat (slice b 6 2))) k
    && codelen % 4 == 0 && decide (4 ≤ codelen) && decide (codelen ≤ 16384) && decide (scrlen ≤ 4096)
    && decide (0x20 + codelen + scrlen ≤ b.length) && crc32c (slice b 0x20 (codelen + scrlen)) == leNat (slice b 0x14 4)

/-- The loading sequence of R296 for kestrel `k`; a refused section is not loaded (log entry 34). -/
def loadCue (k : Nat) (b : List Byte) (s : State) : State :=
  if cueLegal k b && pdOn s (54 + k) then
    let sess := leNat (slice b 0x0A 1) % 16
    let codelen := leNat (slice b 0x0C 4)
    let s := writeKctrl k (BitVec.ofNat 32 (0x80000000 + sess)) s
    let s := copyBytes (0x00700000 + k * 0x4000) (slice b 0x20 codelen) s
    let s := copyBytes (0x00710000 + k * 0x1000) (slice b (0x20 + codelen) (leNat (slice b 0x10 4))) s
    let s := modK k (fun c => { c with bootpc := BitVec.ofNat 14 (leNat (slice b 8 2) / 4 * 4) }) s
    writeKctrl k (BitVec.ofNat 32 sess) s
  else s

/-- 2,048 bytes into stage curve `c` (R392, R325). -/
def loadCurve (c : Nat) (b : List Byte) (s : State) : State :=
  if pdOn s 58 then
    { s with epoch := { s.epoch with stage := { s.epoch.stage with
        curves := cputs identityPoint s.epoch.stage.curves (1024 * c)
          ((List.range 1024).map fun i => BitVec.ofNat 16 (leNat (slice b (2 * i) 2))) } } }
  else s

/-- The block that a section is copied into takes it: its domain is ON (R386; log entry 33). -/
def sectionLands (x : Section) (s : State) : Bool :=
  let mews (a : Nat) : Bool := (List.range ((x.len + 7) / 8)).all fun i =>
    match memOf (a + 8 * i) with
    | some t => t < 8 && pdOn s (memDomain t)
    | none => false
  match x.type with
  | 1 => pdOn s (54 + x.tgt)
  | 2 => mews (0x01000000 + x.dest * 0x100000)
  | 3 => pdOn s 58
  | _ => mews x.dest

/-- The bytes that a section is copied from (R392, R395): a CURVE has 2,048 bytes whatever its LENGTH says, PATCH and DATA are
copied by 64-bit words (log entry 33). -/
def Section.bytes (x : Section) : Nat :=
  match x.type with
  | 1 => x.len
  | 3 => 2048
  | _ => (x.len + 7) / 8 * 8

/-- One section is copied (R392, R395); the reason of the failure when a word of it was read with poison, or when a read or a
write ends ABSENT (log entry 33). -/
def copySection (base : Nat) (x : Section) (s : State) : State × Option (BitVec 3) :=
  let (b, bad, absent) := engineRead s (base + x.off) x.bytes
  if absent then (s, some 5)
  else
    let s := readWordsEffect 8 (base + x.off) ((x.bytes + 7) / 8) s
    if bad then (s, some 4)
    else
      (match x.type with
        | 1 => loadCue x.tgt b s
        | 2 => mewsWrites (0x01000000 + x.dest * 0x100000) (packWords b) s
        | 3 => loadCurve x.tgt b s
        | 4 => mewsWrites x.dest (packWords b) s
        | _ => s,
       if sectionLands x s then none else some 5)

/-- Sections are copied in table order until one fails (R395). -/
def copySections (base : Nat) : List Section → State → State × Option (BitVec 3)
  | [], s => (s, none)
  | x :: xs, s =>
    match copySection base x s with
    | (t, some r) => (t, some r)
    | (t, none) => copySections base xs t

/-- DEST of the last PATCH section. -/
def lastPatch (xs : List Section) : Option Nat := (xs.reverse.find? fun x => x.type == 2).map (·.dest)

/-- PSWITCH, COMMIT and DONE (R395). -/
def activateFinish (flags : Nat) (xs : List Section) (s : State) : State :=
  let s := match lastPatch xs with
    | some d => if flags % 2 = 1 then { s with vox := { s.vox with patchbase := BitVec.ofNat 2 d } } else s
    | none => s
  let s := when (decide (flags / 2 % 2 = 1)) commit s
  { s with mgt := { s.mgt with cstate := 5, reason := 0 } }

/-- CONTENT_ACTIVATE_DONE (R395): an ABORT has stopped the copy after a section that is open (log entry 26). -/
def activateEnd (s : State) : State :=
  let base := s.mgt.cstage.toNat
  let (img, _, _) := engineRead s base s.mgt.len
  let xs := sectionsOf img
  if s.mgt.abort then
    let n := 1 + (Config.freeWord s.free).toNat % (xs.length + 1)
    let (t, r) := copySections base (xs.take n) { s with free := s.free + 1 }
    { t with mgt := { t.mgt with cstate := 6, reason := r.getD 6, abort := false } }
  else
    match copySections base xs s with
    | (t, none) => activateFinish (leNat (slice img 0x11 1)) xs t
    | (t, some r) => { t with mgt := { t.mgt with cstate := 6, reason := r } }

/-- CONTENT_ACTIVATE_DONE (R395). -/
def execContentActivateDone (s : State) : Host.Outcome State Fault Refusal :=
  .next (if s.mgt.cstate = 4 then activateEnd s else s)

/-! ## The sub-operations (R393-R395) -/

/-- How a CONTENT sub-operation ends (R384): the state, and 0 OK, 5 REFUSED or 8 BUSY. -/
def contentOp (sub : Nat) (cid : Word) (len : Nat) (s : State) : State × Nat :=
  let m := s.mgt
  match sub with
  | 1 =>
    if contentBusy m then (s, 8)
    else if beginAllowed m len then ({ s with mgt := contentStart cid len m }, 0) else (s, 5)
  | 2 =>
    if contentBusy m then (s, 8)
    else if m.cstate = 1 ∨ m.cstate = 3 then ({ s with mgt := checkStart m }, 0) else (s, 5)
  | 3 =>
    if contentBusy m then (s, 8)
    else if m.cstate = 3 ∧ s.mode.code = .service then ({ s with mgt := { m with cstate := 4, abort := false } }, 0) else (s, 5)
  | 4 =>
    if m.cstate = 4 then ({ s with mgt := { m with abort := true } }, 0)
    else ({ s with mgt := { m with cstate := 0, reason := 0, chunks := [] } }, 0)
  | _ => (s, 5)

/-- A write of MGT_CCMD (Table 16.10). -/
def writeCcmd (v : Nat) (s : State) : State :=
  if 1 ≤ v ∧ v ≤ 4 then (contentOp v s.mgt.hostCid s.mgt.hostLen.toNat s).1 else s

/-! ## Keys and log (R385, R390, R391) -/

/-- The management key changes: MSEQ is cleared (R385). -/
def setMkey (k : BitVec 128) (m : Mgt) : Mgt := { m with mkey := k, mseq := 0 }

/-- A write of MGT_MKEYw (R390): the write of word 3 replaces the key. -/
def writeMkey (w : Nat) (v : Word) (m : Mgt) : Mgt :=
  if Config.mklock then m
  else if w < 3 then { m with mkeyStage := m.mkeyStage.setIfInBounds w v }
  else setMkey (BitVec.ofNat 128 ((((vget m.mkeyStage 0 0).toNat * 4294967296 + (vget m.mkeyStage 1 0).toNat) * 4294967296
    + (vget m.mkeyStage 2 0).toNat) * 4294967296 + v.toNat)) m

/-- LOGCLR (R391). -/
def clearLog (m : Mgt) : Mgt := { m with log := [], logTotal := 0, logHead := 0 }

/-- MGMT_KEY_WRITE (R390): MGT_MKEY3 is written. -/
def execMgmtKeyWrite (v : Word) (s : State) : Host.Outcome State Fault Refusal :=
  .next (if pd1Up s && !(s.mode.code == .roost) then { s with mgt := writeMkey 3 v s.mgt } else s)

end Sys2Proof.Machine
end

