-- ==== Sys2Proof/Machine/Coding.lean ====
section
/-! DEFINITION. The lane frame and its coding: the layout of Table 7.1, the scrambler and the Reed-Solomon code of the
downstream region (R168, R169, R174). -/

namespace Sys2Proof.Machine

/-! ## The scrambler (R169) -/

/-- One step of the sequence of x^31 + x^28 + 1: bit k of the state is the bit sent k places later. -/
def scrStep (r : Nat) : Nat := r / 2 + if r.testBit 0 != r.testBit 3 then 2 ^ 30 else 0

/-- The next eight bits of the sequence as a byte, the first one its bit 7, added to `a`, and the state after them. -/
def scrByte : Nat → Nat → Nat → Nat × Nat
  | 0, a, r => (a, r)
  | n + 1, a, r => scrByte n (2 * a + r % 2) (scrStep r)

/-- Bytes with the sequence added from a state on. -/
def scrambleFrom : Nat → List Byte → List Byte
  | _, [] => []
  | r, b :: bs =>
    let k := scrByte 8 0 r
    (b ^^^ BitVec.ofNat 8 k.1) :: scrambleFrom k.2 bs

/-- A lane frame with every bit after MARK scrambled, or descrambled: the sequence is additive and starts with 31 ones at the
first bit after MARK (R169). -/
def scrambleLane (l : List Byte) : List Byte := l.take 16 ++ scrambleFrom (2 ^ 31 - 1) (l.drop 16)

/-! ## The Reed-Solomon code (R174) -/

/-- A product in the field of 1,024 elements with x^10 + x^3 + 1, over the lowest `n` bits of `b` (log entry 93). -/
def gfMulN : Nat → Nat → Nat → Nat
  | 0, _, _ => 0
  | n + 1, a, b =>
    let a2 := if 512 ≤ a then Nat.xor (2 * a) 0x409 else 2 * a
    Nat.xor (if b % 2 = 1 then a else 0) (gfMulN n a2 (b / 2))

/-- A product of two symbols. -/
def gfMul (a b : Nat) : Nat := gfMulN 10 a b

/-- A power of a symbol, `n` bits of exponent long. -/
def gfPowN : Nat → Nat → Nat → Nat
  | 0, _, _ => 1
  | n + 1, a, e => gfMul (if e % 2 = 1 then a else 1) (gfPowN n (gfMul a a) (e / 2))

/-- Powers of alpha = 2; the order is 1,023. -/
def gfAlpha (e : Nat) : Nat := gfPowN 10 2 (e % 1023)

/-- The inverse of a symbol that is not 0. -/
def gfInv (a : Nat) : Nat := gfPowN 10 a 1022

/-- Sum of two polynomials, lowest coefficient first. -/
def polyAdd : List Nat → List Nat → List Nat
  | [], q => q
  | p, [] => p
  | a :: p, b :: q => Nat.xor a b :: polyAdd p q

/-- A polynomial times a symbol. -/
def polyScale (c : Nat) (p : List Nat) : List Nat := p.map (gfMul c)

/-- A polynomial's value. -/
def polyEval (p : List Nat) (x : Nat) : Nat := p.foldr (fun c v => Nat.xor c (gfMul x v)) 0

/-- The generator: the product of x - alpha^i for i from 0 to 29, lowest coefficient first. -/
def rsGenerator : List Nat :=
  (List.range 30).foldl (fun g i => polyAdd (0 :: g) (polyScale (gfAlpha i) g)) [1]

/-- One step of the division by the generator: the remainder, highest coefficient first, after one more data symbol. -/
def rsStep (gen rem : List Nat) (d : Nat) : List Nat :=
  match rem with
  | [] => []
  | top :: rest => List.zipWith (fun r g => Nat.xor r (gfMul (Nat.xor top d) g)) (rest ++ [0]) gen

/-- The 30 parity symbols of 514 data symbols (R174). -/
def rsParity (data : List Nat) : List Nat :=
  let gen := (rsGenerator.take 30).reverse
  data.foldl (rsStep gen) (List.replicate 30 0)

/-- A codeword: its data symbols followed by its parity symbols. -/
def rsEncode (data : List Nat) : List Nat := data ++ rsParity data

/-- The syndromes of a received codeword, whose first symbol is its highest coefficient. -/
def rsSyndromes (w : List Nat) : List Nat :=
  (List.range 30).map fun i => let x := gfAlpha i; w.foldl (fun v c => Nat.xor c (gfMul x v)) 0

/-- The error locator as it is built up: the present one, the one before the last change of length with its discrepancy, the
distance since, and the number of errors. -/
structure RsLoc where
  lam : List Nat := [1]
  prev : List Nat := [1]
  disc : Nat := 1
  gap : Nat := 1
  len : Nat := 0
  deriving DecidableEq, Repr

/-- One syndrome more (Berlekamp and Massey): `past` holds the syndromes up to this one, newest first. -/
def RsLoc.step (x : RsLoc) (n : Nat) (past : List Nat) : RsLoc :=
  let d := (x.lam.zip past).foldl (fun v (y : Nat × Nat) => Nat.xor v (gfMul y.1 y.2)) 0
  if d = 0 then { x with gap := x.gap + 1 }
  else
    let t := polyAdd x.lam (List.replicate x.gap 0 ++ polyScale (gfMul d (gfInv x.disc)) x.prev)
    if 2 * x.len ≤ n then { lam := t, prev := x.lam, disc := d, gap := 1, len := n + 1 - x.len }
    else { x with lam := t, gap := x.gap + 1 }

/-- The locator of all syndromes. -/
def rsLocator : Nat → RsLoc → List Nat → List Nat → RsLoc
  | _, x, _, [] => x
  | n, x, past, s :: rest => rsLocator (n + 1) (x.step n (s :: past)) (s :: past) rest

/-- The error in the symbol of degree `e`, where the locator has a root there: the evaluator over the locator's derivative. -/
def rsError (lam omega : List Nat) (e : Nat) : Nat :=
  let xi := gfAlpha (1023 - e % 1023)
  if polyEval lam xi ≠ 0 then 0
  else
    let deriv := (lam.zipIdx.filter fun y => y.2 % 2 == 1).foldl (fun v (y : Nat × Nat) => Nat.xor v (gfMul y.1 (gfPowN 10 xi (y.2 - 1)))) 0
    gfMul (gfMul (gfAlpha e) (polyEval omega xi)) (gfInv deriv)

/-- Product of two polynomials, to 30 coefficients. -/
def polyMul30 : List Nat → List Nat → List Nat
  | [], _ => []
  | a :: p, q => (polyAdd (polyScale a q) (0 :: polyMul30 p q)).take 30

/-- A received codeword corrected (R174): its 514 data symbols and how many symbols were wrong, when a codeword lies within
15 symbols of it. -/
def rsDecode (w : List Nat) : Option (List Nat × Nat) :=
  let syn := rsSyndromes w
  if w.length ≠ 544 then none
  else if syn.all (· == 0) then some (w.take 514, 0)
  else
    let loc := rsLocator 0 {} [] syn
    let omega := polyMul30 syn loc.lam
    let fixed := w.zipIdx.map fun (y : Nat × Nat) => Nat.xor y.1 (rsError loc.lam omega (543 - y.2))
    let wrong := ((w.zip fixed).filter fun y => y.1 != y.2).length
    if loc.len ≤ 15 ∧ wrong ≤ 15 ∧ (rsSyndromes fixed).all (· == 0) then some (fixed.take 514, wrong) else none

/-! ## The symbol stream (R174) -/

/-- Bytes as 10-bit symbols, MSB first. -/
def toSymbols : List Byte → List Nat
  | a :: b :: c :: d :: e :: rest =>
    let v := beNat [a, b, c, d, e]
    v / 2 ^ 30 :: v / 2 ^ 20 % 1024 :: v / 2 ^ 10 % 1024 :: v % 1024 :: toSymbols rest
  | _ => []

/-- Symbols as bytes, MSB first. -/
def ofSymbols : List Nat → List Byte
  | a :: b :: c :: d :: rest => beBytes 5 (a * 2 ^ 30 + b * 2 ^ 20 + c * 2 ^ 10 + d) ++ ofSymbols rest
  | _ => []

/-- The first `n` pieces of `k` elements; one that is cut short ends them. -/
def pieces {α : Type} (k : Nat) : Nat → List α → List (List α)
  | 0, _ => []
  | n + 1, l => if l.length < k then [] else l.take k :: pieces k n (l.drop k)

/-! ## The lane frame (R168, Table 7.1) -/

/-- Downstream codewords per lane frame at a rate. -/
def laneCodewords (rate : BitVec 2) : Nat := if rate = 0 then 2496 else if rate = 1 then 1220 else 588

/-- Guard bits per lane frame at a rate. -/
def laneGuard (rate : BitVec 2) : Nat := if rate = 0 then 124800 else if rate = 1 then 66240 else 4320

/-- Downstream cells per ring frame at a rate. -/
def ringCells (rate : BitVec 2) : Nat := if rate = 0 then 44544 else if rate = 1 then 21760 else 10480

/-- Pad bits per lane at a rate. -/
def lanePad (rate : BitVec 2) : Nat := if rate = 0 then 768 else if rate = 1 then 3920 else 4080

/-- Where the uplink region begins in a lane frame, in bytes. -/
def uplinkStart (rate : BitVec 2) : Nat := 256 + laneCodewords rate * 680

/-- Cells that travel on lane `l`: cell c is on lane c mod 2 (R168). -/
def laneCells (l : Nat) : List (List Byte) → List (List Byte)
  | a :: b :: rest => (if l = 0 then a else b) :: laneCells l rest
  | [a] => if l = 0 then [a] else []
  | [] => []

/-- The downstream region of a lane: its cells, then pad bits of 0, cut into codewords (R174). -/
def encodeRegion (rate : BitVec 2) (cells : List (List Byte)) : List Byte :=
  let data := toSymbols (cells.flatten ++ List.replicate (lanePad rate / 8) 0)
  ((pieces 514 (laneCodewords rate) data).map fun d => ofSymbols (rsEncode d)).flatten

/-- The codewords of a received lane frame, descrambled. -/
def regionWords (rate : BitVec 2) (lane : List Byte) : List (List Nat) :=
  (pieces 680 (laneCodewords rate) (lane.drop 256)).map toSymbols

/-- What the tap counts on a lane: symbols corrected and codewords that cannot be (R174). -/
def tapCount (rate : BitVec 2) (lane : List Byte) : Nat × Nat :=
  (regionWords rate lane).foldl (fun n w => match rsDecode w with
    | some (_, k) => (n.1 + k, n.2)
    | none => (n.1, n.2 + 1)) (0, 0)

/-- The downstream region as a regenerator sends it: each codeword corrected and encoded again (R157, R174); one that it
cannot correct goes on with data that the spec does not fix (log entry 94). -/
def regenerate (rate : BitVec 2) (lane : List Byte) : List Byte :=
  let words := (regionWords rate lane).map fun w => match rsDecode w with
    | some (d, _) => rsEncode d
    | none => rsEncode (((Config.uncorrected w).map (· % 1024) ++ List.replicate 514 0).take 514)
  let sent := (words.map ofSymbols).flatten
  lane.take 256 ++ sent ++ lane.drop (256 + sent.length)

/-- A list with `bs` written over its elements from `i` on, where it reaches that far. -/
def overwrite (i : Nat) (bs l : List Byte) : List Byte :=
  if i + bs.length ≤ l.length then l.take i ++ bs ++ l.drop (i + bs.length) else l

/-- Uplink cell `u` written in lane frame `l` of a ring, descrambled: cell u is lane cell u div 2 of lane u mod 2 (R168,
R179). -/
def putUplink (rate : BitVec 2) (l u : Nat) (cell lane : List Byte) : List Byte :=
  if u % 2 = l then overwrite (uplinkStart rate + 72 * (u / 2)) cell lane else lane

/-- A lane frame from its header half, its downstream cells and its uplink cells, before scrambling (Table 7.1): reserved
header bytes and the guard are 0. -/
def laneFrame (rate : BitVec 2) (half : List Byte) (cells uplink : List (List Byte)) : List Byte :=
  half ++ List.replicate (256 - half.length) 0 ++ encodeRegion rate cells ++ uplink.flatten
    ++ List.replicate (laneGuard rate / 8) 0

end Sys2Proof.Machine
end

