-- ==== Sys2Proof/Machine/Frames.lean ====
section
/-! DEFINITION. Daril frames as a fixture receives them: the header and its accumulator, validity, ranging, the chain-time
servo, MUSTER and the cells of the tap (07_daril_frames_time.md). -/

namespace Sys2Proof.Machine

/-- Ring cells for dispatch pass in this mode: not in SOLO, and not while the data plane stands still (Tables 1.5, 2.4). -/
def ringInput (s : State) : Bool :=
  match s.mode.code with
  | .muster | .relay | .show | .service => true
  | _ => false

/-- The device is head. -/
def isHead (s : State) : Bool := s.chn.role == 1

/-- A head originates frames in this mode (R194). -/
def originates (s : State) : Bool := pd1Up s && isHead s && ringInput s

/-! ## A frame on the wire (R168, R169) -/

/-- Header half `l` of a frame. -/
def frHalf (f : FrameRx) (l : Fin 2) : Vector Byte 57 := if l = 0 then f.half0 else f.half1

/-- What follows header half `l`. -/
def frRest (f : FrameRx) (l : Fin 2) : List Byte := if l = 0 then f.rest0 else f.rest1

/-- A lane frame as bytes. -/
def frLane (f : FrameRx) (l : Fin 2) : List Byte := (frHalf f l).toList ++ frRest f l

/-- A frame descrambled (R169). -/
def clearFrame (f : FrameRx) : FrameRx :=
  let a := scrambleLane (frLane f 0)
  let b := scrambleLane (frLane f 1)
  { f with
    half0 := Vector.ofFn fun i => a.getD i.val 0, half1 := Vector.ofFn fun i => b.getD i.val 0
    rest0 := a.drop 57, rest1 := b.drop 57 }

/-! ## The header half (Table 7.2, R170-R173) -/

/-- A header half as bytes; a byte's first bit sent is its bit 7. -/
abbrev HalfBytes := Vector Byte 57

/-- Byte `i` of a header half. -/
def hByte (h : HalfBytes) (i : Nat) : Byte := vget h i 0

/-- Big-endian number of `n` bytes from byte `i`. -/
def hNum (h : HalfBytes) (i n : Nat) : Nat := beNat ((List.range n).map fun k => hByte h (i + k))

/-- The bits of bytes `i` to `i + n - 1` in the order sent. -/
def hBits (h : HalfBytes) (i n : Nat) : List Bool :=
  (List.range n).flatMap fun k => (List.range 8).map fun j => (hByte h (i + k)).getLsbD (7 - j)

/-- A number sent bit 0 first. -/
def bitsNum : List Bool → Nat
  | [] => 0
  | b :: bs => b.toNat + 2 * bitsNum bs

/-- The `n` bits of a number, bit 0 first. -/
def numBits : Nat → Nat → List Bool
  | 0, _ => []
  | n + 1, v => (v % 2 == 1) :: numBits n (v / 2)

/-- Bytes that send a list of bits, eight at a time. -/
def bitsBytes (bs : List Bool) : List Byte :=
  (List.range (bs.length / 8)).map fun k =>
    BitVec.ofNat 8 (((List.range 8).map fun j => (bs.getD (8 * k + j) false).toNat * 2 ^ (7 - j)).sum)

/-- MARK is found (Table 7.2). -/
def hMark (h : HalfBytes) : Bool := (List.range 4).all fun i => hNum h (4 * i) 4 == 0x3C5A96C3

/-- HCRC passes: CRC-32C over bytes 16-47, stored least significant byte first (R175). -/
def hCrcOk (h : HalfBytes) : Bool :=
  crc32c ((List.range 32).map fun k => hByte h (16 + k)) == leNat ((List.range 4).map fun k => hByte h (48 + k))

/-- ACC, sent bit 0 first (R172). -/
def hAcc (h : HalfBytes) : BitVec 24 := BitVec.ofNat 24 (bitsNum (hBits h 52 3))

/-- ACCCRC, sent bit 0 first. -/
def hAccCrc (h : HalfBytes) : Half := BitVec.ofNat 16 (bitsNum (hBits h 55 2))

/-- One bit of the CRC-16 register (R171). -/
def crc16Bit (r : Nat) (b : Bool) : Nat :=
  let top := decide (32768 ≤ r) != b
  let r2 := r * 2 % 65536
  if top then r2.xor 0x1021 else r2

/-- CRC-16 of an ACC in transmission order (R171). -/
def accCrc (a : BitVec 24) : Half := BitVec.ofNat 16 ((numBits 24 a.toNat).foldl crc16Bit 0)

/-- The fields of a header that both halves carry alike (Table 7.2). -/
structure Header where
  frame : BitVec 40
  count : Bool
  probe : Bool
  split : Bool
  turned : Bool
  ring : Bool
  mepoch : Half
  headuid : BitVec 48
  neff : Nat
  n : BitVec 10
  cmd : Nat
  ctotal : BitVec 24
  probelo : BitVec 48
  probehi : BitVec 48
  deriving DecidableEq, Repr

/-- The fields of a half. -/
def readHeader (h : HalfBytes) : Header :=
  let f := hByte h 21
  { frame := BitVec.ofNat 40 (hNum h 16 5), count := bit f 7, probe := bit f 6, split := bit f 5, turned := bit f 4
    ring := bit f 3, mepoch := BitVec.ofNat 16 (hNum h 22 2), headuid := BitVec.ofNat 48 (hNum h 24 6)
    neff := hNum h 30 2 / 1024, n := BitVec.ofNat 10 (hNum h 30 2), cmd := if hNum h 32 1 < 3 then hNum h 32 1 else 0
    ctotal := BitVec.ofNat 24 (hNum h 33 3), probelo := BitVec.ofNat 48 (hNum h 36 6)
    probehi := BitVec.ofNat 48 (hNum h 42 6) }

/-- The port that a ring enters by: Ring A WEST, Ring B EAST. -/
def ringPort (ring : Bool) : PortIdx := if ring then 1 else 0

/-- The header of a frame that is aligned, with MARK on both lanes and a passing HCRC (R173): lane 0's half when its HCRC
passes, else lane 1's. -/
def goodHeader (s : State) (f : FrameRx) : Option Header :=
  if !((lport s (ringPort f.ring)).aligned && hMark f.half0 && hMark f.half1) then none
  else if hCrcOk f.half0 then some (readHeader f.half0)
  else if hCrcOk f.half1 then some (readHeader f.half1)
  else none

/-- The ACC of the first half whose HCRC and ACCCRC pass (R173). -/
def usableAcc (f : FrameRx) : Option (BitVec 24) :=
  if hCrcOk f.half0 && hAccCrc f.half0 == accCrc (hAcc f.half0) then some (hAcc f.half0)
  else if hCrcOk f.half1 && hAccCrc f.half1 == accCrc (hAcc f.half1) then some (hAcc f.half1)
  else none

/-! ## The hop (R172, R156) -/

/-- The addend of the hop that a frame of a header makes here (R172). -/
def addend (s : State) (p : PortIdx) (h : Header) : Nat :=
  if h.count then 1
  else if h.probe then (if !s.chn.held && decide (h.probelo ≤ Config.uid) && decide (Config.uid ≤ h.probehi) then 1 else 0)
  else (hopDelay s p).toNat

/-- Bytes 16-51 of a half as they are sent on: a turn sets TURNED, and HCRC follows a half whose HCRC passed (R172). -/
def hopFields (turn : Bool) (h : HalfBytes) : List Byte :=
  let old := (h.toList.drop 16).take 36
  if turn then
    let body := (old.set 5 (setBit (hByte h 21) 4 true)).take 32
    if hCrcOk h then body ++ leBytes 4 (crc32c body) else body ++ old.drop 32
  else old

/-- A half as it is sent on: ACC rewritten, ACCCRC moved by the difference of the CRCs, and TURNED set by a turn (R172). -/
def hopHalf (add : Nat) (turn : Bool) (h : HalfBytes) : List Byte :=
  let a := BitVec.ofNat 24 ((hAcc h).toNat + add)
  let c := accCrc a ^^^ accCrc (hAcc h) ^^^ hAccCrc h
  h.toList.take 16 ++ hopFields turn h ++ bitsBytes (numBits 24 a.toNat) ++ bitsBytes (numBits 16 c.toNat)

/-- A cell with its CRC. -/
def sealCell (bs : List Byte) : List Byte :=
  let b := slice bs 0 68
  b ++ leBytes 4 (crc32c b)

/-- An uplink cell of this device: TYPE, AUX and payload, with its CRC (R179). -/
def uplinkBytes (s : State) (type aux : Nat) (payload : List Byte) : List Byte :=
  sealCell (beBytes 4 (type * 268435456 + s.chn.pos.toNat * 262144 + aux) ++ payload)

/-- The device says HELLO: in MUSTER, before END, and not as head (R179). -/
def saysHello (s : State) : Bool := s.mode.code == .muster && s.chn.mustering && !isHead s

/-- The status-absent cell (R107, R179). -/
def absentCell (s : State) : List Byte := uplinkBytes s 5 256 (List.replicate 64 0)

/-- The uplink cell that the lanes of the ring that enters port `p` write (R156, R179): the record composed beforehand, or
status-absent from the moment the port's domain is not ON; none without a position. -/
def uplinkSent (s : State) (p : PortIdx) : List Byte :=
  if !s.chn.held then []
  else if !pdOn s (2 + p.val) && !saysHello s then absentCell s
  else vget s.chn.uplink p.val []

/-- Lane frame `l` of a descrambled frame as it is sent on from port `p`: the header with ACC rewritten, the downstream
region regenerated where the ring is, this device's uplink cell overwritten, every other bit forwarded, and all of it
scrambled again (R156-R158, R169, R172, R179). -/
def hopLane (s : State) (p : PortIdx) (h : Header) (f : FrameRx) (l : Fin 2) : List Byte :=
  let x := lport s p
  let rate := (x.lane l).rate
  let lane := hopHalf (addend s p h) x.turned (frHalf f l) ++ frRest f l
  let lane := if regenerates s p then regenerate rate lane else lane
  scrambleLane (putUplink rate l.val s.chn.pos.toNat (uplinkSent s p) lane)

/-- The port that sends on the ring that enters port `p`: the other one, or the same while it is turned (R143, R163). -/
def outPort (s : State) (p : PortIdx) : PortIdx := if (lport s p).turned then p else otherPort p

/-- Lane `l` of the ring that enters port `p` is sent on: by repeat, regeneration or turn (R49, R151, R162); a head sends
nothing on (R193), and the lanes send no ring data while a boundary-scan test is active (R166). -/
def sendsOn (s : State) (p : PortIdx) (l : Fin 2) : Bool :=
  s.chn.role != 1 && !s.jtag.ir.testing && decide (2 ≤ (laneSource s (outPort s p) l).toNat)

/-- The turn of the other port's ring ends with a frame of a port that is UP again (R163). -/
def endTurn (p : PortIdx) (s : State) : State :=
  if (lport s p).state = .up then modPort (otherPort p) (fun x => { x with turned := false }) s else s

/-- A descrambled frame leaves along its ring on the lanes that send it on; a lane that does not sends none of it. -/
def hopFrame (h : Header) (f : FrameRx) (s : State) : State :=
  let p := ringPort f.ring
  let s := endTurn p s
  let lane (l : Fin 2) : List Byte := if sendsOn s p l then hopLane s p h f l else []
  if sendsOn s p 0 || sendsOn s p 1 then { s with chn := { s.chn with sent := s.chn.sent.set p (lane 0, lane 1) } } else s

/-! ## The tap (R107, R153, R174) -/

/-- The tap of an aligned port whose domain is ON takes a descrambled frame on both lanes: it is in step with the header
(R107), and corrects and counts the codewords (R174), all of them with the frame's own command (log entry 100). -/
def tapFrame (f : FrameRx) (s : State) : State :=
  let p := ringPort f.ring
  let x := lport s p
  if pdOn s (2 + p.val) && x.aligned && hMark f.half0 && hMark f.half1 then
    let a := tapCount x.rate (frLane f 0)
    let b := tapCount x.rate (frLane f 1)
    let s := modPort p (fun x => { x with
      tap := true, feccorr := satAdd x.feccorr (a.1 + b.1), fecunc := satAdd x.fecunc (a.2 + b.2) }) s
    { s with chn := { s.chn with fecNew := s.chn.fecNew + (a.2 + b.2) } }
  else s

/-! ## Ranging (R182, R188) -/

/-- The average of the kept cable delays (R182); with none, hop index times LINKDLY in steps of 0.1 ns. -/
def cableDelay (s : State) : Int :=
  match s.chn.caHist with
  | [] => openDiv 20 ((hopIndex s 0 * fld s.chn.cfg 0 12 * frameUnits : Nat) : Int) 1250000
  | l => openDiv 21 l.sum l.length

/-- Both rings' frames of the same number range the device (R182): c_a. -/
def rangeDelay (c : Chn) (a b : RingFrame) : Int :=
  openDiv 22 (a.at_.toNat - b.at_.toNat - a.acc.toNat + b.acc.toNat + c.ctot.toNat) 2

/-- A frame that may range (R182). -/
def RingFrame.ranges (r : RingFrame) : Bool := r.valid && !r.turned && !r.count && !r.probe && r.usable

/-- A frame has arrived on ring `i`, and what is kept of it (R186, R188). -/
def Chn.arrive (i : Nat) (r : RingFrame) (c : Chn) : Chn :=
  { c with last := (vmod c.last (1 - i) fun o => o.map fun q => { q with since := q.since + 1 }).setIfInBounds i (some r) }

/-- A frame that is not valid has arrived on ring `i`: its latest frame is not valid, and with one valid ring left FROZEN is
set (R186, R188). -/
def Chn.spoil (i : Nat) (c : Chn) : Chn :=
  let old : RingFrame := (vget c.last i none).getD
    { frame := 0, at_ := 0, valid := false, turned := false, count := false, probe := false, usable := false, acc := 0 }
  let c := c.arrive i { old with valid := false, since := 0 }
  { c with frozen := c.frozen || c.ringGood (1 - i) }

/-- Ranging after a valid frame (R182, R188): with both rings valid and unturned CTOTAL is taken, and two frames of one
number measure c_a; otherwise c_a and C_tot stay and FROZEN is set. -/
def rangeFrame (ctotal : BitVec 24) (c : Chn) : Chn :=
  match vget c.last 0 none, vget c.last 1 none with
  | some a, some b =>
    if !(c.ringGood 0 && c.ringGood 1) then { c with frozen := true }
    else
      let c := { c with ctot := ctotal }
      if a.frame = b.frame ∧ a.ranges ∧ b.ranges then
        { c with caHist := (rangeDelay c a b :: c.caHist).take 16, ranged := true, frozen := false }
      else c
  | _, _ => { c with frozen := true }

/-- The offset of the timing ring (R182). -/
def ringOffset (s : State) (ring : Bool) (acc : BitVec 24) : Int :=
  let ca := cableDelay s
  if ring then s.chn.ctot.toNat - ca + acc.toNat else ca + acc.toNat

/-! ## The servo (R183, R184) -/

/-- The number of the last tick boundary at or before a CTIME (R181). -/
def tickOf (t : Nat) : Nat :=
  let f := t / frameUnits
  f * 6 + (List.range 6).foldl (fun a j => if tickTime (f * 6 + j) ≤ t then j else a) 0

/-- One comparison of the servo at a timing instant that arrived at local time `at_` (R183, R184): a step beyond 1 us or
after a jump of FRAME, else a slew of at most 100 ppm of a frame, which the second-order loop takes from ERR and from the
frequency error it holds, and which never moves CTIME back. -/
def servo (at_ : Quad) (target : Int) (follows : Bool) (c : Chn) : Chn :=
  let err : Int := at_.toNat - target
  let c := { c with err := BitVec.ofInt 32 err }
  if err.natAbs ≤ 134217 ∧ follows then
    let slew := clampI (-1677) 1677 (Config.servoSlew err c.freq)
    let now := max (c.ctime.toNat : Int) (at_.toNat + slew)
    let run := if err.natAbs ≤ 671 then min (c.lockRun + 1) 8 else 0
    { c with ctime := BitVec.ofInt 64 now, freq := Config.servoFreq err c.freq, lockRun := run, lock := c.lock || run == 8 }
  else
    let now := BitVec.ofInt 64 (max (c.ctime.toNat : Int) at_.toNat - err)
    { c with ctime := now, tick := tickOf now.toNat, step := true, lock := false, lockRun := 0 }

/-- FRAME follows its predecessor (R183): the frame before it on its ring, or any where the timing ring has just changed,
since a change of timing ring causes no step (R186). -/
def followsOn (changed : Bool) (prev : Option RingFrame) (h : Header) : Bool :=
  changed || match prev with | some p => p.frame + 1 == h.frame | none => false

/-- The servo runs on the timing ring's frame when its ACC is usable (R183, R173); in COUNT and PROBE frames ACC is no
delay, and the offset stays (log entry 35). -/
def runServo (f : FrameRx) (h : Header) (acc : Option (BitVec 24)) (follows : Bool) (s : State) : State :=
  match acc with
  | none => s
  | some a =>
    let off : Int := if h.count || h.probe then s.chn.offset.toNat else ringOffset s f.ring a
    let target : Int := (h.frame.toNat * frameUnits : Nat) + off
    let c := { s.chn with offset := BitVec.ofInt 24 off }
    { s with chn := servo f.at_ target follows c }

/-! ## Position and MUSTER (R191, R192) -/

/-- A position is taken (R191, R192): ranging starts again, and RING is raised. One assigned late is latched at once, one
of a count at END. Its uplink cell is composed at the next frame boundary (R179). -/
def takePosition (p : BitVec 10) (late : Bool) (s : State) : State :=
  raise .ring { s with chn := { s.chn with
    pos := p, held := true, fixed := late, late := late, ranged := false, caHist := [], uplink := Vector.replicate 2 [] } }

/-- A held position is released (R191), and no uplink cell is written any more (R156). -/
def releasePosition (s : State) : State :=
  if s.chn.held then
    raise .ring { s with chn := { s.chn with held := false, fixed := false, late := false, uplink := Vector.replicate 2 [] } }
  else s

/-- A re-muster command (R191, Table 2.2): RELAY and SHOW enter MUSTER with the new epoch. -/
def remusterCmd (h : Header) (s : State) : State :=
  if h.cmd = 1 ∧ (s.mode.code = .relay ∨ s.mode.code = .show) ∧ h.mepoch ≠ s.chn.mepoch then
    let s := releasePosition s
    trigger .remuster { s with chn := { s.chn with mepoch := h.mepoch } }
  else s

/-- In MUSTER another MEPOCH is adopted, and a position of an older one is released (R191, R192, log entry 36). -/
def adoptEpoch (h : Header) (s : State) : State :=
  if s.mode.code = .muster ∧ h.mepoch ≠ s.chn.mepoch then
    let s := releasePosition s
    { s with chn := { s.chn with mepoch := h.mepoch, mustering := true } }
  else s

/-- A COUNT frame on Ring A gives a position (R191). -/
def countFrame (f : FrameRx) (h : Header) (acc : Option (BitVec 24)) (s : State) : State :=
  match acc with
  | some a =>
    if s.mode.code = .muster ∧ !s.chn.held ∧ h.count ∧ !f.ring ∧ h.mepoch = s.chn.mepoch then
      if 1023 < a.toNat + 1 then { s with chn := { s.chn with overflow := true } }
      else takePosition (BitVec.ofNat 10 (a.toNat + 1)) false s
    else s
  | none => s

/-- END latches the held position, n and N_eff in a device that holds one (R191), and ends the HELLO of every device
(R179). -/
def endCmd (h : Header) (s : State) : State :=
  if h.cmd = 2 ∧ h.mepoch = s.chn.mepoch then
    let t := { s with chn := { s.chn with mustering := false, fixed := s.chn.held, npos := if s.chn.held then h.n else s.chn.npos } }
    if s.chn.held then
      { t with lanes := { s.lanes with neff := BitVec.ofNat 6 (clampN 8 48 h.neff), neffRecv := true } }
    else t
  else s

/-! ## A frame at a fixture (R173, R189) -/

/-- HEADUID against CHN_HUID (R173, R193): a lower one, or any while none is elected, is adopted. -/
def adoptHead (uid : BitVec 48) (s : State) : State × Bool :=
  if uid = s.chn.huid then (s, true)
  else if s.chn.huid = 0 ∨ uid < s.chn.huid then (raise .ring { s with chn := { s.chn with huid := uid } }, true)
  else (s, false)

/-- What a ring keeps of a valid frame. -/
def ringFrame (f : FrameRx) (h : Header) (acc : Option (BitVec 24)) : RingFrame :=
  { frame := h.frame, at_ := f.at_, valid := true, turned := h.turned, count := h.count, probe := h.probe
    usable := acc.isSome, acc := acc.getD 0 }

/-- Frames arrive again (R189). -/
def framesReturn (s : State) : State :=
  if s.chn.freerun then raise .frames { s with chn := { s.chn with freerun := false, framesNow := true } }
  else { s with chn := { s.chn with framesNow := true } }

/-- A valid frame at a fixture: ranging, timing ring, servo, header commands (R182-R192). -/
def validFrame (f : FrameRx) (h : Header) (s : State) : State :=
  let i := if f.ring then 1 else 0
  let acc := usableAcc f
  let prev := vget s.chn.last i none
  let was := s.chn.tring
  let s := framesReturn s
  let c := rangeFrame h.ctotal { s.chn.arrive i (ringFrame f h acc) with split := h.split }
  let c := { c with tring := timingRing c }
  let s := { s with chn := c }
  let s := if c.tring = f.ring then runServo f h acc (followsOn (was != c.tring) prev h) s else s
  let s := countFrame f h acc (adoptEpoch h (remusterCmd h s))
  ringTriggers (redecideRef (endCmd h s))

/-- A frame that is not valid at a fixture: its ring is not valid, and the timing ring may change (R186, R188). -/
def spoilFrame (f : FrameRx) (s : State) : State := retime { s with chn := s.chn.spoil f.ring.toNat }

/-- FRAME_MISSING (R189): no valid frame on either ring for two frame periods. A head that originates keeps LOCK (R184). -/
def frameMissing (s : State) : State :=
  if s.chn.freerun then s
  else
    raise .frames { s with chn := { s.chn with
      freerun := true, miss := true, framesNow := false, lockRun := 0, lock := originates s
      last := s.chn.last.map fun o => o.map fun r => { r with valid := false } } }

/-- FRAME_MISSING (R189). -/
def execFrameMissing (s : State) : Host.Outcome State Fault Refusal := .next (if pd1Up s then frameMissing s else s)

/-! ## Cells from the tap (R174, R176, R190) -/

/-- The CRC-32C of a cell passes (R175). -/
def cellCrcOk (c : CellBytes) : Bool :=
  crc32c (c.toList.take 68) == leNat ((List.range 4).map fun k => cellByte c (68 + k))

/-- The cell is addressed here (R176): a late position counts as held, an unpositioned device takes DEST = 0 only. -/
def addressedHere (s : State) (c : CellBytes) : Bool :=
  cellDest c == 0 || (s.chn.held && cellDest c == s.chn.pos.toNat)

/-- The key under which a cell is delivered once (R190): in MIRROR the RING flag does not matter. -/
def cellSeen (s : State) (c : CellRx) : Bool :=
  s.chn.delivered.any fun k => k.1 == c.frame && k.2.2 == c.idx && (!s.chn.split || k.2.1 == c.flag)

/-- The key is remembered, keys of frames before the last two are forgotten, and a fill is counted (R190). -/
def recordCell (c : CellRx) (s : State) : State :=
  { s with chn := { s.chn with
      delivered := (c.frame, c.flag, c.idx) :: s.chn.delivered.filter fun k => (c.frame - k.1).toNat ≤ 2 || (c.frame - k.1).msb
      filled := if !s.chn.split && c.ring != s.chn.tring then satInc s.chn.filled else s.chn.filled } }

/-- A STREAM cell (R177, R198, Table 13.1): its levels take effect at tick 0 of frame F + 2. -/
def streamCell (key : CellKey) (c : CellBytes) (s : State) : State :=
  let n : SIdx := BitVec.toFin (BitVec.ofNat 4 (cellSess c))
  if !(pdOn s 12 && ringInput s) then s
  else if !(sourceSession s (.ring n)).2 then countDrop n s
  else
    let count := min (payNum c 2 1) 30
    let stride := max 1 (payNum c 3 1)
    (List.range count).foldl (fun s i =>
      let t := payNum c 0 2 + i * stride
      if t ≤ 0xFFFF then acceptLevel n t (payNum c (4 + 2 * i) 2) (some key) ((key.1.toNat + 2) * 6) s else s) s

/-- A STRIKE cell (Table 7.4): its events in slot order. -/
def strikeCell (c : CellBytes) (s : State) : State :=
  let n : SIdx := BitVec.toFin (BitVec.ofNat 4 (cellSess c))
  if !(pdOn s 12 && ringInput s) then s
  else
    (List.range 4).foldl (fun s i =>
      if cellAux c / 2 ^ i % 2 = 1 then acceptEvent (.ring n) (Vector.ofFn fun b => payByte c (16 * i + b.val)) s else s) s

/-- A PARAM cell (R219). -/
def paramCell (c : CellBytes) (s : State) : State :=
  if pdOn s 12 && ringInput s then acceptParams (BitVec.toFin (BitVec.ofNat 4 (cellSess c))) c s else s

/-- A RANGE cell: ASSIGN for this UID and epoch gives a late position; position 0 is the head's (R178, R192). -/
def rangeCell (c : CellBytes) (s : State) : State :=
  let p := BitVec.ofNat 10 (payNum c 6 2)
  if cellAux c % 16 = 1 ∧ payNum c 0 6 = Config.uid.toNat ∧ payNum c 8 2 = s.chn.mepoch.toNat ∧ p ≠ 0 ∧ s.chn.role ≠ 1 then
    takePosition p true s
  else s

/-- A CLAIM cell (R206-R209). -/
def claimCell (c : CellBytes) (s : State) : State := if pdOn s 12 && ringInput s then evalClaim c s else s

/-- A delivered cell reaches its consumer (Table 7.4); a reserved TYPE counts CELLERR (R176). -/
def consumeCell (key : CellKey) (c : CellBytes) (s : State) : State :=
  match cellType c with
  | 0 => s
  | 1 => streamCell key c s
  | 2 => strikeCell c s
  | 3 => paramCell c s
  | 4 => claimCell c s
  | 5 => queueCommand c s
  | 6 => rangeCell c s
  | 7 => bulkChunk c s
  | _ => { s with chn := { s.chn with cellerr := satInc s.chn.cellerr } }

/-- A cell that passed R174 (R176, R190): delivered once when it is addressed here. -/
def deliverCell (c : CellRx) (s : State) : State :=
  if !addressedHere s c.bytes || cellSeen s c then s
  else consumeCell (c.frame, c.flag, c.idx) c.bytes (if cellType c.bytes = 0 then s else recordCell c s)

/-- The tap of a port delivers cells: its domain is ON, it is aligned and in step with a frame header (R107, R153). -/
def tapRuns (s : State) (p : PortIdx) : Bool := pd1Up s && pdOn s (2 + p.val) && (lport s p).aligned && (lport s p).tap

/-- A cell of the tap of a port (R107, R153, R174): one that fails its code or its CRC counts CELLERR. A row names the TYPE it stands for; a cell of another TYPE than `want` and the reserved ones is
not that row's. -/
def tapCell (want : Nat) (c : CellRx) (s : State) : State :=
  if !tapRuns s (ringPort c.ring) then s
  else if !c.ok || !cellCrcOk c.bytes then { s with chn := { s.chn with cellerr := satInc s.chn.cellerr } }
  else if cellType c.bytes = want ∨ 8 ≤ cellType c.bytes then deliverCell c s
  else s

/-- STREAM_CELL (R177). -/
def execStreamCell (c : CellRx) (s : State) : Host.Outcome State Fault Refusal := .next (tapCell 1 c s)
/-- STRIKE_CELL (R176). -/
def execStrikeCell (c : CellRx) (s : State) : Host.Outcome State Fault Refusal := .next (tapCell 2 c s)
/-- PARAM_CELL (R219). -/
def execParamCell (c : CellRx) (s : State) : Host.Outcome State Fault Refusal := .next (tapCell 3 c s)
/-- RANGE_ASSIGN (R192). -/
def execRangeAssign (c : CellRx) (s : State) : Host.Outcome State Fault Refusal := .next (tapCell 6 c s)
/-- CLAIM (R208): a claim whose OP is not RELEASE. -/
def execClaim (c : CellRx) (s : State) : Host.Outcome State Fault Refusal :=
  .next (if payByte c.bytes 0 = 2 ∧ cellType c.bytes = 4 then s else tapCell 4 c s)
/-- CLAIM_RELEASE (R208): a claim whose OP is RELEASE. -/
def execClaimRelease (c : CellRx) (s : State) : Host.Outcome State Fault Refusal :=
  .next (if payByte c.bytes 0 ≠ 2 ∧ cellType c.bytes = 4 then s else tapCell 4 c s)
/-- MGMT_COMMAND_QUEUE (R387). -/
def execMgmtCommandQueue (c : CellRx) (s : State) : Host.Outcome State Fault Refusal := .next (tapCell 5 c s)
/-- BULK_CELL (R393). -/
def execBulkCell (c : CellRx) (s : State) : Host.Outcome State Fault Refusal := .next (tapCell 7 c s)

end Sys2Proof.Machine
end

