-- ==== Sys2Proof/Machine/Head.lean ====
section
/-! DEFINITION. The head: election, the count and its END, probing, loop measurement, frame launch, the cell queue, genlock
and the uplink (R191-R195, R180, R389); and FRAME_RECEIVED, which acts on a head or a fixture. -/

namespace Sys2Proof.Machine

/-! ## Election (R193) -/

/-- A head that loses the election (R193, R194): ROLE = LOST, position 0 released, the repeat path started, RELAY entered. -/
def loseElection (uid : BitVec 48) (s : State) : State :=
  let t := raise .ring { s with
    chn := { s.chn with role := 2, huid := uid, held := false, fixed := false, lock := false, lockRun := 0, mustering := false }
    head := { s.head with counting := false, cmd := 0, probing := false, foreign := none, ownRun := 0 }
    lanes := { s.lanes with port := s.lanes.port.map fun p =>
      { p with repeating := p.rx.any fun r => r.st != .off && r.st != .hunt } } }
  redecideRef (trigger .lost t)

/-- A re-muster by the head (R191, R193). -/
def remuster (s : State) : State :=
  if !isHead s then s
  else match s.mode.code with
    | .relay | .show => trigger .remuster s
    | .muster | .service => startCount s
    | _ => s

/-! ## Its own frames return (R191-R194) -/

/-- Loop measurement on a returning Ring A frame that is unturned and carries a usable ACC (R194); in COUNT and PROBE frames
ACC is no delay and CTOTAL keeps its value. -/
def measureLoop (f : FrameRx) (h : Header) (a : BitVec 24) (s : State) : State :=
  let loop : Int := f.at_.toNat - (h.frame.toNat * frameUnits : Nat)
  let hist := ((loop - a.toNat) :: s.head.loopHist).take 16
  if h.turned then s
  else if h.count || h.probe then s.setHead { s.head with hloop := BitVec.ofInt 24 loop }
  else
    s.setHead { s.head with
      hloop := BitVec.ofInt 24 loop, loopHist := hist, ctotal := BitVec.ofInt 24 (openDiv 23 hist.sum hist.length) }

/-- The count has shown one value for 16 frames and every position has said HELLO (R191): END follows with n and NEFF. -/
def countEnd (s : State) : State :=
  let n := s.head.countAcc.toNat
  if s.head.counting && 16 ≤ s.head.countRun && (List.range n).all fun i => s.head.hellos.contains (i + 1) then
    { s with
      chn := { s.chn with npos := BitVec.ofNat 10 n, mustering := false }
      head := { s.head with counting := false, cmd := 2, assigned := [] }
      lanes := { s.lanes with neff := BitVec.ofNat 6 (fld s.head.cfg 0 6), neffRecv := true } }
  else s

/-- A returning COUNT frame on Ring A (R191): one that did not return, or without usable ACC, ends the run of 16. -/
def countReturn (h : Header) (a : Option (BitVec 24)) (s : State) : State :=
  if s.head.counting && h.count && h.mepoch == s.chn.mepoch then
    match a with
    | some n => countEnd { s with head := { s.head with
        countAcc := n, countFrame := h.frame
        countRun := if n = s.head.countAcc ∧ h.frame = s.head.countFrame + 1 then min (s.head.countRun + 1) 16 else 1 } }
    | none => { s with head := { s.head with countRun := 0 } }
  else s

/-- The upper bound of the next PROBE's range: the whole range until it is known to hold a device, then its lower half. -/
def probeTop (x : Head) : BitVec 48 :=
  if x.probeKnown then BitVec.ofNat 48 ((x.probeLo.toNat + x.probeHi.toNat) / 2) else x.probeHi

/-- Bytes 0-67 of an ASSIGN cell (R178). -/
def assignCell (uid : BitVec 48) (pos : Nat) (mepoch : Half) : List Byte :=
  beBytes 4 (6 * 268435456 + 1) ++ beBytes 6 uid.toNat ++ beBytes 2 pos ++ beBytes 2 mepoch.toNat ++ List.replicate 54 0

/-- The lowest position above n that has not been assigned since the last END (R194, log entry 37). -/
def nextAssign (s : State) : Option Nat :=
  (List.range 1023).map (· + 1) |>.find? fun p => decide (s.chn.npos.toNat < p) && !s.head.assigned.contains p

/-- A UID is found (R194): FOUND, and with AUTOASSIGN an ASSIGN; the search starts over. -/
def probeFound (uid : BitVec 48) (s : State) : State :=
  let x := { s.head with found := uid, probeLo := 0, probeHi := BitVec.allOnes 48, probeKnown := false }
  match nextAssign s with
  | some p =>
    if bit x.cfg 13 && decide (x.queue.length < 64) then
      { s with head := { x with queue := x.queue ++ [(assignCell uid p s.chn.mepoch, 0)], assigned := p :: x.assigned } }
    else { s with head := x }
  | none => { s with head := x }

/-- A returning PROBE frame on Ring A (R192, R194): the range is halved, or the PROBE is repeated when ACC is not usable. -/
def probeReturn (h : Header) (a : Option (BitVec 24)) (s : State) : State :=
  let x := s.head
  if h.probe && h.probelo == x.probeLo && h.probehi == probeTop x then
    match a with
    | none => { s with head := { x with probing := true } }
    | some n =>
      let lo := if n = 0 ∧ x.probeKnown then probeTop x + 1 else x.probeLo
      let hi := if n = 0 then x.probeHi else probeTop x
      if n = 0 ∧ !x.probeKnown then s
      else if lo = hi then probeFound lo s
      else { s with head := { x with probeLo := lo, probeHi := hi, probeKnown := true } }
  else s

/-- Frames of one number have returned valid on both ports; after two in a row a head that discarded a foreign frame
re-musters (R193). -/
def ownPair (h : Header) (s : State) : State :=
  let both := s.chn.last.all fun r => match r with | some x => x.valid && x.frame == h.frame | none => false
  if !both then s
  else
    let run := if s.head.ownFrame + 1 = h.frame then min (s.head.ownRun + 1) 2 else 1
    let s := { s with head := { s.head with ownRun := run, ownFrame := h.frame } }
    if run = 2 ∧ s.head.foreign.isSome ∧ !s.mode.busy then remuster { s with head := { s.head with foreign := none } } else s

/-- A head's own frame returns on a ring. -/
def ownReturn (f : FrameRx) (h : Header) (s : State) : State :=
  let i := if f.ring then 1 else 0
  let acc := usableAcc f
  let s := framesReturn s
  let c := s.chn.arrive i (ringFrame f h acc)
  let s := { s with chn := { c with tring := timingRing c } }
  let s := if f.ring then s
    else
      let s := match acc with | some a => measureLoop f h a s | none => s
      probeReturn h acc (countReturn h acc s)
  ringTriggers (ownPair h s)

/-- A frame with a good header at a head (R193). -/
def headFrame (f : FrameRx) (h : Header) (s : State) : State :=
  if h.headuid = Config.uid then ownReturn f h s
  else if h.headuid < Config.uid then validFrame f h (loseElection h.headuid s)
  else { s with head := { s.head with foreign := some 0 } }

/-- A frame with a good header reaches CHN (R173, R193). -/
def frameAtChn (f : FrameRx) (h : Header) (s : State) : State :=
  if isHead s then headFrame f h s
  else
    let r := adoptHead h.headuid s
    if r.2 then validFrame f h r.1 else spoilFrame f s

/-- CHN hears port `p`: PD1 is up, FUSE has ended, and the port's ring logic is ON (R107). -/
def chnHears (s : State) (p : PortIdx) : Bool := pd1Up s && !beforeFuse s && pdOn s (2 + p.val)

/-- FRAME_RECEIVED (R107, R156, R169, R172-R174): the frame is descrambled, sent on and decoded by the tap; one with a good
header reaches CHN, and one without spoils its ring. -/
def execFrameReceived (f : FrameRx) (s : State) : Host.Outcome State Fault Refusal :=
  let c := clearFrame f
  let g := goodHeader s c
  let s1 := tapFrame c (hopFrame (g.getD (readHeader c.half0)) c s)
  .next (if !chnHears s (ringPort f.ring) then s1
    else match g with
      | some h => frameAtChn c h s1
      | none => if isHead s then s1 else spoilFrame c s1)

/-! ## Frame launch (R194) -/

/-- A PROBE is due with the next frame: not during a count, and not with PROBEINT = 0 (R192, R194). -/
def probeDue (s : State) : Bool :=
  let n := fld s.head.cfg 16 8
  originates s && !(s.mode.code == .muster) && !s.head.counting && n != 0 && decide (n ≤ s.head.sinceProbe + 1)

/-- Bytes 16-47 of the header that a head launches on a ring (Table 7.2). -/
def headFields (s : State) (ring : Bool) (probe : Bool) : List Byte :=
  let x := s.head
  let flags := x.counting.toNat * 128 + probe.toNat * 64 + (bit x.cfg 14).toNat * 32 + ring.toNat * 8
  let lo := if probe then x.probeLo.toNat else 0
  let hi := if probe then (probeTop x).toNat else 0
  beBytes 5 (frameOf s.chn.ctime) ++ beBytes 1 flags ++ beBytes 2 s.chn.mepoch.toNat ++ beBytes 6 Config.uid.toNat
    ++ beBytes 2 (fld x.cfg 0 6 * 1024 + s.chn.npos.toNat) ++ beBytes 1 x.cmd.toNat ++ beBytes 3 x.ctotal.toNat
    ++ beBytes 6 lo ++ beBytes 6 hi

/-- A launched header half: MARK, the fields, HCRC, and ACC and ACCCRC of 0 (R170, R171, R175). -/
def headHalf (fields : List Byte) : List Byte :=
  (List.replicate 4 (beBytes 4 0x3C5A96C3)).flatten ++ fields ++ leBytes 4 (crc32c fields) ++ List.replicate 5 0

/-- Where the queued cells go, each with its CRC (R194): with its index, each ring that carries a cell. In MIRROR every cell
goes to both rings at one index, and is listed once; in SPLIT each ring fills its own lowest indices. -/
def placeCells (split tring : Bool) : Nat → Nat → List (List Byte × BitVec 2) → List (List Byte × Bool × Nat)
  | _, _, [] => []
  | a, b, (bs, r) :: rest =>
    let c := sealCell bs
    if !split then (c, tring, a) :: placeCells split tring (a + 1) b rest
    else if r = 1 then (c, false, a) :: placeCells split tring (a + 1) b rest
    else if r = 2 then (c, true, b) :: placeCells split tring a (b + 1) rest
    else (c, false, a) :: (c, true, b) :: placeCells split tring (a + 1) (b + 1) rest

/-- An IDLE cell with a valid CRC (R179, R194). -/
def idleCell : List Byte := sealCell (List.replicate 68 0)

/-- The downstream cells of a launched frame on ring `r`: the placed ones at the lowest indices, all others IDLE (R194). -/
def downCells (split r : Bool) (rate : BitVec 2) (placed : List (List Byte × Bool × Nat)) : List (List Byte) :=
  let own := (placed.filter fun x => !split || x.2.1 == r).map (·.1)
  own ++ List.replicate (ringCells rate - own.length) idleCell

/-- The uplink cells that a head launches on a ring: its own status in cell 0, IDLE in cells 1-1023 (R179, R194). -/
def upCells (s : State) (p : PortIdx) : List (List Byte) :=
  let own := uplinkSent s p
  (if own.isEmpty then idleCell else own) :: List.replicate 1023 idleCell

/-- Lane frame `l` that a head launches on the ring that enters port `p`, scrambled (R168, R169, R194), at RATEMAX of that
ring (log entry 99). Nothing leaves on a lane that is off or sends TRAIN, or while a boundary-scan test is active (R162,
R166). -/
def launchLane (s : State) (probe : Bool) (placed : List (List Byte × Bool × Nat)) (p : PortIdx) (l : Fin 2) : List Byte :=
  let out := otherPort p
  if s.jtag.ir.testing || !laneOn s (txDomain out l) || sendsTrain s out then []
  else
    let rate := (lport s p).ratemax
    scrambleLane (laneFrame rate (headHalf (headFields s (p == 1) probe))
      (laneCells l.val (downCells (bit s.head.cfg 14) (p == 1) rate placed)) (laneCells l.val (upCells s p)))

/-- The head delivers the cells it sends to its own CHN, as if received (R194). -/
def ownDelivery (cells : List (List Byte × Bool × Nat)) (s : State) : State :=
  cells.foldl (fun s x =>
    let bytes : CellBytes := Vector.ofFn fun i => x.1.getD i.val 0
    deliverCell { frame := BitVec.ofNat 40 (frameOf s.chn.ctime), ring := x.2.1, idx := x.2.2, ok := true, bytes := bytes } s) s

/-- A frame is launched on both rings (R191, R194). -/
def launchFrame (s : State) : State :=
  let x := s.head
  let probe := !x.counting && (x.probing || probeDue s)
  let cells := placeCells (bit x.cfg 14) s.chn.tring 0 0 x.queue
  ownDelivery cells { s with
    chn := { s.chn with
      sent := Vector.ofFn fun p => (launchLane s probe cells p 0, launchLane s probe cells p 1)
      split := bit x.cfg 14, lock := true }
    head := { x with
      queue := [], txCells := cells, cmd := if x.counting then 1 else 0, probing := false
      sinceProbe := if probe then 0 else x.sinceProbe + 1
      foreign := match x.foreign with | some k => if k < 16 then some (k + 1) else none | none => none } }

/-- HEAD_FRAME_LAUNCH (R194). -/
def execHeadFrameLaunch (s : State) : Host.Outcome State Fault Refusal := .next (if originates s then launchFrame s else s)

/-- HEAD_PROBE (R194): the next frame is a PROBE. -/
def execHeadProbe (s : State) : Host.Outcome State Fault Refusal :=
  .next { s with head := { s.head with probing := s.head.probing || probeDue s } }

/-! ## Its registers (Table 7.6) -/

/-- CHN_HEAD without REMUSTER. -/
def headFieldsRw : List Field := [⟨16, 8, .all, .rw⟩, ⟨15, 1, .all, .rw⟩, ⟨14, 1, .all, .rw⟩, ⟨13, 1, .all, .rw⟩,
  ⟨0, 6, .clamp 8 48, .rw⟩]

/-- A write of CHN_HEAD (R191, R193). -/
def writeHead (v : Word) (s : State) : State :=
  let rise := bit v 15 && !bit s.head.cfg 15
  let s := { s with head := { s.head with cfg := applyWrite headFieldsRw s.head.cfg v } }
  let s := if rise then candidateTrigger s else s
  if bit v 31 then remuster s else s

/-- HEAD_REMUSTER (R191). -/
def execHeadRemuster (s : State) : Host.Outcome State Fault Refusal := .next (if pd1Up s then remuster s else s)

/-- HEAD_CANDIDATE_ENABLE (R193): a write of CHN_HEAD with EN = 1. -/
def execHeadCandidateEnable (v : Word) (s : State) : Host.Outcome State Fault Refusal :=
  .next (if pd1Up s && !beforeFuse s then writeHead (setBit v 15 true) s else s)

/-- A write of HTXGO (R194): RING is stored and the cell of HTXBUF enters the queue of 64, or is discarded with HTXDROP. -/
def writeHtx (ring : BitVec 2) (go : Bool) (x : Head) : Head :=
  let r : BitVec 2 := if ring = 3 then 0 else ring
  let x := { x with htxRing := r }
  if !go then x
  else if 64 ≤ x.queue.length then { x with htxdrop := true }
  else { x with queue := x.queue ++ [((List.range 68).map fun i => cget zeroCell x.htxbuf i, r)] }

/-- HEAD_CELL_QUEUE (R194). -/
def execHeadCellQueue (ring : BitVec 2) (s : State) : Host.Outcome State Fault Refusal :=
  .next (if pd1Up s && !beforeFuse s then { s with head := writeHtx ring true s.head } else s)

/-- A write of CHN_CTSET's high word (R194): in head role GO loads the count for the next frame. -/
def writeCtset (hi : Byte) (go : Bool) (s : State) : State :=
  { s with head := { s.head with ctsetHi := hi, ctsetGo := s.head.ctsetGo || (go && isHead s) } }

/-- CTSET_LOAD (R194). -/
def execCtsetLoad (hi : Byte) (s : State) : Host.Outcome State Fault Refusal :=
  .next (if pd1Up s && !beforeFuse s then writeCtset hi true s else s)

/-! ## Genlock (R195) -/

/-- Genlock works: EN = 1 in head role. -/
def genlockOn (s : State) : Bool := pd1Up s && isHead s && bit s.head.gen 31

/-- Signed distance of a time from the nearest start of a FRAMES-th frame. -/
def genlockError (gen : Word) (t : Quad) : Int :=
  let m := fld gen 0 16 * frameUnits
  let r := t.toNat % m
  if 2 * r < m then r else (r : Int) - m

/-- One comparison: PHERR, GENLK and the trim of the lane frequency (R195). An error beyond PHERR's 24 bits has no stated
reading there (log entry 38). -/
def genlockCompare (t : Quad) (s : State) : State :=
  let x := s.head
  let e := genlockError x.gen t
  let fits : Bool := decide (-8388608 ≤ e) && decide (e < 8388608)
  let run := if e.natAbs ≤ 6710 then min (x.genRun + 1) 8 else 0
  let lim : Int := (fld x.gen 0 16 * 125 / 2 : Nat)
  let step := clampI (-lim) lim (Config.genlockTrim e x.genRun)
  (s.setFree (if fits then s.free else s.free + 1)).setHead { x with
    genEdges := 0, genRun := run, genlk := x.genlk || run == 8, trim := clampI (-100000) 100000 (x.trim + step)
    pherr := if fits then BitVec.ofInt 24 e else (Config.freeWord s.free).setWidth 24 }

/-- An edge of the chosen polarity in head role: every PERIODS-th one is compared (R195). -/
def genlockEdge (t : Quad) (s : State) : State :=
  if s.head.genEdges + 1 < fld s.head.gen 16 8 then { s with head := { s.head with genEdges := s.head.genEdges + 1 } }
  else genlockCompare t s

/-- GENLOCK_EDGE (R195): an edge on the GENLOCK pin, GP2, at CTIME `t`. -/
def execGenlockEdge (rising : Bool) (t : Quad) (s : State) : Host.Outcome State Fault Refusal :=
  .next (if genlockOn s && rising == !bit s.head.gen 30 then genlockEdge t s else s)

/-- GENLOCK_LOSS (R195): the trim holds and GENLK clears. -/
def execGenlockLoss (s : State) : Host.Outcome State Fault Refusal :=
  .next (if genlockOn s then { s with head := { s.head with genlk := false, genRun := 0, genEdges := 0 } } else s)

/-! ## The uplink (R180, R389) -/

/-- A passing uplink cell reaches the head: a HELLO counts in MUSTER, a status record goes to mews (R191, R389). -/
def uplinkPass (u : Nat) (c : CellBytes) (s : State) : State :=
  let form := cellAux c / 256
  if cellType c = 6 ∧ cellAux c % 16 = 2 then
    countEnd { s with head := { s.head with hellos := if s.head.hellos.contains u then s.head.hellos else u :: s.head.hellos } }
  else if cellType c = 5 ∧ form ≤ 1 ∧ bit s.mgt.cfg 1 then
    mewsWrites (s.mgt.upbase.toNat + u * 64) (packWords ((List.range 64).map fun i => payByte c i)) s
  else s

/-- UPLINK_CELL (R180). -/
def execUplinkCell (_ring : Bool) (u : Fin 1024) (c : CellBytes) (s : State) : Host.Outcome State Fault Refusal :=
  .next (if !originates s then s
  else if !cellCrcOk c then { s with chn := { s.chn with uperr := satInc s.chn.uperr } }
  else uplinkPass u c s)

end Sys2Proof.Machine
end

