-- ==== Sys2Proof/Machine/Dmx.lean ====
section
/-! DEFINITION. The DMX ports and their RDM responder (R396-R401). -/

namespace Sys2Proof.Machine

/-- DMX works: the peripheral is enabled and PD65 is ON. -/
def dmxOn (s : State) : Bool := enabled s 5 && pdOn s 65

/-- Port `p`. -/
def dmxPort (s : State) (p : Fin 2) : DmxPort := s.dmx.port[p]

/-- Change port `p`. -/
def modDmx (p : Fin 2) (f : DmxPort → DmxPort) (s : State) : State :=
  { s with dmx := { s.dmx with port := s.dmx.port.set p (f (dmxPort s p)) } }

/-- Port `p` is an input that receives. -/
def dmxInputPort (s : State) (p : Fin 2) : Bool := dmxOn s && bit (dmxPort s p).cfg 31 && !bit (dmxPort s p).cfg 30

/-! ## Input (R397, R398) -/

/-- The level of mapped target `k` in the slots of a packet, slot 1 first (R398): none beyond them. -/
def slotLevel (x : DmxPort) (slots : List Byte) (k : Nat) : Option Nat :=
  let start := fld x.map 16 10
  let have_ (i : Nat) : Bool := 1 ≤ i && i ≤ 512 && i ≤ slots.length
  let val (i : Nat) : Nat := (slots.getD (i - 1) 0).toNat
  if bit x.cfg 16 then
    let i := start + 2 * k
    if have_ i && have_ (i + 1) then some (val i * 256 + val (i + 1)) else none
  else if have_ (start + k) then some (val (start + k) * 257) else none

/-- Levels of DMX0 wait before those of DMX1 that ended in the same tick (R398). -/
def orderDmx (p : Fin 2) (before : Nat) (w : List StreamLvl) : List StreamLvl :=
  let new := (w.drop before).map fun l => { l with dmx1 := p == 1 }
  let old := w.take before
  if p = 1 then old ++ new else old.takeWhile (fun l => !l.dmx1) ++ new ++ old.dropWhile (fun l => !l.dmx1)

/-- The levels of a NULL packet (R398): for session S15, in force from the next boundary (Table 13.1). -/
def dmxLevels (p : Fin 2) (slots : List Byte) (s : State) : State :=
  let x := dmxPort s p
  if !pdOn s 12 then s
  else
    let t := (List.range (fld x.map 0 10)).foldl (fun s k =>
      match slotLevel x slots k with
      | some v => if x.tbase.toNat + k ≤ 0xFFFF then acceptLevel 15 (x.tbase.toNat + k) v none 0 s else s
      | none => s) s
    { t with mrg := { t.mrg with wait := orderDmx p s.mrg.wait.length t.mrg.wait } }

/-- A packet ends on an input port (R397): the start code comes first, then the slots received. A 0xCC packet is the RDM
responder's with RDM = 1, which the RDM rows are; with RDM = 0 it counts as another start code (log entry 39). -/
def dmxPacket (p : Fin 2) (bytes : List Byte) (framingError : Bool) (s : State) : State :=
  let s := when framingError (modDmx p fun x => { x with frerr := satInc x.frerr }) s
  match bytes with
  | [] => s
  | c :: slots =>
    if c = 0 then dmxLevels p slots (modDmx p (fun x => { x with pkts := satInc x.pkts, lost := false }) s)
    else if c = 0xCC ∧ bit (dmxPort s p).cfg 29 then s
    else modDmx p (fun x => { x with altsc := satInc x.altsc }) s

/-- DMX_PACKET_END (R397, R398). -/
def execDmxPacketEnd (p : Fin 2) (slots : List Byte) (framingError : Bool) (s : State) : Host.Outcome State Fault Refusal :=
  .next (if dmxInputPort s p then dmxPacket p slots framingError s else s)

/-- DMX_LOST (R397): no NULL packet has ended for 1.25 s. -/
def execDmxLost (p : Fin 2) (s : State) : Host.Outcome State Fault Refusal :=
  .next (if dmxInputPort s p && !(dmxPort s p).lost then raise .dmx (modDmx p (fun x => { x with lost := true }) s) else s)

/-! ## Output (R399) -/

/-- OUT of a mapped target at the latest presentation (R399); a code that is no target presents 0. -/
def outOf (s : State) (t : Nat) : Nat :=
  if t < 80 then (vget s.mrg.out t {}).out.toNat else (cget zeroCell s.mrg.px t).toNat

/-- The value of slot `i` of an output packet (R399). -/
def txSlot (s : State) (p : Fin 2) (i : Nat) : Byte :=
  let x := dmxPort s p
  let start := fld x.map 16 10
  let w := if bit x.cfg 16 then 2 else 1
  let k := (i - start) / w
  if pixHood s then 0
  else if bit x.cfg 27 && decide (start ≤ i) && decide (k < fld x.map 0 10) then
    let o := outOf s (x.tbase.toNat + k)
    BitVec.ofNat 8 (if w = 2 ∧ (i - start) % 2 = 1 then o / 256 else o / 65536)
  else cget zeroCell x.txbuf (i - 1)

/-- An output port at the start of frame `f` (R399). -/
def dmxTrigger (f : Nat) (p : Fin 2) (s : State) : State :=
  let x := dmxPort s p
  if dmxOn s && bit x.cfg 31 && bit x.cfg 30 && f % fld x.tx 0 13 == 0 then
    if x.txBusy then modDmx p (fun x => { x with txskip := satInc x.txskip }) s
    else
      let data := 0 :: (List.range (fld x.tx 16 10)).map fun i => txSlot s p (i + 1)
      modDmx p (fun x => { x with txBusy := true, txData := data }) s
  else s

/-- Both output ports at a frame start. -/
def dmxFrame (s : State) : State := dmxTrigger (frameOf s.chn.ctime) 1 (dmxTrigger (frameOf s.chn.ctime) 0 s)

/-- DMX_TX_PACKET_END (R399): DE falls and the packet counts as sent. -/
def execDmxTxPacketEnd (p : Fin 2) (s : State) : Host.Outcome State Fault Refusal :=
  .next (if dmxOn s && (dmxPort s p).txBusy then
    modDmx p (fun x => { x with txBusy := false, pkts := satInc x.pkts }) s
  else s)

/-! ## The RDM responder (R400, Table 16.7) -/

/-- The responder's UID (R400). -/
def rdmUid (s : State) : BitVec 48 := s.dmx.manf ++ Config.uid.setWidth 32

/-- Port `p` answers RDM. -/
def rdmPort (s : State) (p : Fin 2) : Bool := dmxInputPort s p && bit (dmxPort s p).cfg 29

/-- A request is a broadcast to this responder (ANSI E1.20). -/
def rdmBroadcast (s : State) (q : RdmReq) : Bool := q.dest == BitVec.allOnes 48 || q.dest == s.dmx.manf ++ BitVec.allOnes 32

/-- A request reaches this responder. -/
def rdmAddressed (s : State) (p : Fin 2) (q : RdmReq) : Bool := rdmPort s p && (q.dest == rdmUid s || rdmBroadcast s q)

/-- The responder answers; a broadcast gets no response (R400). -/
def answer (q : RdmReq) (a : RdmAnswer) (s : State) : State :=
  { s with dmx := { s.dmx with answer := if rdmBroadcast s q then .silent else a } }

/-- A request that reaches the responder is answered, after its effect. -/
def rdm (p : Fin 2) (q : RdmReq) (effect : State → State) (a : RdmAnswer) (s : State) : Host.Outcome State Fault Refusal :=
  .next (if rdmAddressed s p q then effect (answer q a s) else s)

/-- String `i` of DMX_STR, up to its first zero (Table 16.11). -/
def rdmString (s : State) (i : Nat) : List Byte :=
  ((List.range 32).map fun k => cget zeroCell s.dmx.str (32 * i + k)).takeWhile (· != 0)

/-- DISC_UNIQUE_BRANCH (R400, E1.20): an unmuted responder in the range answers with its UID. -/
def execDiscUniqueBranch (p : Fin 2) (q : RdmReq) (lo hi : BitVec 48) (s : State) : Host.Outcome State Fault Refusal :=
  .next (if rdmAddressed s p q then
    let hit := !(dmxPort s p).muted && decide (lo ≤ rdmUid s) && decide (rdmUid s ≤ hi)
    { s with dmx := { s.dmx with answer := if hit then .discovery (rdmUid s) else .silent } }
  else s)

/-- DISC_MUTE (R400, E1.20). -/
def execDiscMute (p : Fin 2) (q : RdmReq) (s : State) : Host.Outcome State Fault Refusal :=
  rdm p q (modDmx p fun x => { x with muted := true }) (.ack 0x0002 [0, 0]) s

/-- DISC_UN_MUTE (R400, E1.20). -/
def execDiscUnMute (p : Fin 2) (q : RdmReq) (s : State) : Host.Outcome State Fault Refusal :=
  rdm p q (modDmx p fun x => { x with muted := false }) (.ack 0x0003 [0, 0]) s

/-- SUPPORTED_PARAMETERS (R400): the optional PIDs of Table 16.7. -/
def execSupportedParameters (p : Fin 2) (q : RdmReq) (s : State) : Host.Outcome State Fault Refusal :=
  rdm p q id (.ack 0x0050 [0x00, 0x80, 0x00, 0x81, 0x00, 0x82, 0x10, 0x01]) s

/-- The parameter data of DEVICE_INFO (R400, E1.20): version, MODEL, CAT, SWVER, footprint, personality 1 of 1, START, no
sub-devices, no sensors. -/
def deviceInfo (s : State) (p : Fin 2) : List Byte :=
  let x := dmxPort s p
  [1, 0] ++ beBytes 2 s.dmx.model.toNat ++ beBytes 2 s.dmx.cat.toNat ++ beBytes 4 s.dmx.swver.toNat
    ++ beBytes 2 (fld x.map 0 10 * (1 + (bit x.cfg 16).toNat)) ++ [1, 1] ++ beBytes 2 (fld x.map 16 10) ++ [0, 0, 0]

/-- DEVICE_INFO (R400). -/
def execDeviceInfo (p : Fin 2) (q : RdmReq) (s : State) : Host.Outcome State Fault Refusal :=
  rdm p q id (.ack 0x0060 (deviceInfo s p)) s

/-- DEVICE_MODEL_DESCRIPTION (R400). -/
def execDeviceModelDescription (p : Fin 2) (q : RdmReq) (s : State) : Host.Outcome State Fault Refusal :=
  rdm p q id (.ack 0x0080 (rdmString s 0)) s

/-- MANUFACTURER_LABEL (R400). -/
def execManufacturerLabel (p : Fin 2) (q : RdmReq) (s : State) : Host.Outcome State Fault Refusal :=
  rdm p q id (.ack 0x0081 (rdmString s 1)) s

/-- DEVICE_LABEL, GET (R400). -/
def execDeviceLabelGet (p : Fin 2) (q : RdmReq) (s : State) : Host.Outcome State Fault Refusal :=
  rdm p q id (.ack 0x0082 (rdmString s 2)) s

/-- String 2 is replaced and DMX raised. -/
def storeLabel (label : List Byte) (s : State) : State :=
  raise .dmx { s with dmx := { s.dmx with str := cputs zeroCell s.dmx.str 64 (slice label 0 32) } }

/-- DEVICE_LABEL, SET (R400): NR_DATA_OUT_OF_RANGE beyond 32 bytes. -/
def execDeviceLabelSet (p : Fin 2) (q : RdmReq) (label : List Byte) (s : State) : Host.Outcome State Fault Refusal :=
  if label.length ≤ 32 then rdm p q (storeLabel label) (.ack 0x0082 []) s
  else rdm p q id (.nack 0x0082 6) s

/-- SOFTWARE_VERSION_LABEL (R400). -/
def execSoftwareVersionLabel (p : Fin 2) (q : RdmReq) (s : State) : Host.Outcome State Fault Refusal :=
  rdm p q id (.ack 0x00C0 (rdmString s 3)) s

/-- DMX_START_ADDRESS, GET (R400). -/
def execDmxStartAddressGet (p : Fin 2) (q : RdmReq) (s : State) : Host.Outcome State Fault Refusal :=
  rdm p q id (.ack 0x00F0 (beBytes 2 (fld (dmxPort s p).map 16 10))) s

/-- DMX_START_ADDRESS, SET (R400): 1-512, else NACK. -/
def execDmxStartAddressSet (p : Fin 2) (q : RdmReq) (start : Half) (s : State) : Host.Outcome State Fault Refusal :=
  if 1 ≤ start.toNat ∧ start.toNat ≤ 512 then
    rdm p q (fun s => raise .dmx (modDmx p (fun x => { x with map := setFld x.map 16 10 start.toNat }) s)) (.ack 0x00F0 []) s
  else rdm p q id (.nack 0x00F0 6) s

/-- IDENTIFY_DEVICE, GET (R400). -/
def execIdentifyDeviceGet (p : Fin 2) (q : RdmReq) (s : State) : Host.Outcome State Fault Refusal :=
  rdm p q id (.ack 0x1000 [BitVec.ofNat 8 (dmxPort s p).ident.toNat]) s

/-- IDENTIFY_DEVICE, SET (R400): 0 or 1, else NACK. -/
def execIdentifyDeviceSet (p : Fin 2) (q : RdmReq) (on : Byte) (s : State) : Host.Outcome State Fault Refusal :=
  if on.toNat ≤ 1 then
    rdm p q (fun s => raise .dmx (modDmx p (fun x => { x with ident := on == 1 }) s)) (.ack 0x1000 []) s
  else rdm p q id (.nack 0x1000 6) s

/-- RESET_DEVICE, SET (Table 16.7): NR_WRITE_PROTECT with RSTEN = 0; after the ACK a soft reset. -/
def execResetDevice (p : Fin 2) (q : RdmReq) (kind : Byte) (s : State) : Host.Outcome State Fault Refusal :=
  if !bit (dmxPort s p).cfg 26 then rdm p q id (.nack 0x1001 4) s
  else if kind = 0x01 then rdm p q (softReset true) (.ack 0x1001 []) s
  else if kind = 0xFF then rdm p q (softReset false) (.ack 0x1001 []) s
  else rdm p q id (.nack 0x1001 6) s

/-- The PID of a request, bytes 21-22 from its start code (E1.20). -/
def requestPid (req : List Byte) : Half := BitVec.ofNat 16 (beNat (slice req 21 2))

/-- RDM_FORWARD (R401): a request for a PID outside Table 16.7. -/
def execRdmForward (p : Fin 2) (q : RdmReq) (req : List Byte) (s : State) : Host.Outcome State Fault Refusal :=
  if bit (dmxPort s p).cfg 28 && !s.dmx.rxrdy then
    rdm p q (fun s => raise .dmx { s with dmx := { s.dmx with
      rxrdy := true, rdmrx := req.take 257, fwdPort := p, fwdPid := requestPid req, fwdBcast := rdmBroadcast s q } }) .silent s
  else rdm p q id (.nack (requestPid req) 0) s

/-- The responder's late answer to a forwarded request (R401). -/
def forwardAnswer (a : RdmAnswer) (d : Dmx) : Dmx := { d with rxrdy := false, answer := if d.fwdBcast then .silent else a }

/-- A write of DMX_RDMCTL (R401): TXLEN is stored, and GO sends the response of a waiting request. -/
def writeRdmctl (len : Nat) (go : Bool) (d : Dmx) : Dmx :=
  let n := min len 257
  let d := { d with txlen := BitVec.ofNat 9 n }
  if go && d.rxrdy then forwardAnswer (.raw ((List.range n).map fun i => cget zeroCell d.rdmtx i)) d else d

/-- RDM_RESPONSE_GO (R401). -/
def execRdmResponseGo (len : BitVec 9) (s : State) : Host.Outcome State Fault Refusal :=
  .next (if dmxOn s then { s with dmx := writeRdmctl len.toNat true s.dmx } else s)

/-- RDM_FORWARD_TIMEOUT (R401). -/
def execRdmForwardTimeout (s : State) : Host.Outcome State Fault Refusal :=
  .next (if dmxOn s && s.dmx.rxrdy then { s with dmx := forwardAnswer (.nack s.dmx.fwdPid 0) s.dmx } else s)

end Sys2Proof.Machine
end

