-- ==== Sys2Proof/Machine/Tick.lean ====
section
/-! DEFINITION. What happens at a tick boundary and at a frame boundary of chain time (R22, R29, R181, R179, R388). -/

namespace Sys2Proof.Machine

/-! ## The end of a tick (R227-R236, R242-R244) -/

/-- Every wavetable read of the tick that has not been answered is answered now. -/
def answerReads (s : State) : State :=
  (List.range 512).foldl (fun s i => wtRead i 1 (wtRead i 0 s)) s

/-- A voice at the end of the `t`-th tick: it is rendered, or its FAULTED hold runs. -/
def Voice.endTick (t fhold : Nat) (v : Voice) : Voice :=
  if v.inTick t then v.finishTick fhold
  else if v.state = .faulted then { v with faultLeft := v.faultLeft - 1, rendered := v.rendered + 1 }
  else v

/-- Voices that became FAULTED between two images of VOX. -/
def newFaults (old new : Vox) : List Nat :=
  (List.range 512).filter fun i => (vget new.voice i {}).state == .faulted && (vget old.voice i {}).state != .faulted

/-- Every voice at the end of the tick; faults are counted, and a pending event that its voice's fault discards counts
NOVOICE (R244, log entry 40). -/
def renderVoices (s : State) : State :=
  let fh := s.vox.fhold.toNat * 48
  let x := { s.vox with voice := s.vox.voice.map fun v => v.endTick s.chn.ticks fh }
  let bad := newFaults s.vox x
  bad.foldl (fun t i => match (vox s i).pend with | some p => countNovoice p.sess t | none => t)
    { s with vox := { x with faults := satAdd x.faults bad.length } }

/-- A voice whose ENV0 has completed, or whose FAULTED hold is over, ends after its last level was presented (R234, R244,
Table 9.9). -/
def Voice.expire (v : Voice) : Voice :=
  match v.state with
  | .sounding | .held | .releasing => if vget v.done 0 false then v.ended else v
  | .faulted => if v.faultLeft = 0 then v.ended else v
  | _ => v

/-- The voices at the end of the tick, with the records that reads return from now on (R234, R241, R245). -/
def endVoiceTick (set_ : BitVec 32) (x : Vox) : Vox :=
  let vs := x.voice.map fun v => { v.expire with stolen := false }
  { x with voice := vs, shown := vs, shownSet := set_ }

/-- The tick that ends: outstanding reads, rendering, presentation, voices that end. -/
def closeTick (s : State) : State :=
  let s := present s.chn.ticks (renderVoices (answerReads (completeAll s)))
  { s with vox := endVoiceTick s.epoch.eyrieSet s.vox }

/-! ## Chain time moves on -/

/-- CTIME at a boundary: it never runs backward there (R183). -/
def ctimeAt (now : Quad) (t : Nat) : Quad :=
  let b := BitVec.ofNat 64 t
  if (b - now).toNat < 2 ^ 63 then b else now

/-- The boundary numbered `b` is reached. -/
def reachTick (b : Nat) (s : State) : State :=
  s.setChn { s.chn with tick := b, ticks := s.chn.ticks + 1, ctime := ctimeAt s.chn.ctime (tickTime b) }

/-! ## The start of a tick -/

/-- Every voice that renders begins the tick: modulation, envelopes, stoop (R231, R237, R258). -/
def beginVoices (b : Nat) (s : State) : State :=
  let one (i : Nat) (v : Voice) : Voice :=
    if v.inTick s.chn.ticks then
      v.beginTick (globalSource s b) (vget (s.epoch.eyrieTable (i / 16)).ovl v.sess.val (Vector.replicate 4 0))
    else v
  { s with vox := { s.vox with voice := s.vox.voice.mapIdx one } }

/-- What boundary `b` starts, in the order of the rules: epoch and vacate steps, the session table, levels, dispatch, voices
(R22, R101, R217, R226, R264, R318, R322, R324). -/
def openTick (b : Nat) (s : State) : State :=
  let t := s.chn.ticks
  let s := turnSessions (migrationTick (vacateTick (migrationDone s)))
  let s := (idleSessions t s).foldl (fun s n => timeOut n s) (applyLevels b t s)
  let s := endStoops t (setRes (applyVoxKill t s))
  let s := when (disOn s) (fun s => issuePrefetch b (applyParams (handOver b t s))) s
  beginVoices b s

/-- What else runs at a boundary: the sample clock of AOU, CHAIN timers, the sense trigger, pixel snapshots, PEND.TICK and the
hood mirrors. -/
def tickOthers (b : Nat) (s : State) : State :=
  let s := pixSnapshot (snsTrigger 1 (chainTick false (queueFire b s)))
  when s.sys.dlink mirror { s with kst := setPendAll 2 s.kst }

/-- The tick that ends, in an order in which the missing-frame hold acts on what its boundary presents (R324). While the VOX
island does not run, eyries and merge stand still (R76). -/
def endTick (s : State) : State :=
  if islandUp s 0 then closeTick (missTick (s.chn.ticks + 1) s) else completeAll s

/-- The tick that begins: BEATPULSE first, which its voices sample (R237); while the VOX island does not run only the session
table turns over (R22, R76). -/
def beginTick (b : Nat) (s : State) : State :=
  let s := beatTick s
  if islandUp s 0 then openTick b s else turnSessions s

/-- A tick boundary (R29). In ROOST the islands that would work stand still and outputs are frozen (R404, Table 16.8): chain
time moves on, and a vacate that a sag found under way runs to its end (R94, log entry 82). -/
def tickBoundary (s : State) : State :=
  let b := s.chn.tick + 1
  if s.mode.code = .roost then vacateTick (reachTick b s)
  else tickOthers b (beginTick b (reachTick b (endTick s)))

/-- PD1 is up and FUSE has ended. -/
def chainRuns (s : State) : Bool := pd1Up s && !beforeFuse s

/-- Chain time counts: the SYS island, which CHN runs on, is not frozen (R76). -/
def chainCounts (s : State) : Bool := chainRuns s && !s.ckp.frozen 1

/-- TICK_BOUNDARY (R29). -/
def execTickBoundary (s : State) : Host.Outcome State Fault Refusal := .next (if chainCounts s then tickBoundary s else s)

/-! ## The uplink record (R179, R388, Table 16.3) -/

/-- Code of a port state (Table 6.6). -/
def PortState.code : PortState → Nat
  | .up => 0 | .wrapped => 1 | .armed => 2 | .isolated => 3

/-- VOX_VSTAT.ACTIVE (Table 9.14). -/
def activeVoices (s : State) : Nat := s.vox.voice.countP Voice.active

/-- The status record, 64 bytes (Table 16.3). -/
def statusRecord (s : State) : List Byte :=
  let c := s.chn
  let mode := s.mode.code.num + s.mode.busy.toNat * 8 + s.ros.look.toNat * 16 + c.late.toNat * 32
  let flags := c.lock.toNat + c.ranged.toNat * 2 + c.frozen.toNat * 4 + c.freerun.toNat * 8 + c.held.toNat * 16
  let tdie : Byte := BitVec.ofInt 8 (clampI (-128) 127 s.mrg.tdie.toInt)
  let ports := (lport s 0).state.code + (lport s 1).state.code * 4 + (lport s 0).rate.toNat * 16 + (lport s 1).rate.toNat * 64
  beBytes 1 mode ++ beBytes 1 flags ++ beBytes 2 s.host.hoodst.toNat ++ beBytes 4 s.host.isr.toNat
    ++ beBytes 6 Config.uid.toNat ++ [tdie] ++ beBytes 1 ports ++ beBytes 2 s.sns.vfield.toNat
    ++ beBytes 2 s.sns.vhold.toNat ++ beBytes 2 (activeVoices s) ++ beBytes 2 (min c.fecNew 65535)
    ++ beBytes 2 s.mgt.logTotal.toNat ++ beBytes 1 s.mgt.cstate.toNat ++ [0] ++ beBytes 4 s.mgt.rseq.toNat
    ++ [s.mgt.rres, s.mgt.rfn, 0, 0] ++ beBytes 4 s.mgt.rdata.toNat ++ List.replicate 24 0

/-- The uplink cell composed for ring `r` (R179): HELLO before END, status-absent while that ring's tap port is not ON,
else the status record. -/
def uplinkCell (s : State) (r : Fin 2) : List Byte :=
  if !s.chn.held then []
  else if saysHello s then
    uplinkBytes s 6 2 (beBytes 6 Config.uid.toNat ++ [0xB0] ++ List.replicate 57 0)
  else if !pdOn s (2 + r.val) then absentCell s
  else uplinkBytes s 5 0 (statusRecord s)

/-! ## The frame boundary (R181) -/

/-- The frame that the next frame boundary starts: the next count, or the one that CTSET loads in head role (R194). -/
def nextFrame (s : State) : Nat :=
  if isHead s && s.head.ctsetGo then s.head.ctsetHi.toNat * 4294967296 + s.head.ctsetLo.toNat else s.chn.tick / 6 + 1

/-- The start of frame `f`; its tick 0 is the next tick boundary. -/
def reachFrame (f : Nat) (s : State) : State :=
  let load := isHead s && s.head.ctsetGo
  let now := f * frameUnits
  { s with
    chn := { s.chn with
      tick := (if f = 0 then 1099511627776 * 6 else f * 6) - 1
      ctime := if load then BitVec.ofNat 64 now else ctimeAt s.chn.ctime now }
    head := { s.head with ctsetGo := false } }

/-- The uplink cells are composed (R179, R388). -/
def composeUplink (s : State) : State :=
  { s with chn := { s.chn with uplink := Vector.ofFn fun r => uplinkCell s r, fecNew := 0 } }

/-- The MODE hood of an entry to SHOW lifts, and with it the restored look ends (Table 2.4, R408); the failover hood lifts
once every PWM island runs from its nominal source again (R78). -/
def liftHoods (s : State) : State :=
  let s := { s with ckp := { s.ckp with hood := s.ckp.hood && !s.ckp.nominalAgain } }
  if s.drv.liftAtFrame then endLook { s with drv := { s.drv with modeHood := false, liftAtFrame := false } } else s

/-- Outputs that a frame start drives; frozen in ROOST (Table 16.8). -/
def frameOutputs (s : State) : State := if s.mode.code = .roost then s else dmxFrame (pixFrame (emtFrame s))

/-- A frame boundary (R181). -/
def frameBoundary (s : State) : State :=
  let s := frameOutputs (liftHoods (composeUplink (reachFrame (nextFrame s) s)))
  let s := snsTrigger 2 (chainTick true s)
  { s with kst := setPendAll 3 s.kst }

/-- FRAME_BOUNDARY (R181). -/
def execFrameBoundary (s : State) : Host.Outcome State Fault Refusal := .next (if chainCounts s then frameBoundary s else s)

end Sys2Proof.Machine
end

