-- ==== Sys2Proof/Machine/Gate.lean ====
section
/-! DEFINITION. The rows of the island gate controller: commands, drain end, switching and the update timeout (R91-R112,
Tables 4.3-4.7). What they share with mode entries is in Machine/Gating.lean. -/

namespace Sys2Proof.Machine

/-- A command of an issuer (R91, R92): refusals in the order RULE, MODE, BUSY (log entry 42). A NOP, and codes 6 and 7, are
not evaluated for refusal and leave RESULT as it is (log entry 78). -/
def gateCommand (r : Requester) (c : GateCmd) (pd : BitVec 7) (s : State) : State :=
  let n := gateDomain pd
  if c = .nop then s
  else if gateRule s c r n then gateResult 3 c r n s
  else if gateMode s r n then gateResult 4 c r n s
  else if s.gate.busy then gateResult 2 c r n s
  else gateAct c r n s

/-- SYS_GATECMD can be written: PD1 is up and FUSE has ended. -/
def gateReachable (s : State) : Bool := chainRuns s

/-- GATE_NOP (R91). -/
def execGateNop (_r : Requester) (_pd : BitVec 7) (s : State) : Host.Outcome State Fault Refusal := .next s
/-- GATE_DOWN (R95). -/
def execGateDown (r : Requester) (pd : BitVec 7) (s : State) : Host.Outcome State Fault Refusal :=
  .next (if gateReachable s then gateCommand r .down pd s else s)
/-- GATE_UP (R98). -/
def execGateUp (r : Requester) (pd : BitVec 7) (s : State) : Host.Outcome State Fault Refusal :=
  .next (if gateReachable s then gateCommand r .up pd s else s)
/-- GATE_RESET (R98). -/
def execGateReset (r : Requester) (pd : BitVec 7) (s : State) : Host.Outcome State Fault Refusal :=
  .next (if gateReachable s then gateCommand r .reset pd s else s)
/-- GATE_UPDATE (R111). -/
def execGateUpdate (r : Requester) (pd : BitVec 7) (s : State) : Host.Outcome State Fault Refusal :=
  .next (if gateReachable s then gateCommand r .update pd s else s)
/-- GATE_REOPEN (R112). -/
def execGateReopen (r : Requester) (pd : BitVec 7) (s : State) : Host.Outcome State Fault Refusal :=
  .next (if gateReachable s then gateCommand r .reopen pd s else s)

/-! ## The later steps of a command -/

/-- GATE_DRAIN_END (R96, R97): what the domain has accepted and not performed is abandoned; DOWN goes on to the switch,
RESET asserts the reset, UPDATE is CLOSED. A kestrel is held in reset since its gate closed (R106). -/
def drainEnd (s : State) : State :=
  match s.gate.run with
  | some (c, n, r) =>
    if s.gate.phase ≠ 3 then s
    else
    let s := abandonAll s
    match c with
      | .down => { s with gate := { s.gate with phase := 4 } }
      | .reset => assertReset n { s with gate := { s.gate with phase := 4 } }
      | _ => gateFinish .closed
          { s with gate := { s.gate with updater := s.gate.updater ++ [(n.val, r)] } }
  | none => s

/-- GATE_DRAIN_END (R96). -/
def execGateDrainEnd (s : State) : Host.Outcome State Fault Refusal := .next (drainEnd s)

/-- GATE_OFF_DONE (R95): the switch of a domain that goes down is open. -/
def execGateOffDone (s : State) : Host.Outcome State Fault Refusal :=
  .next (match s.gate.run with
    | some (.down, n, _) => if s.gate.phase = 4 then gateFinish .off (powerOffDomain n s) else s
    | _ => s)

/-- GATE_POWERUP_DONE (R98, R88): the domain is initialised and ON, or CLOSED for an UPDATE. -/
def execGatePowerupDone (s : State) : Host.Outcome State Fault Refusal :=
  .next (match s.gate.run with
    | some (c, n, r) =>
      if s.gate.phase ≠ 5 then s
      else if c = .update then
        gateFinish .closed { (powerUpDomain n s) with gate := { s.gate with updater := s.gate.updater ++ [(n.val, r)] } }
      else gateFinish .on (gateOpens n (powerUpDomain n s))
    | none => s)

/-- GATE_RESET_RELEASE (R98): the reset is released and the gate opens. -/
def execGateResetRelease (s : State) : Host.Outcome State Fault Refusal :=
  .next (match s.gate.run with
    | some (.reset, n, _) => if s.gate.phase = 4 then gateFinish .on (gateOpens n s) else s
    | _ => s)

/-- UPDATE_TIMEOUT (R112): the domain that has been CLOSED longest opens with RESULT = UPDTMO, once no command runs. -/
def execUpdateTimeout (s : State) : Host.Outcome State Fault Refusal :=
  .next (match s.gate.updater with
    | (n, r) :: rest =>
      if s.gate.busy then s
      else
        let d := gateDomain (BitVec.ofNat 7 n)
        gateResult 5 .update r d (gateOpens n { s with gate := { setPd n .on s.gate with updater := rest } })
    | [] => s)

end Sys2Proof.Machine
end

