-- ==== Sys2Proof/Machine/RegsSys.lean ====
section
/-! DEFINITION. The registers of SYS, CKP and the lane blocks CHW and CHE: what a read returns, what it clears, what a
write does (Tables 1.6-1.8, 4.6-4.9, 17.16, 3.6-3.12, 6.8-6.13). An offset with no register reads 0 and ignores writes
(R13). -/

namespace Sys2Proof.Machine

/-- A register word from the values of its fields, each at its lowest bit. -/
def pack (fs : List (Nat × Nat)) : Word := BitVec.ofNat 32 (fs.map fun f => f.2 * 2 ^ f.1).sum

/-- A word from a number. -/
def word (n : Nat) : Word := BitVec.ofNat 32 n

/-- The low bits of a written word. -/
def low {n : Nat} (k : Nat) (v : BitVec n) : BitVec k := v.setWidth k

/-! ## SYS -/

/-- The code of a domain's state (Table 4.4). -/
def PdState.code : PdState → Nat
  | .off => 0 | .on => 1 | .closed => 2 | .transit => 3

/-- SYS_GATESTAT (Table 4.7). -/
def gatestat (g : Gate) : Word :=
  pack [(31, g.busy.toNat), (28, g.phase.toNat), (24, g.result.toNat), (20, g.src.toNat), (16, g.cmd.toNat),
    (8, g.lost.toNat), (0, g.pdReg.toNat)]

/-- SYS_PDSTATEn (Table 4.9). -/
def pdstate (g : Gate) (n : Nat) : Word :=
  pack ((List.range 16).map fun i => (2 * i, (g.pd[16 * n + i]?.map PdState.code).getD 0))

/-- SYS_GPIO.IN: a driven pin has the level driven on it; the level of any other pin is the outside's, so it is free. -/
def gpioIn (s : State) : Byte :=
  (s.sys.gpioOut &&& s.sys.gpioOe) ||| ((Config.freeWord s.free).setWidth 8 &&& ~~~s.sys.gpioOe)

/-- A read of SYS. -/
def sysRead (s : State) (off : Nat) : Word :=
  if off = 0x0 then 0x5164B020
  else if off = 0x4 then pack [(0, s.sys.absCount.toNat)]
  else if off = 0x8 then s.sys.lastAbs
  else if off = 0x104 then gatestat s.gate
  else if off = 0x108 then pack [(0, s.gate.updtmo.toNat)]
  else if 0x110 ≤ off ∧ off < 0x124 then pdstate s.gate ((off - 0x110) / 4)
  else if off = 0x200 then pack [(16, (gpioIn s).toNat), (8, s.sys.gpioOe.toNat), (0, s.sys.gpioOut.toNat)]
  else 0

/-- What a read of SYS changes: COUNT clears (Table 1.7); a reading of pin levels uses a free value. -/
def sysReadEffect (off : Nat) (s : State) : State :=
  if off = 0x4 then { s with sys := { s.sys with absCount := 0 } }
  else if off = 0x200 then { s with free := s.free + 1 }
  else s

/-- A write of SYS by `r`. -/
def sysWrite (r : Requester) (off : Nat) (v : Word) (s : State) : State :=
  if off = 0x100 then gateCommand r (GateCmd.ofCode (fld v 16 3)) (low 7 v) s
  else if off = 0x108 then { s with gate := { s.gate with updtmo := low 10 (applyWrite gatecfgFields 0 v) } }
  else if off = 0x200 then { s with sys := { s.sys with gpioOut := low 8 v, gpioOe := low 8 (v >>> 8) &&& 0xF9 } }
  else s

/-! ## CKP -/

/-- CKP_SRC (Table 3.6). -/
def ckpSrc (c : Ckp) : Word :=
  pack [(8, c.lock.toNat), (4, (c.isLive .cre).toNat), (3, (c.isLive .crw).toNat), (2, c.xoq.toNat),
    (1, (c.isLive .xo).toNat), (0, 1)]

/-- CKP_ICLKn (Table 3.12). -/
def iclkRead (i : Iclk) : Word :=
  pack [(31, i.sw.isSome.toNat), (30, i.held.isSome.toNat), (29, i.waitsrc.toNat), (28, i.failed.toNat),
    (26, i.act.toNat), (16, i.step.toNat), (9, fld i.cfg 9 3), (4, fld i.cfg 4 3), (0, fld i.cfg 0 2)]

/-- A read of CKP. -/
def ckpRead (s : State) (off : Nat) : Word :=
  let c := s.ckp
  if off = 0x0 then ckpSrc c
  else if off = 0x4 then c.stat
  else if off = 0x8 then pack [(16, c.run.toNat), (0, c.xoqCfg.toNat)]
  else if off = 0xC then pack [(31, c.xocntRec.toNat), (0, c.xocnt.toNat)]
  else if off = 0x10 then pack [(4, c.refNow.toNat), (0, c.refSel.toNat)]
  else if off = 0x14 then pack [(0, c.en.toNat)]
  else if 0x20 ≤ off ∧ off < 0x3C then iclkRead (c.icl ((off - 0x20) / 4))
  else 0

/-- CKP_STAT's flags that are written 1 clear (Table 3.7). -/
def Ckp.clearStat (c : Ckp) (v : Word) : Ckp :=
  { c with xolost := c.xolost && !bit v 4, refsw := c.refsw && !bit v 3, failover := c.failover && !bit v 1
           forced := c.forced && !bit v 0 }

/-- A write of CKP_EN (R83, R84): a pixel port that is disabled stops at once, and so does a DMX output. -/
def enableWrite (v : BitVec 6) (s : State) : State :=
  { s with
    ckp := s.ckp.writeEn v (coreStarted s)
    pix := if bit v 2 then s.pix else s.pix.cutOff
    dmx := if bit v 5 then s.dmx else { s.dmx with port := s.dmx.port.map fun p => { p with txBusy := false } } }

/-- A write of CKP. -/
def ckpWrite (off : Nat) (v : Word) (s : State) : State :=
  if off = 0x4 then { s with ckp := s.ckp.clearStat v }
  else if off = 0x8 then
    let t : State := { s with ckp := { s.ckp with xoqCfg := applyWrite xoqFields s.ckp.xoqCfg v } }
    if bit v 31 then requal t else t
  else if off = 0x10 then refSelect (low 2 v) s
  else if off = 0x14 then enableWrite (low 6 v) s
  else if 0x20 ≤ off ∧ off < 0x3C then writeIclk ((off - 0x20) / 4) v s
  else s

/-! ## CHW and CHE -/

/-- The code of a lane state (Table 6.3). -/
def RxState.code : RxState → Nat
  | .off => 0 | .hunt => 1 | .adapt => 2 | .ready => 3

/-- CHx_LSTAT (Table 6.9). -/
def lstatRead (s : State) (p : PortIdx) : Word :=
  let x := lport s p
  pack [(12, x.rate.toNat), (11, x.aligned.toNat), (10, x.hopchg.toNat), (9, (x.lane 1).los.toNat),
    (8, (x.lane 0).los.toNat), (4, (txSource s p).toNat), (2, (x.lane 1).st.code), (0, (x.lane 0).st.code)]

/-- TXSRC of a head: the spec names no code for a port that sends the head's own frames, so the reading is free (log
entry 43). -/
def lstatOf (s : State) (p : PortIdx) : Word :=
  if originates s && txSource s p != 0 && !sendsTrain s p then
    setFld (lstatRead s p) 4 3 ((Config.freeWord s.free).toNat % 5)
  else lstatRead s p

/-- A read of CHx. -/
def chxRead (s : State) (p : PortIdx) (off : Nat) : Word :=
  let x := lport s p
  if off = 0x0 then x.lcfg
  else if off = 0x4 then lstatOf s p
  else if off = 0x8 then pack [(16, x.wrapcnt.toNat), (8, x.cause.toNat), (0, x.state.code)]
  else if off = 0xC then x.wrapcfg
  else if off = 0x10 then
    pack [(31, (regenerates s p).toNat), (24, neff s p), (10, hopIndex s p), (0, x.rgn.toNat)]
  else if off = 0x14 then pack [(0, (hopDelay s p).toNat)]
  else if off = 0x18 then x.feccorr
  else if off = 0x1C then x.fecunc
  else if off = 0x20 then pack [(16, x.loscnt.toNat), (0, x.relock.toNat)]
  else if off = 0x30 then x.msbCmd
  else if off = 0x34 then
    pack [(31, x.msbBusy.toNat), (30, x.msbNack.toNat), (29, x.msbTmo.toNat), (9, x.prs.toNat), (8, x.lpmode.toNat),
      (0, x.msbRdata.toNat)]
  else 0

/-- What a read of CHx changes: the RC counters clear (Tables 6.10, 6.13). -/
def chxReadEffect (p : PortIdx) (off : Nat) (s : State) : State :=
  if off = 0x4 then (if originates s then { s with free := s.free + 1 } else s)
  else modPort p (fun x =>
    if off = 0x8 then { x with wrapcnt := 0 }
    else if off = 0x18 then { x with feccorr := 0 }
    else if off = 0x1C then { x with fecunc := 0 }
    else if off = 0x20 then { x with loscnt := 0, relock := 0 }
    else x) s

/-- CHx_LCFG (Table 6.8). -/
def lcfgFields : List Field := [⟨8, 2, .enum 3 0, .rw⟩, ⟨4, 1, .all, .rw⟩, ⟨0, 3, .all, .rw⟩]

/-- CHx_WRAPCFG (Table 6.11). -/
def wrapcfgFields : List Field := [⟨8, 8, .clamp 1 255, .rw⟩, ⟨1, 1, .all, .rw⟩, ⟨0, 1, .all, .rw⟩]

/-- CHx_RGN (Table 6.12). -/
def rgnFields : List Field := [⟨8, 2, .enum 3 0, .rw⟩, ⟨0, 6, .clamp 8 48, .rw⟩]

/-- A write of CHx. -/
def chxWrite (p : PortIdx) (off : Nat) (v : Word) (s : State) : State :=
  if off = 0xC then
    forceWrap p (bit v 0) (modPort p (fun x => { x with wrapcfg := setBit (applyWrite wrapcfgFields x.wrapcfg v) 0 (bit x.wrapcfg 0) }) s)
  else modPort p (fun x =>
    if off = 0x0 then { x with lcfg := applyWrite lcfgFields x.lcfg v }.capRates
    else if off = 0x4 then { x with hopchg := x.hopchg && !bit v 10 }
    else if off = 0x10 then { x with rgn := applyWrite rgnFields x.rgn v }
    else if off = 0x30 then x.msbWrite v
    else if off = 0x34 then { x with lpmode := bit v 8 }
    else x) s

end Sys2Proof.Machine
end

