-- ==== Sys2Proof/Machine/RegsChain.lean ====
section
/-! DEFINITION. The registers of CHN and DIS: what a read returns, what it clears, what a write does (Tables 7.6, 8.5,
10.6). -/

namespace Sys2Proof.Machine

/-- Sixteen bits of a UID's upper part. -/
def uidHi (u : BitVec 48) : Word := (u >>> 32).setWidth 32

/-- Four bytes of a byte array as a word, byte 0 lowest. -/
def cellsWord (c : Cells 8) (k : Nat) : Word := word (leNat ((List.range 4).map fun i => cget zeroCell c (k + i)))

/-- Store a word as four bytes, byte 0 lowest. -/
def putCellsWord (c : Cells 8) (k : Nat) (v : Word) : Cells 8 := cputs zeroCell c k (leBytes 4 v.toNat)

/-! ## CHN -/

/-- CHN_STAT. -/
def chnStat (s : State) : Word :=
  let c := s.chn
  pack [(31, c.lock.toNat), (30, c.ranged.toNat), (29, c.frozen.toNat), (28, c.freerun.toNat), (27, c.tring.toNat),
    (25, c.role.toNat), (24, c.step.toNat), (23, c.miss.toNat), (22, s.head.htxdrop.toNat), (21, s.head.genlk.toNat)]

/-- CHN_POS. -/
def chnPos (c : Chn) : Word :=
  pack [(31, c.held.toNat), (30, c.late.toNat), (29, c.overflow.toNat), (16, c.npos.toNat), (0, c.pos.toNat)]

/-- A read of the head role's registers. -/
def headRead (x : Head) (off : Nat) : Word :=
  if off = 0x40 then x.cfg
  else if off = 0x44 then pack [(0, x.hloop.toNat)]
  else if off = 0x48 then x.ctsetLo
  else if off = 0x4C then pack [(0, x.ctsetHi.toNat)]
  else if off = 0x50 then x.gen
  else if off = 0x54 then pack [(0, x.pherr.toNat)]
  else if off = 0x58 then pack [(0, x.htxRing.toNat)]
  else if off = 0x5C then word (64 - x.queue.length)
  else if off = 0x60 then x.found.setWidth 32
  else if off = 0x64 then uidHi x.found
  else if 0x1000 ≤ off ∧ off < 0x1044 then cellsWord x.htxbuf (off - 0x1000)
  else 0

/-- A read of CHN (Table 7.6). -/
def chnRead (s : State) (off : Nat) : Word :=
  let c := s.chn
  if off = 0x0 then c.ctime.setWidth 32
  else if off = 0x4 then c.cthi
  else if off = 0x8 then chnStat s
  else if off = 0xC then chnPos c
  else if off = 0x10 then pack [(0, c.mepoch.toNat)]
  else if off = 0x14 then Config.uid.setWidth 32
  else if off = 0x18 then uidHi Config.uid
  else if off = 0x1C then c.huid.setWidth 32
  else if off = 0x20 then uidHi c.huid
  else if off = 0x24 then pack [(0, c.offset.toNat)]
  else if off = 0x28 then pack [(0, c.ctot.toNat)]
  else if off = 0x2C then c.err
  else if off = 0x30 then c.cfg
  else if off = 0x34 then pack [(16, c.cellerr.toNat), (0, c.uperr.toNat)]
  else if off = 0x38 then pack [(0, c.filled.toNat)]
  else headRead s.head off

/-- What a read of CHN changes: CTLO latches, the RC counters clear. -/
def chnReadEffect (off : Nat) (s : State) : State :=
  if off = 0x0 then { s with chn := { s.chn with cthi := (s.chn.ctime >>> 32).setWidth 32 } }
  else if off = 0x34 then { s with chn := { s.chn with cellerr := 0, uperr := 0 } }
  else if off = 0x38 then { s with chn := { s.chn with filled := 0 } }
  else s

/-- TRSEL and LINKDLY. -/
def chnCfgFields : List Field := [⟨13, 2, .enum 3 0, .rw⟩, ⟨0, 12, .all, .rw⟩]

/-- The genlock register. -/
def genFields : List Field := [⟨31, 1, .all, .rw⟩, ⟨30, 1, .all, .rw⟩, ⟨16, 8, .clamp 1 255, .rw⟩, ⟨0, 16, .clamp 1 65535, .rw⟩]

/-- CHN_STAT's flags that are written 1 clear. -/
def chnStatWrite (v : Word) (s : State) : State :=
  { s with
    chn := { s.chn with step := s.chn.step && !bit v 24, miss := s.chn.miss && !bit v 23 }
    head := { s.head with htxdrop := s.head.htxdrop && !bit v 22 } }

/-- A write of CHN (Table 7.6). -/
def chnWrite (off : Nat) (v : Word) (s : State) : State :=
  if off = 0x8 then chnStatWrite v s
  else if off = 0x30 then retime { s with chn := { s.chn with cfg := applyWrite chnCfgFields s.chn.cfg v } }
  else if off = 0x40 then writeHead v s
  else if off = 0x48 then { s with head := { s.head with ctsetLo := v } }
  else if off = 0x4C then writeCtset (low 8 v) (bit v 31) s
  else if off = 0x50 then { s with head := { s.head with gen := applyWrite genFields s.head.gen v } }
  else if off = 0x58 then { s with head := writeHtx (low 2 v) (bit v 31) s.head }
  else if 0x1000 ≤ off ∧ off < 0x1044 then
    { s with head := { s.head with htxbuf := putCellsWord s.head.htxbuf (off - 0x1000) v } }
  else s

/-! ## Table-set windows of DIS (Table 10.6) -/

/-- A word of a session's allocation entry. -/
def allocWord (t : TableSet) (off : Nat) : Word :=
  if off % 16 = 0 then vget t.eyries (off / 16) 0
  else if off % 16 = 4 then vget t.policy (off / 16) 0
  else 0

/-- A word of a session's overlay slots. -/
def ovlWord (t : TableSet) (off : Nat) : Word := vget (vget t.ovl (off / 16) (Vector.replicate 4 0)) (off % 16 / 4) 0

/-- A write of a word of the stage's allocation entries. -/
def putAlloc (t : TableSet) (off : Nat) (v : Word) : TableSet :=
  if off % 16 = 0 then { t with eyries := t.eyries.setIfInBounds (off / 16) v }
  else if off % 16 = 4 then
    { t with policy := t.policy.setIfInBounds (off / 16) (pack [(8, fld v 8 2), (0, fld v 0 1)]) }
  else t

/-- A write of an overlay slot of the stage. -/
def putOvl (t : TableSet) (off : Nat) (v : Word) : TableSet :=
  { t with ovl := vmod t.ovl (off / 16) fun o => o.setIfInBounds (off % 16 / 4) (word (legalSlot v.toNat)) }

/-! ## DIS -/

/-- The code of a session state. -/
def SessState.code : SessState → Nat
  | .free => 0 | .open_ => 1 | .claimed => 2

/-- A word of a session's registers; the entry reads as the latest write left it. -/
def sessRead (s : State) (n o : Nat) : Word :=
  let x := sess s n
  let e := x.nxt
  if o = 0x0 then pack [(30, e.state.code), (16, e.prec.toNat), (8, e.ltp.toNat), (0, e.acttmo.toNat)]
  else if o = 0x4 then pack [(16, e.limit.toNat), (0, e.reserve.toNat)]
  else if 0x8 ≤ o ∧ o < 0x18 then
    let r := vget e.ranges ((o - 0x8) / 4) (0, 0)
    pack [(16, r.2.toNat), (0, r.1.toNat)]
  else if o = 0x28 then e.owner.setWidth 32
  else if o = 0x2C then uidHi e.owner
  else if o = 0x30 then x.seq
  else if o = 0x34 then pack [(16, s.vox.held n), (0, x.queue.length)]
  else if o = 0x38 then pack [(16, x.late.toNat), (0, x.drop.toNat)]
  else if o = 0x3C then pack [(16, x.qovf.toNat), (0, x.outrange.toNat)]
  else 0

/-- What a read of a session's registers changes: its counters clear. -/
def sessReadEffect (n o : Nat) (s : State) : State :=
  if o = 0x38 then modSess n (fun x => { x with late := 0, drop := 0 }) s
  else if o = 0x3C then modSess n (fun x => { x with qovf := 0, outrange := 0 }) s
  else s

/-- Change the entry of a session, with effect at the next boundary (R22). -/
def modEntry (n : Nat) (f : SessEntry → SessEntry) (s : State) : State := modSess n (fun x => { x with nxt := f x.nxt }) s

/-- A write of a session's first word: the fields, then the command (R203, R205). -/
def sessCmd (n : Nat) (v : Word) (s : State) : State :=
  let s := modEntry n (fun e =>
    { e with prec := low 4 (v >>> 16), ltp := bit v 8, acttmo := BitVec.ofNat 8 (min (fld v 0 8) 100) }) s
  if fld v 28 2 = 1 then sessionOpen n s
  else if fld v 28 2 = 2 then sessionFree n s
  else s

/-- A write of a session's registers. -/
def sessWrite (n o : Nat) (v : Word) (s : State) : State :=
  if o = 0x0 then sessCmd n v s
  else if o = 0x4 then
    modEntry n (fun e =>
      { e with limit := BitVec.ofNat 10 (min (fld v 16 10) 512), reserve := BitVec.ofNat 10 (min (fld v 0 10) 512) }) s
  else if 0x8 ≤ o ∧ o < 0x18 then
    modEntry n (fun e => { e with ranges := e.ranges.setIfInBounds ((o - 0x8) / 4) (low 16 v, low 16 (v >>> 16)) }) s
  else if 0x18 ≤ o ∧ o < 0x28 then writeKey n ((o - 0x18) / 4) v s
  else s

/-- A read of DIS (Tables 8.5, 10.6). -/
def disRead (s : State) (off : Nat) : Word :=
  let d := s.dis
  if off = 0x0 then pack [(31, Config.auth.toNat), (0, 16)]
  else if off = 0x4 then pack [(0, d.lock.toNat)]
  else if off = 0x8 then pack [(16, d.defer.toNat), (0, d.due.toNat)]
  else if off = 0xC then pack [(29, d.clRes.toNat), (28, d.clOp.toNat), (16, d.clSess.toNat), (0, d.clCuid.toNat)]
  else if 0x100 ≤ off ∧ off < 0x500 then sessRead s ((off - 0x100) / 0x40) ((off - 0x100) % 0x40)
  else if 0x800 ≤ off ∧ off < 0x900 then allocWord s.epoch.stage (off - 0x800)
  else if 0xA00 ≤ off ∧ off < 0xB00 then allocWord (s.epoch.set s.epoch.cur) (off - 0xA00)
  else if 0xC00 ≤ off ∧ off < 0xD00 then ovlWord s.epoch.stage (off - 0xC00)
  else if 0xE00 ≤ off ∧ off < 0xF00 then ovlWord (s.epoch.set s.epoch.cur) (off - 0xE00)
  else 0

/-- What a read of DIS changes. -/
def disReadEffect (off : Nat) (s : State) : State :=
  if off = 0x8 then { s with dis := { s.dis with defer := 0 } }
  else if 0x100 ≤ off ∧ off < 0x500 then sessReadEffect ((off - 0x100) / 0x40) ((off - 0x100) % 0x40) s
  else s

/-- A write of DIS. -/
def disWrite (off : Nat) (v : Word) (s : State) : State :=
  if off = 0x4 then { s with dis := { s.dis with lock := low 16 v } }
  else if 0x100 ≤ off ∧ off < 0x500 then sessWrite ((off - 0x100) / 0x40) ((off - 0x100) % 0x40) v s
  else if 0x800 ≤ off ∧ off < 0x900 then
    { s with epoch := { s.epoch with stage := putAlloc s.epoch.stage (off - 0x800) v } }
  else if 0xC00 ≤ off ∧ off < 0xD00 then
    { s with epoch := { s.epoch with stage := putOvl s.epoch.stage (off - 0xC00) v } }
  else s

end Sys2Proof.Machine
end

