-- ==== Sys2Proof/Machine/RegsVoice.lean ====
section
/-! DEFINITION. The registers of VOX, MOD and MRG, and the voice-state records: what a read returns, what it clears, what
a write does (Tables 9.10-9.14, 10.5, 13.5). -/

namespace Sys2Proof.Machine

/-! ## Voice records (R245, Table 9.10) -/

/-- The code of a voice state (Table 9.8). -/
def VState.code : VState → Nat
  | .absent => 0 | .free => 1 | .sounding => 2 | .held => 3 | .releasing => 4 | .stooping => 5 | .faulted => 6

/-- The second event word of a record: HOLD, SEG and STICK. -/
def voiceSeg (v : Voice) : Word :=
  pack ([(0, v.stick.toNat)] ++ (List.range 3).map (fun e => (20 + e, (vget v.hold e false).toNat))
    ++ (List.range 3).map fun e => (8 + 4 * e, (vget v.seg e 0).toNat))

/-- A word of a voice's record; `tset` is the table set of its eyrie. -/
def voiceRead (v : Voice) (tset : Bool) (o : Nat) : Word :=
  match o / 4 with
  | 0 => pack [(12, v.prio.toNat), (8, v.sess.val), (4, v.reld.toNat), (3, tset.toNat), (0, v.state.code)]
  | 1 => pack [(16, v.tag.toNat), (0, v.patch.toNat)]
  | 2 => pack [(16, v.tlast.toNat), (0, v.tbase.toNat)]
  | 3 => pack [(16, v.rand.toNat), (8, v.key.toNat), (0, v.vel.toNat)]
  | 4 => v.sframe
  | 5 => voiceSeg v
  | 6 => vget v.phase 0 0
  | 7 => vget v.phase 1 0
  | 8 => v.lfsr
  | 9 => (vget v.sh 0 0).setWidth 32
  | 10 => (vget v.sh 1 0).setWidth 32
  | 11 => (vget v.env 0 0).setWidth 32
  | 12 => (vget v.env 1 0).setWidth 32
  | 13 => (vget v.env 2 0).setWidth 32
  | 14 => vget v.k 0 0
  | 15 => vget v.k 1 0
  | 16 => vget v.k 2 0
  | 17 => BitVec.ofInt 32 v.low
  | 18 => BitVec.ofInt 32 v.band
  | 19 => (vget v.last 0 0).setWidth 32
  | 20 => (vget v.last 1 0).setWidth 32
  | 21 => v.out.setWidth 32
  | 22 => v.stoopg.setWidth 32
  | 23 => v.age
  | _ => 0

/-- A read of voice state at `a`, an offset from 0x0010_0000: the word as of the end of the most recent rendered tick
(R245). -/
def voiceAt (s : State) (a : Nat) : Word :=
  voiceRead (vget s.vox.shown (a / 0x100) {}) (bit s.vox.shownSet (a / 0x1000)) (a % 0x100)

/-! ## VOX -/

/-- VOX_EPOCH (Table 10.5). -/
def epochRead (e : Epoch) : Word :=
  pack [(30, e.mig.toNat), (29, e.held.toNat), (28, e.commitDrop.toNat), (27, e.cur.toNat), (26, e.snap.toNat),
    (0, e.num.toNat)]

/-- A read of VOX (Tables 9.11-9.14, 10.5). -/
def voxRead (s : State) (off : Nat) : Word :=
  let x := s.vox
  if off = 0x0 then pack [(0, x.patchbase.toNat)]
  else if off = 0x4 then pack [(0, x.fhold.toNat)]
  else if off = 0x8 then pack [(16, x.abssmp.toNat), (0, x.faults.toNat)]
  else if off = 0xC then pack [(16, x.slip.toNat), (0, activeVoices s)]
  else if off = 0x10 then epochRead s.epoch
  else if off = 0x14 then pack [(16, s.epoch.eyries.toNat), (8, s.epoch.groups.toNat)]
  else if 0x100 ≤ off ∧ off < 0x140 then
    pack [(16, (vget x.steals ((off - 0x100) / 4) 0).toNat), (0, (vget x.novoice ((off - 0x100) / 4) 0).toNat)]
  else if 0x140 ≤ off ∧ off < 0x180 then
    pack [(16, (vget x.res ((off - 0x140) / 4) 0).toNat), (0, (vget x.lim ((off - 0x140) / 4) 0).toNat)]
  else 0

/-- What a read of VOX changes: its counters clear. -/
def voxReadEffect (off : Nat) (s : State) : State :=
  let x := s.vox
  if off = 0x8 then { s with vox := { x with abssmp := 0, faults := 0 } }
  else if off = 0xC then { s with vox := { x with slip := 0 } }
  else if 0x100 ≤ off ∧ off < 0x140 then
    { s with vox := { x with steals := x.steals.setIfInBounds ((off - 0x100) / 4) 0
                             novoice := x.novoice.setIfInBounds ((off - 0x100) / 4) 0 } }
  else s

/-- A write of VOX. -/
def voxWrite (off : Nat) (v : Word) (s : State) : State :=
  if off = 0x0 then { s with vox := { s.vox with patchbase := low 2 v } }
  else if off = 0x4 then { s with vox := { s.vox with fhold := low 8 v } }
  else if off = 0x10 then
    let t : State := { s with epoch := { s.epoch with commitDrop := s.epoch.commitDrop && !bit v 28 } }
    if bit v 31 then commit t else t
  else if off = 0x18 then voxKill (low 16 v) s
  else s

/-! ## MOD -/

/-- A word of a chain-locked LFO. -/
def lfoRead (l : Lfo) (o : Nat) : Word :=
  if o = 0 then l.cfg else if o = 4 then l.ofs else if o = 8 then l.posk else pack [(0, l.wave.toNat)]

/-- A write of a chain-locked LFO: OFS is made legal against PERIOD as it stands (R6). -/
def lfoWrite (l : Lfo) (o : Nat) (v : Word) : Lfo :=
  if o = 0 then { l with cfg := pack [(31, (bit v 31).toNat), (0, max (fld v 0 24) 2)] }
  else if o = 4 then { l with ofs := word (min (fld v 0 24) (fld l.cfg 0 24 - 1)) }
  else if o = 8 then { l with posk := pack [(0, fld v 0 24)] }
  else { l with wave := if fld v 0 3 < 5 then low 3 v else 0 }

/-- A read of MOD (Table 10.5). -/
def modRead (s : State) (off : Nat) : Word :=
  if 0x100 ≤ off ∧ off < 0x140 then lfoRead (vget s.mods.lfo ((off - 0x100) / 16) {}) (off % 16)
  else if 0x200 ≤ off ∧ off < 0x230 then pack [(0, (vget s.mods.hmac ((off - 0x200) / 4) 0).toNat)]
  else if 0x300 ≤ off ∧ off < 0x340 then pack [(0, (vget s.mods.kmod ((off - 0x300) / 4) 0).toNat)]
  else 0

/-- A write of MOD (R251, R252). -/
def modWrite (off : Nat) (v : Word) (s : State) : State :=
  let m := s.mods
  if 0x100 ≤ off ∧ off < 0x140 then
    { s with mods := { m with lfo := vmod m.lfo ((off - 0x100) / 16) fun l => lfoWrite l (off % 16) v } }
  else if 0x200 ≤ off ∧ off < 0x230 then
    { s with mods := { m with hmac := m.hmac.setIfInBounds ((off - 0x200) / 4) (low 16 v) } }
  else if 0x300 ≤ off ∧ off < 0x340 then
    { s with mods := { m with kmod := m.kmod.setIfInBounds ((off - 0x300) / 4) (low 16 v) } }
  else s

/-! ## MRG -/

/-- MRG_CFG. -/
def mrgCfgFields : List Field := [⟨16, 16, .all, .rw⟩, ⟨0, 8, .all, .rw⟩]

/-- MRG_DERATE. -/
def derateFields : List Field := [⟨31, 1, .all, .rw⟩, ⟨16, 8, .all, .rw⟩, ⟨8, 8, .all, .rw⟩, ⟨0, 8, .clamp 60 140, .rw⟩]

/-- A target entry. -/
def entFields : List Field := [⟨24, 3, .all, .rw⟩, ⟨16, 8, .all, .rw⟩, ⟨14, 1, .all, .rw⟩, ⟨13, 1, .all, .rw⟩,
  ⟨12, 1, .all, .rw⟩, ⟨0, 7, .clamp 0 100, .rw⟩]

/-- Two points of a curve, the odd one in the upper half. -/
def curveWord (t : TableSet) (off : Nat) : Word :=
  pack [(16, t.point (off / 0x800) (off % 0x800 / 2 + 1)), (0, t.point (off / 0x800) (off % 0x800 / 2))]

/-- A write of two points of a stage curve. -/
def putCurve (t : TableSet) (off : Nat) (v : Word) : TableSet :=
  { t with curves := cputs identityPoint t.curves (1024 * (off / 0x800) + off % 0x800 / 2)
             [low 16 v, low 16 (v >>> 16)] }

/-- MRG_OUT of an entry. -/
def mrgOutRead (o : MrgOut) : Word := pack [(31, o.none.toNat), (24, o.owner.toNat), (0, o.out.toNat)]

/-- A read of MRG (Table 13.5). -/
def mrgRead (s : State) (off : Nat) : Word :=
  let m := s.mrg
  let act := s.epoch.set s.epoch.cur
  if off = 0x0 then m.cfg
  else if off = 0x4 then pack [(31, m.mhold.toNat), (30, m.mact.toNat), (0, m.ato.toNat)]
  else if off = 0xC then m.derate
  else if off = 0x10 then pack [(16, m.factor.toNat), (0, m.tdie.toNat)]
  else if 0x100 ≤ off ∧ off < 0x280 then vget s.epoch.stage.ent ((off - 0x100) / 4) 0
  else if 0x300 ≤ off ∧ off < 0x480 then vget act.ent ((off - 0x300) / 4) 0
  else if 0x500 ≤ off ∧ off < 0x640 then mrgOutRead (vget m.out ((off - 0x500) / 4) {})
  else if 0x8000 ≤ off ∧ off < 0xC000 then curveWord s.epoch.stage (off - 0x8000)
  else if 0xC000 ≤ off ∧ off < 0x10000 then curveWord act (off - 0xC000)
  else 0

/-- A write of MRG by `r`. -/
def mrgWrite (r : Requester) (off : Nat) (v : Word) (s : State) : State :=
  let stage := s.epoch.stage
  if off = 0x0 then { s with mrg := { s.mrg with cfg := applyWrite mrgCfgFields s.mrg.cfg v } }
  else if off = 0x8 then writeLevel r v s
  else if off = 0xC then { s with mrg := { s.mrg with derate := applyWrite derateFields s.mrg.derate v } }
  else if 0x100 ≤ off ∧ off < 0x280 then
    let ent := vmod stage.ent ((off - 0x100) / 4) fun w => applyWrite entFields w v
    { s with epoch := { s.epoch with stage := { stage with ent := ent } } }
  else if 0x8000 ≤ off ∧ off < 0xC000 then
    { s with epoch := { s.epoch with stage := putCurve stage (off - 0x8000) v } }
  else s

end Sys2Proof.Machine
end

