-- ==== Sys2Proof/Machine/RegsOut.lean ====
section
/-! DEFINITION. The registers of EMT, GPT, AOU, PIX and DRV: what a read returns, what it clears, what a write does
(Tables 13.6, 13.7, 14.3-14.5, 15.6). -/

namespace Sys2Proof.Machine

/-! ## EMT (Table 13.6) -/

/-- A word of flight `f`. -/
def flightRead (l : Flight) (o : Nat) : Word :=
  if o = 0x0 then l.fcfg
  else if o = 0x4 then l.gang
  else if o = 0x8 then pack [(0, l.en.toNat)]
  else if o = 0xC then pack [(0, l.skip.toNat)]
  else if 0x40 ≤ o ∧ o < 0x80 then
    let c := vget l.ch ((o - 0x40) / 4) {}
    pack [(16, c.eff.toNat), (0, c.ofs.toNat)]
  else if 0x80 ≤ o ∧ o < 0xC0 then pack [(0, (vget l.ch ((o - 0x80) / 4) {}).level.toNat)]
  else 0

/-- EMT_GANGf. -/
def gangFields : List Field := [⟨16, 2, .all, .rw⟩, ⟨8, 4, .all, .rw⟩, ⟨0, 8, .all, .rw⟩]

/-- A write of a flight: FLOCK written from 1 to 0 restarts its counter (R328, log entry 103), an offset is made legal
against PERIOD (R6). -/
def flightWrite (l : Flight) (o : Nat) (v : Word) : Flight :=
  if o = 0x0 then { l with fcfg := legalFcfg v, wraps := if bit l.fcfg 31 && !bit v 31 then 0 else l.wraps }
  else if o = 0x4 then { l with gang := applyWrite gangFields l.gang v }
  else if o = 0x8 then { l with en := low 16 v }
  else if 0x40 ≤ o ∧ o < 0x80 then
    { l with ch := vmod l.ch ((o - 0x40) / 4) fun c =>
        { c with ofs := BitVec.ofNat 16 (min (fld v 0 16) (fcfgPeriod l.fcfg - 1)) } }
  else l

/-- A read of EMT. -/
def emtRead (s : State) (off : Nat) : Word :=
  if off < 0x400 then flightRead (vget s.emt.fl (off / 0x100) {}) (off % 0x100) else 0

/-- A write of EMT. -/
def emtWrite (off : Nat) (v : Word) (s : State) : State :=
  if off < 0x400 then { s with emt := { fl := vmod s.emt.fl (off / 0x100) fun l => flightWrite l (off % 0x100) v } } else s

/-! ## GPT (Table 15.6) -/

/-- A word of timer `n`: COUNT of a running timer reads all ones (R377), TOP and MATCH read as last written. -/
def timerRead (s : State) (n o : Nat) : Word :=
  let t := gpt s n
  if o = 0x0 then t.cfg
  else if o = 0x4 then (if running s t then 0xFFFFFFFF else t.count)
  else if o = 0x8 then t.topNext.getD t.top
  else if o = 0xC then t.matchNext.getD t.match_
  else if o = 0x10 then t.cap
  else if o = 0x14 then
    pack [(5, t.out.toNat), (4, (frozen s t).toNat), (3, t.ovr.toNat), (2, t.capf.toNat), (1, t.ovf.toNat), (0, t.mf.toNat)]
  else 0

/-- GPT_CFGn. -/
def gptFields : List Field := [⟨31, 1, .all, .rw⟩, ⟨29, 2, .all, .rw⟩, ⟨28, 1, .all, .rw⟩, ⟨27, 1, .all, .rw⟩,
  ⟨25, 2, .all, .rw⟩, ⟨24, 1, .all, .rw⟩, ⟨23, 1, .all, .rw⟩, ⟨21, 2, .all, .rw⟩, ⟨19, 2, .enum 3 0, .rw⟩,
  ⟨16, 3, .all, .rw⟩, ⟨8, 8, .all, .rw⟩, ⟨7, 1, .all, .rw⟩, ⟨5, 2, .all, .rw⟩, ⟨3, 2, .all, .rw⟩, ⟨0, 3, .all, .rw⟩]

/-- A write of GPT_CFGn; a timer that it stops, freezes or takes off the PWM clock holds the count it has reached (R377). -/
def timerConfig (n : Nat) (v : Word) (s : State) : State :=
  let t := modGpt n (fun t => { t with cfg := applyWrite gptFields t.cfg v }) s
  if countsPwm s (gpt s n) && !countsPwm t (gpt t n) then freeCount n t else t

/-- SWCAP (R379): the count of a running timer whose clock is not CHAIN is free (log entry 8). -/
def swcap (n : Nat) (s : State) : State :=
  let t := gpt s n
  let c : Word := BitVec.ofNat 32 ((Config.freeWord s.free).toNat % (t.top.toNat + 1))
  { gptCapture n (captured s t c) s with free := s.free + 1 }

/-- GPT_STATn's flags that are written 1 clear. -/
def Gpt.clearStat (t : Gpt) (v : Word) : Gpt :=
  { t with ovr := t.ovr && !bit v 3, capf := t.capf && !bit v 2, ovf := t.ovf && !bit v 1, mf := t.mf && !bit v 0 }

/-- A write of timer `n`: COUNT is ignored while it runs (R377), TOP and MATCH wait for the wrap then (R378). -/
def timerWrite (n o : Nat) (v : Word) (s : State) : State :=
  let run := running s (gpt s n)
  if o = 0x0 then timerConfig n v s
  else if o = 0x4 then (if run then s else modGpt n (fun t => { t with count := v }) s)
  else if o = 0x8 then
    modGpt n (fun t => if run then { t with topNext := some v } else { t with top := v, topNext := none }) s
  else if o = 0xC then
    modGpt n (fun t => if run then { t with matchNext := some v } else { t with match_ := v, matchNext := none }) s
  else if o = 0x14 then
    let t := modGpt n (fun t => t.clearStat v) s
    if bit v 31 then swcap n t else t
  else s

/-- A read of GPT. -/
def gptRead (s : State) (off : Nat) : Word := if off < 0x100 then timerRead s (off / 0x20) (off % 0x20) else 0

/-- What a read of GPT changes: a read of CAP clears CAPF (R379). -/
def gptReadEffect (off : Nat) (s : State) : State :=
  if off < 0x100 ∧ off % 0x20 = 0x10 then modGpt (off / 0x20) (fun t => { t with capf := false }) s else s

/-- A write of GPT. -/
def gptWrite (off : Nat) (v : Word) (s : State) : State :=
  if off < 0x100 then timerWrite (off / 0x20) (off % 0x20) v s else s

/-! ## AOU (Table 14.3) -/

/-- Two points of the sine table, the odd one in the upper half. -/
def tableWord (a : Aou) (i : Nat) : Word :=
  pack [(16, (cget quarterSine a.table (2 * i + 1)).toNat), (0, (cget quarterSine a.table (2 * i)).toNat)]

/-- A word of a channel's sine registers. -/
def sineRead (c : AouCh) (o : Nat) : Word :=
  if o = 0 then c.inc else if o = 4 then c.ampOfs else if o = 8 then c.ph0 else 0

/-- A write of a channel's sine registers. -/
def sineWrite (c : AouCh) (o : Nat) (v : Word) : AouCh :=
  if o = 0 then { c with inc := v } else if o = 4 then { c with ampOfs := v } else if o = 8 then { c with ph0 := v } else c

/-- A read of AOU. -/
def aouRead (s : State) (off : Nat) : Word :=
  let a := s.aou
  let ch (b : Nat) : AouCh := vget a.ch ((off - b) / 4) {}
  if off = 0x0 then pack [(0, a.qdiv.toNat)]
  else if off = 0x4 then pack [(8, a.arm.toNat), (0, a.strobe.toNat)]
  else if off = 0x8 then pack [(0, a.smask.toNat)]
  else if off = 0xC then a.marklo
  else if off = 0x10 then a.markhi
  else if off = 0x14 then pack [(16, a.ovr.toNat), (0, a.under.toNat)]
  else if 0x40 ≤ off ∧ off < 0x80 then (ch 0x40).cfg
  else if 0x80 ≤ off ∧ off < 0xC0 then pack [(0, (ch 0x80).stg.toNat)]
  else if 0x100 ≤ off ∧ off < 0x140 then pack [(16, (ch 0x100).fifo.length), (0, (ch 0x100).code.toNat)]
  else if 0x200 ≤ off ∧ off < 0x300 then sineRead (vget a.ch ((off - 0x200) / 16) {}) (off % 16)
  else if 0x400 ≤ off ∧ off < 0xC00 then tableWord a ((off - 0x400) / 4)
  else 0

/-- AOU_STROBE. -/
def strobeFields : List Field := [⟨4, 3, .all, .rw⟩, ⟨0, 2, .all, .rw⟩]

/-- AOU_CHn. -/
def aouChFields : List Field := [⟨16, 16, .all, .rw⟩, ⟨8, 8, .all, .rw⟩, ⟨4, 1, .all, .rw⟩, ⟨0, 2, .all, .rw⟩]

/-- AOU after a write. -/
def Aou.write (a : Aou) (off : Nat) (v : Word) : Aou :=
  if off = 0x0 then { a with qdiv := BitVec.ofNat 6 (clampN 1 48 (fld v 0 6)) }
  else if off = 0x4 then
    let b : Aou := { a with strobe := applyWrite strobeFields a.strobe v }
    if bit v 31 then b.strobeAll else b
  else if off = 0x8 then { a with smask := low 16 v }
  else if off = 0xC then { a with marklo := v }
  else if off = 0x10 then a.loadMark v
  else if off = 0x14 then { a with ovr := a.ovr &&& ~~~(low 16 (v >>> 16)), under := a.under &&& ~~~(low 16 v) }
  else if 0x40 ≤ off ∧ off < 0x80 then a.mod ((off - 0x40) / 4) fun c => { c with cfg := applyWrite aouChFields c.cfg v }
  else if 0x80 ≤ off ∧ off < 0xC0 then a.mod ((off - 0x80) / 4) fun c => { c with stg := low 16 v }
  else if 0xC0 ≤ off ∧ off < 0x100 then
    (if bit v 31 then a.queueClear ((off - 0xC0) / 4) else a.queueWrite ((off - 0xC0) / 4) (low 16 v))
  else if 0x200 ≤ off ∧ off < 0x300 then a.mod ((off - 0x200) / 16) fun c => sineWrite c (off % 16) v
  else if 0x400 ≤ off ∧ off < 0xC00 then
    { a with table := cputs quarterSine a.table (2 * ((off - 0x400) / 4)) [low 16 v, low 16 (v >>> 16)] }
  else a

/-- A write of AOU. -/
def aouWrite (off : Nat) (v : Word) (s : State) : State := { s with aou := s.aou.write off v }

/-! ## PIX (Table 14.5) -/

/-- A word of pixel port `x`; the hood is common to the ports (R359). -/
def portRead (s : State) (x : PixPort) (o : Nat) : Word :=
  if o = 0x0 then x.cfg
  else if o = 0x4 then x.clk
  else if o = 0x8 then x.ref
  else if o = 0xC then x.latch
  else if o = 0x10 then pack [(31, x.busy.toNat), (30, (pixHood s).toNat), (0, x.skip.toNat)]
  else 0

/-- PIX_CFGp. -/
def pixCfgFields : List Field := [⟨31, 1, .all, .rw⟩, ⟨30, 1, .all, .rw⟩, ⟨29, 1, .all, .rw⟩, ⟨28, 1, .all, .rw⟩,
  ⟨27, 1, .all, .rw⟩, ⟨24, 2, .all, .rw⟩, ⟨16, 8, .all, .rw⟩, ⟨0, 11, .clamp 1 1024, .rw⟩]

/-- PIX_CLKp. -/
def pixClkFields : List Field := [⟨24, 8, .clamp 0 64, .rw⟩, ⟨16, 8, .clamp 0 64, .rw⟩, ⟨0, 13, .clamp 13 5000, .rw⟩]

/-- A write of PIX_REFp: RPH is made legal against the RDIV of the same write (R6). -/
def legalRef (v : Word) : Word :=
  let d := clampN 1 8000 (fld v 0 16)
  pack [(16, min (fld v 16 13) (d - 1)), (0, d)]

/-- A write of a pixel port (R358). -/
def portWrite (x : PixPort) (o : Nat) (v : Word) : PixPort :=
  if o = 0x0 then { x with cfg := applyWrite pixCfgFields x.cfg v }
  else if o = 0x4 then { x with clk := applyWrite pixClkFields x.clk v }
  else if o = 0x8 then { x with ref := legalRef v }
  else if o = 0xC then { x with latch := pack [(0, clampN 1 1000 (fld v 0 10))] }
  else x

/-- Change pixel port `p`. -/
def modPix (p : Nat) (f : PixPort → PixPort) (s : State) : State :=
  { s with pix := { s.pix with port := vmod s.pix.port p f } }

/-- A read of PIX. -/
def pixRead (s : State) (off : Nat) : Word :=
  if off < 0x100 then portRead s (vget s.pix.port (off / 0x40) {}) (off % 0x40) else 0

/-- What a read of PIX changes: SKIP clears. -/
def pixReadEffect (off : Nat) (s : State) : State :=
  if off < 0x100 ∧ off % 0x40 = 0x10 then modPix (off / 0x40) (fun x => { x with skip := 0 }) s else s

/-- A write of PIX. -/
def pixWrite (off : Nat) (v : Word) (s : State) : State :=
  if off < 0x100 then modPix (off / 0x40) (fun x => portWrite x (off % 0x40) v) s else s

/-! ## DRV, across DLINK (Tables 13.7, 14.4) -/

/-- DRV_EMSTn. -/
def emStat (s : State) (n : Nat) : Word :=
  let e := drvEm s n
  pack [(31, (emHood s n).toNat), (30, e.short.toNat), (29, e.open_.toNat), (28, e.rtie.toNat), (26, e.valid.toNat),
    (24, e.scan.toNat), (16, e.tiep.toNat), (0, e.fcnt.toNat)]

/-- DRV_AOSTn. -/
def aoStat (s : State) (n : Nat) : Word :=
  let a := vget s.drv.ao n {}
  pack [(31, (aoHood s n).toNat), (30, a.cont.toNat), (29, a.ov.toNat), (28, (aoIso s n).toNat), (0, a.ovcnt.toNat)]

/-- A read of DRV. -/
def drvRead (s : State) (off : Nat) : Word :=
  let d := s.drv
  if off = 0x0 then pack [(31, d.linkloss.toNat)]
  else if off = 0x4 then pack [(0, d.lhood.toNat)]
  else if 0x100 ≤ off ∧ off < 0x200 then (drvEm s ((off - 0x100) / 4)).cfg
  else if 0x200 ≤ off ∧ off < 0x300 then emStat s ((off - 0x200) / 4)
  else if off = 0x300 then pack [(30, d.scanBusy.toNat), (29, d.scanDone.toNat), (28, d.scanSkip.toNat)]
  else if off = 0x304 then d.tieack.setWidth 32
  else if off = 0x308 then (d.tieack >>> 32).setWidth 32
  else if 0x400 ≤ off ∧ off < 0x440 then (vget d.ao ((off - 0x400) / 4) {}).cfg
  else if 0x500 ≤ off ∧ off < 0x540 then aoStat s ((off - 0x500) / 4)
  else 0

/-- What a read of DRV changes: FCNT and OVCNT clear. -/
def drvReadEffect (off : Nat) (s : State) : State :=
  if 0x200 ≤ off ∧ off < 0x300 then modEm ((off - 0x200) / 4) (fun e => { e with fcnt := 0 }) s
  else if 0x500 ≤ off ∧ off < 0x540 then modAo ((off - 0x500) / 4) (fun a => { a with ovcnt := 0 }) s
  else s

/-- DRV_EMn. -/
def drvEmFields : List Field := [⟨31, 1, .all, .rw⟩, ⟨30, 1, .all, .rw⟩, ⟨28, 2, .all, .rw⟩, ⟨22, 6, .clamp 1 32, .rw⟩,
  ⟨16, 6, .clamp 8 32, .rw⟩, ⟨0, 8, .all, .rw⟩]

/-- A write of DRV_EMSTn: SHORT, OPEN and RTIE are written 1 to clear (R337, R338, R341). -/
def emStatWrite (n : Nat) (v : Word) (s : State) : State :=
  let s := if bit v 30 then shortClear n s else s
  let s := if bit v 29 then openClear n s else s
  if bit v 28 then modEm n (fun e => { e with rtie := false }) s else s

/-- A write of DRV. -/
def drvWrite (off : Nat) (v : Word) (s : State) : State :=
  if off = 0x4 then (if bit v 31 then linkHoodRelease s else s)
  else if 0x100 ≤ off ∧ off < 0x200 then
    modEm ((off - 0x100) / 4) (fun e => { e with cfg := applyWrite drvEmFields e.cfg v }) s
  else if 0x200 ≤ off ∧ off < 0x300 then emStatWrite ((off - 0x200) / 4) v s
  else if off = 0x300 then (if bit v 31 then scanStart s else s)
  else if off = 0x304 then tieAck false v s
  else if off = 0x308 then tieAck true v s
  else if 0x400 ≤ off ∧ off < 0x440 then stageChange ((off - 0x400) / 4) (bit v 31) (bit v 30) s
  else if 0x500 ≤ off ∧ off < 0x540 then
    modAo ((off - 0x500) / 4) (fun a => { a with cont := a.cont && !bit v 30, ov := a.ov && !bit v 29 }) s
  else s

end Sys2Proof.Machine
end

