-- ==== Sys2Proof/Machine/RegsIn.lean ====
section
/-! DEFINITION. The registers of SNS, AUD and DMX: what a read returns, what it clears, what a write does (Tables 15.4,
15.5, 16.11). -/

namespace Sys2Proof.Machine

/-! ## SNS (Table 15.4) -/

/-- A read of SNS. -/
def snsRead (s : State) (off : Nat) : Word :=
  let x := s.sns
  if off = 0x0 then x.ctrl
  else if off = 0x4 then
    pack [(31, x.ovf.toNat), (30, x.trigmiss.toNat), (29, x.pass.toNat), (16, x.idx), (0, x.fifo.length)]
  else if off = 0x8 then x.head
  else if 0x100 ≤ off ∧ off < 0x180 then x.entry ((off - 0x100) / 4)
  else if 0x200 ≤ off ∧ off < 0x240 then
    (if off % 8 = 0 then vget x.map ((off - 0x200) / 8) 0 else vget x.span ((off - 0x200) / 8) 0)
  else 0

/-- What a read of SNS changes: a read of the FIFO pops (R369). -/
def snsReadEffect (off : Nat) (s : State) : State :=
  if off = 0x8 then { s with sns := { s.sns with fifo := s.sns.fifo.drop 1 } } else s

/-- SNS_CTRL without RUN and START. -/
def snsCtrlFields : List Field := [⟨29, 1, .all, .rw⟩, ⟨28, 1, .all, .rw⟩, ⟨26, 2, .all, .rw⟩, ⟨23, 3, .all, .rw⟩,
  ⟨16, 6, .clamp 1 32, .rw⟩, ⟨0, 9, .clamp 1 256, .rw⟩]

/-- SNS_MAPi. -/
def snsMapFields : List Field := [⟨24, 5, .enum 24 0, .rw⟩, ⟨0, 24, .all, .rw⟩]

/-- A write of SNS_CTRL: its fields, then RUN, then START (R365). -/
def snsCtrlWrite (v : Word) (s : State) : State :=
  let x : Sns := { s.sns with ctrl := applyWrite snsCtrlFields s.sns.ctrl v }
  let t : State := { s with sns := x.setRun (bit v 31) }
  if bit v 30 then snsTrigger 0 t else t

/-- A write of SNS. -/
def snsWrite (off : Nat) (v : Word) (s : State) : State :=
  let x := s.sns
  if off = 0x0 then snsCtrlWrite v s
  else if off = 0x4 then { s with sns := { x with ovf := x.ovf && !bit v 31, trigmiss := x.trigmiss && !bit v 30 } }
  else if 0x100 ≤ off ∧ off < 0x180 then { s with sns := x.writeEntry ((off - 0x100) / 4) v }
  else if 0x200 ≤ off ∧ off < 0x240 then
    (if off % 8 = 0 then { s with sns := { x with map := vmod x.map ((off - 0x200) / 8) fun w => applyWrite snsMapFields w v } }
     else { s with sns := { x with span := x.span.setIfInBounds ((off - 0x200) / 8) (word (max (fld v 0 24) 1)) } })
  else s

/-! ## AUD (Table 15.5) -/

/-- A read of AUD. -/
def audRead (s : State) (off : Nat) : Word :=
  let x := s.aud
  if off = 0x0 then x.cfg
  else if off = 0x4 then pack [(31, x.lock.toNat), (28, x.rate.toNat), (0, x.bpm.toNat)]
  else if off = 0x8 then x.btfrm
  else if off = 0xC then pack [(0, x.btfrac.toNat)]
  else if 0x10 ≤ off ∧ off < 0x20 then vget x.env ((off - 0x10) / 4) 0
  else 0

/-- AUD_CFG without BPMHI. -/
def audCfgFields : List Field := [⟨31, 1, .all, .rw⟩, ⟨28, 2, .enum 3 2, .rw⟩, ⟨27, 1, .all, .rw⟩, ⟨26, 1, .all, .rw⟩,
  ⟨8, 8, .clamp 40 240, .rw⟩, ⟨0, 6, .clamp 16 63, .rw⟩]

/-- A write of AUD_CFG: BPMHI is made legal against the BPMLO of the same write (R6). -/
def legalAudCfg (old v : Word) : Word :=
  let w := applyWrite audCfgFields old v
  setFld w 16 8 (clampN (fld w 8 8) 240 (fld v 16 8))

/-- AUD_ENVk. -/
def audEnvFields : List Field := [⟨28, 2, .enum 3 2, .rw⟩, ⟨24, 2, .all, .rw⟩, ⟨16, 3, .all, .rw⟩, ⟨8, 8, .all, .rw⟩,
  ⟨0, 8, .all, .rw⟩]

/-- A write of AUD. -/
def audWrite (off : Nat) (v : Word) (s : State) : State :=
  let x := s.aud
  if off = 0x0 then { s with aud := { x with cfg := legalAudCfg x.cfg v } }
  else if 0x10 ≤ off ∧ off < 0x20 then
    { s with aud := { x with env := vmod x.env ((off - 0x10) / 4) fun w => applyWrite audEnvFields w v } }
  else s

/-! ## DMX (Table 16.11) -/

/-- Four bytes of a list as a word, zeros beyond its end. -/
def listWord (l : List Byte) (k : Nat) : Word := word (leNat (slice l k 4))

/-- A word of a port's registers. -/
def dmxPortRead (x : DmxPort) (o : Nat) : Word :=
  if o = 0x0 then x.cfg
  else if o = 0x4 then x.map
  else if o = 0x8 then pack [(0, x.tbase.toNat)]
  else if o = 0xC then x.tx
  else if o = 0x10 then pack [(31, x.ident.toNat), (30, x.lost.toNat), (0, x.pkts.toNat)]
  else if o = 0x14 then pack [(16, x.frerr.toNat), (0, x.altsc.toNat)]
  else if o = 0x18 then pack [(0, x.txskip.toNat)]
  else 0

/-- A read of DMX. -/
def dmxRead (s : State) (off : Nat) : Word :=
  let d := s.dmx
  if off < 0x80 then dmxPortRead (vget d.port (off / 0x40) {}) (off % 0x40)
  else if off = 0x100 then pack [(16, d.manf.toNat), (0, d.model.toNat)]
  else if off = 0x104 then d.swver
  else if off = 0x108 then pack [(0, d.cat.toNat)]
  else if off = 0x10C then pack [(31, d.rxrdy.toNat), (0, d.txlen.toNat)]
  else if 0x1000 ≤ off ∧ off < 0x1400 then cellsWord (vget d.port ((off - 0x1000) / 0x200) {}).txbuf ((off - 0x1000) % 0x200)
  else if 0x2000 ≤ off ∧ off < 0x2080 then cellsWord d.str (off - 0x2000)
  else if 0x3000 ≤ off ∧ off < 0x3104 then listWord d.rdmrx (off - 0x3000)
  else if 0x3200 ≤ off ∧ off < 0x3304 then cellsWord d.rdmtx (off - 0x3200)
  else 0

/-- Change port `p` of DMX. -/
def modDmxPort (p : Nat) (f : DmxPort → DmxPort) (s : State) : State :=
  { s with dmx := { s.dmx with port := vmod s.dmx.port p f } }

/-- What a read of DMX changes: the counters clear. -/
def dmxReadEffect (off : Nat) (s : State) : State :=
  if off < 0x80 then
    modDmxPort (off / 0x40) (fun x =>
      if off % 0x40 = 0x10 then { x with pkts := 0 }
      else if off % 0x40 = 0x14 then { x with frerr := 0, altsc := 0 }
      else if off % 0x40 = 0x18 then { x with txskip := 0 }
      else x) s
  else s

/-- A write of a port's registers. -/
def dmxPortWrite (x : DmxPort) (o : Nat) (v : Word) : DmxPort :=
  if o = 0x0 then { x with cfg := applyWrite dmxCfgFields x.cfg v }
  else if o = 0x4 then { x with map := applyWrite dmxMapFields x.map v }
  else if o = 0x8 then { x with tbase := low 16 v }
  else if o = 0xC then { x with tx := applyWrite dmxTxFields x.tx v }
  else if o = 0x10 then { x with ident := bit v 31 }
  else x

/-- A write of DMX outside the ports. -/
def Dmx.write (d : Dmx) (off : Nat) (v : Word) : Dmx :=
  if off = 0x100 then { d with manf := low 16 (v >>> 16), model := low 16 v }
  else if off = 0x104 then { d with swver := v }
  else if off = 0x108 then { d with cat := low 16 v }
  else if off = 0x10C then writeRdmctl (fld v 0 9) (bit v 30) d
  else if 0x2000 ≤ off ∧ off < 0x2080 then { d with str := putCellsWord d.str (off - 0x2000) v }
  else if 0x3200 ≤ off ∧ off < 0x3304 then { d with rdmtx := putCellsWord d.rdmtx (off - 0x3200) v }
  else d

/-- A write of DMX. -/
def dmxWrite (off : Nat) (v : Word) (s : State) : State :=
  if off < 0x80 then modDmxPort (off / 0x40) (fun x => dmxPortWrite x (off % 0x40) v) s
  else if 0x1000 ≤ off ∧ off < 0x1400 then
    modDmxPort ((off - 0x1000) / 0x200) (fun x => { x with txbuf := putCellsWord x.txbuf ((off - 0x1000) % 0x200) v }) s
  else { s with dmx := s.dmx.write off v }

end Sys2Proof.Machine
end

