-- ==== Sys2Proof/Machine/RegsMgt.lean ====
section
/-! DEFINITION. The registers of MGT, ROS, ECC and KST: what a read returns, what it clears, what a write does (Tables
11.7, 12.4, 16.10, 16.12). -/

namespace Sys2Proof.Machine

/-! ## MGT (Table 16.10) -/

/-- A read of MGT. -/
def mgtRead (s : State) (off : Nat) : Word :=
  let m := s.mgt
  if off = 0x0 then pack [(2, Config.mklock.toNat), (1, Config.sigreq.toNat), (0, Config.mauth.toNat)]
  else if off = 0x4 then m.cfg
  else if off = 0x8 then pack [(16, m.bulkdrop.toNat), (8, m.cdrop.toNat), (1, m.badform.toNat), (0, m.rpois.toNat)]
  else if off = 0xC then m.mseq
  else if off = 0x20 then m.upbase
  else if off = 0x24 then m.rseq
  else if off = 0x28 then pack [(8, m.rfn.toNat), (0, m.rres.toNat)]
  else if off = 0x2C then m.rdata
  else if off = 0x34 then m.hostCid
  else if off = 0x38 then pack [(0, m.hostLen.toNat)]
  else if off = 0x3C then m.cstage
  else if off = 0x40 then
    pack [(16, m.chunks.length), (8, m.unsigned.toNat), (4, m.reason.toNat), (0, m.cstate.toNat)]
  else if off = 0x44 then m.ivmin
  else if off = 0x48 then m.iver
  else if off = 0x50 then pack [(16, m.logTotal.toNat), (8, m.logHead.toNat), (0, m.log.length)]
  else if 0x1000 ≤ off ∧ off < 0x17E0 then listWord (m.logBytes ((off - 0x1000) / 32)) ((off - 0x1000) % 32)
  else 0

/-- What a read of MGT changes: the RC fields of MGT_STAT clear. -/
def mgtReadEffect (off : Nat) (s : State) : State :=
  if off = 0x8 then { s with mgt := { s.mgt with bulkdrop := 0, cdrop := 0, badform := 0 } } else s

/-- A write of MGT. -/
def mgtWrite (off : Nat) (v : Word) (s : State) : State :=
  let m := s.mgt
  if off = 0x4 then { s with mgt := { m with cfg := applyWrite mgtCfgFields m.cfg v } }
  else if off = 0x8 then { s with mgt := { m with rpois := m.rpois && !bit v 0 } }
  else if 0x10 ≤ off ∧ off < 0x20 then { s with mgt := writeMkey ((off - 0x10) / 4) v m }
  else if off = 0x20 then { s with mgt := { m with upbase := applyWrite upbaseFields m.upbase v } }
  else if off = 0x30 then writeCcmd (fld v 0 3) s
  else if off = 0x34 then { s with mgt := { m with hostCid := v } }
  else if off = 0x38 then { s with mgt := { m with hostLen := BitVec.ofNat 21 (clampN 128 1048576 (fld v 0 21)) } }
  else if off = 0x3C then { s with mgt := { m with cstage := applyWrite cstageFields m.cstage v } }
  else if off = 0x44 then { s with mgt := { m with ivmin := v } }
  else if off = 0x54 then { s with mgt := if bit v 0 then clearLog m else m }
  else s

/-! ## ROS (Table 16.12) -/

/-- A read of ROS. -/
def rosRead (s : State) (off : Nat) : Word :=
  let r := s.ros
  if off = 0x0 then r.cfg
  else if off = 0x4 then r.uaddr
  else if off = 0x8 then pack [(31, r.rhood.toNat), (30, r.look.toNat), (8, r.hslot.toNat)]
  else if off = 0xC then r.seq
  else if off = 0x10 then r.valid
  else if off = 0x14 then r.torn
  else 0

/-- A write of ROS. -/
def rosWrite (off : Nat) (v : Word) (s : State) : State :=
  if off = 0x0 then { s with ros := { s.ros with cfg := applyWrite rosCfgFields s.ros.cfg v } }
  else if off = 0x4 then { s with ros := { s.ros with uaddr := applyWrite uaddrFields s.ros.uaddr v } }
  else s

/-! ## ECC (Table 12.4) -/

/-- A word of a capture. -/
def captureRead (c : Capture) (o : Nat) : Word :=
  if o = 0 then c.addr
  else if o = 4 then c.data.setWidth 32
  else if o = 8 then (c.data >>> 32).setWidth 32
  else pack [(31, c.valid.toNat), (24, c.src.toNat), (16, c.chk.toNat), (0, c.syn.toNat)]

/-- A read of ECC. -/
def eccRead (s : State) (off : Nat) : Word :=
  let e := s.ecc
  if off = 0x0 then e.cfg
  else if off = 0x4 then pack [(0, e.thr.toNat)]
  else if off = 0x8 then pack [(0, e.corst.toNat)]
  else if off = 0xC then pack [(8, e.kfail.toNat), (0, e.fail.toNat)]
  else if off = 0x10 then e.bistaddr
  else if 0x20 ≤ off ∧ off < 0x40 then
    let b := vget e.bank ((off - 0x20) / 4) {}
    pack [(16, b.cor.toNat), (8, b.unc.toNat), (0, b.bucket.toNat)]
  else if off = 0x40 then pack [(16, e.kcor.toNat), (0, e.kunc.toNat)]
  else if off = 0x44 then pack [(16, e.rcor.toNat), (0, e.runc.toNat)]
  else if 0x50 ≤ off ∧ off < 0x60 then captureRead e.ccap (off - 0x50)
  else if 0x60 ≤ off ∧ off < 0x70 then captureRead e.ucap (off - 0x60)
  else if off = 0x74 then e.flipctl
  else if off = 0x78 then e.flip.setWidth 32
  else if off = 0x7C then (e.flip >>> 32).setWidth 32
  else 0

/-- What a read of ECC changes: its RC counters clear. -/
def eccReadEffect (off : Nat) (s : State) : State :=
  let e := s.ecc
  if 0x20 ≤ off ∧ off < 0x40 then
    { s with ecc := { e with bank := vmod e.bank ((off - 0x20) / 4) fun b => { b with cor := 0, unc := 0 } } }
  else if off = 0x40 then { s with ecc := { e with kcor := 0, kunc := 0 } }
  else if off = 0x44 then { s with ecc := { e with rcor := 0, runc := 0 } }
  else s

/-- The memory that a write of ECC_CLRW acts on: a mews, perch or scratch address in a domain that is ON (R306). -/
def clearable (s : State) (a : Word) : Bool :=
  match memOf a.toNat with
  | some t => pdOn s (memDomain t)
  | none => false

/-- A write of ECC_CLRW ends ABSENT: its address is in a domain that is not ON (R306). -/
def clearAbsent (s : State) (a : Word) : Bool :=
  match memOf a.toNat with
  | some t => !pdOn s (memDomain t)
  | none => false

/-- A write of ECC_CLRW (R306): the word becomes zero with a clean check field. -/
def clearWord (a : Word) (s : State) : State := if clearable s a then write64 (a.toNat / 8 * 8) 0 (slideReads s) else s

/-- A write of ECC_FLIPCTL (R313): ARM is stored as 0 outside SERVICE. -/
def writeFlipctl (v : Word) (s : State) : State :=
  s.setEcc { s.ecc with
    flipctl := setBit (applyWrite flipFields s.ecc.flipctl v) 31 (bit v 31 && s.mode.code == .service) }

/-- A write of ECC. -/
def eccWrite (off : Nat) (v : Word) (s : State) : State :=
  let e := s.ecc
  if off = 0x0 then { s with ecc := { e with cfg := applyWrite eccCfgFields e.cfg v } }
  else if off = 0x4 then { s with ecc := { e with thr := BitVec.ofNat 8 (max (fld v 0 8) 1) } }
  else if off = 0x5C then { s with ecc := { e with ccap := { e.ccap with valid := e.ccap.valid && !bit v 31 } } }
  else if off = 0x6C then { s with ecc := { e with ucap := { e.ucap with valid := e.ucap.valid && !bit v 31 } } }
  else if off = 0x70 then clearWord v s
  else if off = 0x74 then writeFlipctl v s
  else if off = 0x78 then { s with ecc := { e with flip := setFld e.flip 0 32 v.toNat } }
  else if off = 0x7C then { s with ecc := { e with flip := setFld e.flip 32 32 v.toNat } }
  else s

/-! ## KST (Table 11.7) -/

/-- The register file and PC can be reached (R297). -/
def Kestrel.open_ (c : Kestrel) : Bool := c.halted || c.parked || c.dfault || c.held

/-- KST_STATk. -/
def kstat (c : Kestrel) : Word :=
  let waiting : Bool := match c.wait with | .event _ _ => true | _ => false
  pack [(31, c.halted.toNat), (30, c.parked.toNat), (29, c.dfault.toNat), (28, waiting.toNat), (27, c.held.toNat),
    (16, c.sbuf.length), (8, c.hcause.toNat)]

/-- A word of kestrel `c`'s registers, with the marker of a poisoned register (R297). -/
def kstWord (c : Kestrel) (o : Nat) : Word × Bool :=
  if o = 0x0 then (pack [(31, c.rst.toNat), (27, c.brkh.toNat), (0, c.sess.toNat)], false)
  else if o = 0x4 then (pack [(0, c.bootpc.toNat)], false)
  else if o = 0x8 then (kstat c, false)
  else if o = 0xC then (if c.open_ then pack [(0, c.pc.toNat)] else 0, false)
  else if o = 0x10 then (pack [(16, c.traps.toNat), (0, c.pdrop.toNat)], false)
  else if 0x20 ≤ o ∧ o < 0x30 then (vget c.brk ((o - 0x20) / 4) 0, false)
  else if 0x40 ≤ o ∧ o < 0x80 then
    (if c.open_ then (vget c.regs ((o - 0x40) / 4) 0, vget c.mark ((o - 0x40) / 4) false) else (0, false))
  else if o = 0x80 then (pack [(0, c.tpc.toNat)], false)
  else if o = 0x84 then (pack [(0, c.tcause.toNat)], false)
  else if o = 0x88 then (c.tinfo, false)
  else if o = 0x8C then (pack [(0, c.tentry.toNat)], false)
  else if o = 0x90 then (pack [(0, c.intrap.toNat)], false)
  else (0, false)

/-- A read of KST. -/
def kstRead (s : State) (off : Nat) : Word × Bool :=
  if off < 0x400 then kstWord (kes s (off / 0x100)) (off % 0x100) else (0, false)

/-- What a read of KST changes: TRAPS and PDROP clear. -/
def kstReadEffect (off : Nat) (s : State) : State :=
  if off < 0x400 ∧ off % 0x100 = 0x10 then modK (off / 0x100) (fun c => { c with traps := 0, pdrop := 0 }) s else s

/-- A write of a register of kestrel `c`: its marker clears, k0 ignores it (R297). -/
def Kestrel.putReg (c : Kestrel) (i : Nat) (v : Word) : Kestrel :=
  if i = 0 then c else { c with regs := c.regs.setIfInBounds i v, mark := c.mark.setIfInBounds i false }

/-- A write of KST. -/
def kstWrite (off : Nat) (v : Word) (s : State) : State :=
  let k := off / 0x100
  let o := off % 0x100
  if 0x400 ≤ off then s
  else if o = 0x0 then writeKctrl k v s
  else modK k (fun c =>
    if o = 0x4 then { c with bootpc := BitVec.ofNat 14 (fld v 2 12 * 4) }
    else if o = 0xC then (if c.open_ then { c with pc := BitVec.ofNat 14 (fld v 2 12 * 4) } else c)
    else if 0x20 ≤ o ∧ o < 0x30 then { c with brk := vmod c.brk ((o - 0x20) / 4) fun w => applyWrite brkFields w v }
    else if 0x40 ≤ o ∧ o < 0x80 then (if c.open_ then c.putReg ((o - 0x40) / 4) v else c)
    else c) s

end Sys2Proof.Machine
end

