-- ==== Sys2Proof/Machine/Regs.lean ====
section
/-! DEFINITION. One internal access: which block an address belongs to, whether the access ends with DATA, ABSENT or as a
bus error, the data it delivers and what it changes (Table 1.3, R12, R13, R23-R28, R83, R99, R111). Windows, kestrels,
the management engine and the debug port share it. -/

namespace Sys2Proof.Machine

/-- What an internal access asks for: a read of the 32-bit word at its address, or a write of `size` bytes (R15). -/
inductive Ask where
  | read
  | write (size : Nat) (v : Word) (poison : Bool)
  deriving DecidableEq, Repr

/-- A read with its ending: data, and the in-band poison marker. -/
structure Reply where
  ending : Ending := .absent
  data : Word := 0
  poison : Bool := false
  deriving DecidableEq, Repr

/-- A write. -/
def Ask.isWrite : Ask → Bool
  | .read => false
  | .write _ _ _ => true

/-! ## Ending (R23, R83, R99, R111) -/

/-- How an access ends whose issue settled `adm`: DRV needs the link (R18), and a write of ECC_CLRW ends ABSENT with its
target (R306). -/
def endingOf (s : State) (adm : Ending) (a : Nat) (q : Ask) : Ending :=
  if adm ≠ .data then adm
  else if a / 0x10000 = 0x15 ∧ !s.sys.dlink then .absent
  else match q with
    | .write _ v _ => if a / 4 * 4 = 0x00140070 ∧ clearAbsent s v then .absent else .data
    | .read => .data

/-- How an access ends that is issued and replied to at once. -/
def ending (s : State) (r : Requester) (a : Nat) (q : Ask) : Ending := endingOf s (admission s r a q.isWrite) a q

/-- The address is one of the stage of the table sets (Tables 8.5, 10.6, 13.5). -/
def inStage (a : Nat) : Bool :=
  let o := a % 0x10000
  match a / 0x10000 with
  | 0x4 => (0x800 ≤ o && decide (o < 0x900)) || (0xC00 ≤ o && decide (o < 0xD00))
  | 0x8 => (0x100 ≤ o && decide (o < 0x280)) || (0x8000 ≤ o && decide (o < 0xC000))
  | _ => false

/-- The access waits: its target island is frozen (R76), or it writes the stage while a snapshot is taken (R263). -/
def accessWaits (s : State) (a : Nat) (write : Bool) : Bool := targetFrozen s a || (write && inStage a && s.epoch.snap)

/-! ## Reading -/

/-- The 32-bit register at `a`, in a block of Table 1.3 that holds registers. -/
def blockRead (s : State) (a : Nat) : Word × Bool :=
  let o := a % 0x10000
  match a / 0x10000 with
  | 0x0 => (sysRead s o, false)
  | 0x1 => (ckpRead s o, false)
  | 0x2 => (chxRead s (if o < 0x8000 then 0 else 1) (o % 0x8000), false)
  | 0x3 => (chnRead s o, false)
  | 0x4 => (disRead s o, false)
  | 0x5 => (voxRead s o, false)
  | 0x6 => (modRead s o, false)
  | 0x7 => kstRead s o
  | 0x8 => (mrgRead s o, false)
  | 0x9 => (emtRead s o, false)
  | 0xA => (gptRead s o, false)
  | 0xB => (aouRead s o, false)
  | 0xC => (pixRead s o, false)
  | 0xD => (snsRead s o, false)
  | 0xE => (audRead s o, false)
  | 0xF => (dmxRead s o, false)
  | 0x10 => (voiceAt s o, false)
  | 0x11 => (voiceAt s (0x10000 + o), false)
  | 0x12 => (mgtRead s o, false)
  | 0x13 => (rosRead s o, false)
  | 0x14 => (eccRead s o, false)
  | 0x15 => (drvRead s o, false)
  | _ => (0, false)

/-- The word at `a` of the roost store (R314). -/
def roostWord (r : Ros) (a : Nat) : Word × Bool :=
  let (d, p) := roostData r (a - 0x02000000)
  (BitVec.ofNat 32 (d.toNat / 2 ^ (a / 4 % 2 * 32)), p)

/-- The word that a read at `a` delivers when it ends with DATA (R13, R27). -/
def mapRead (s : State) (a : Nat) : Word × Bool :=
  if (memOf a).isSome then memWord32 s a
  else if inRoost a then roostWord s.ros a
  else blockRead s (a / 4 * 4)

/-- The requester code of a memory read (Table 12.4); the debug port has none, and what a capture records for it is free among
the codes 0-10 that occur (log entry 87). -/
def eccSrc (r : Requester) (n : Nat) : BitVec 4 :=
  match r with
  | .window w => BitVec.ofNat 4 (2 + w.val)
  | .kestrel k => BitVec.ofNat 4 (4 + k.val)
  | .mgmt => 8
  | .mode => 9
  | .jtag => BitVec.ofNat 4 ((Config.freeWord n).toNat % 11)

/-- What a read of the register at `a` changes (R12, Table 0.5). -/
def blockReadEffect (a : Nat) (s : State) : State :=
  let o := a % 0x10000
  match a / 0x10000 with
  | 0x0 => sysReadEffect o s
  | 0x2 => chxReadEffect (if o < 0x8000 then 0 else 1) (o % 0x8000) s
  | 0x3 => chnReadEffect o s
  | 0x4 => disReadEffect o s
  | 0x5 => voxReadEffect o s
  | 0x7 => kstReadEffect o s
  | 0xA => gptReadEffect o s
  | 0xC => pixReadEffect o s
  | 0xD => snsReadEffect o s
  | 0xF => dmxReadEffect o s
  | 0x12 => mgtReadEffect o s
  | 0x14 => eccReadEffect o s
  | 0x15 => drvReadEffect o s
  | _ => s

/-- What a read at `a` that ends with DATA changes. -/
def mapReadEffect (src : BitVec 4) (a : Nat) (s : State) : State :=
  if (memOf a).isSome then memReadEffect src a s
  else if inRoost a then { s with ecc := roostReadEffect src ((a - 0x02000000) / 8 * 8) s.ros s.ecc }
  else blockReadEffect (a / 4 * 4) s

/-! ## Writing -/

/-- A write of the register at `a` by `r`. -/
def blockWrite (r : Requester) (a : Nat) (v : Word) (s : State) : State :=
  let o := a % 0x10000
  match a / 0x10000 with
  | 0x0 => sysWrite r o v s
  | 0x1 => ckpWrite o v s
  | 0x2 => chxWrite (if o < 0x8000 then 0 else 1) (o % 0x8000) v s
  | 0x3 => chnWrite o v s
  | 0x4 => disWrite o v s
  | 0x5 => voxWrite o v s
  | 0x6 => modWrite o v s
  | 0x7 => kstWrite o v s
  | 0x8 => mrgWrite r o v s
  | 0x9 => emtWrite o v s
  | 0xA => gptWrite o v s
  | 0xB => aouWrite o v s
  | 0xC => pixWrite o v s
  | 0xD => snsWrite o v s
  | 0xE => audWrite o v s
  | 0xF => dmxWrite o v s
  | 0x12 => mgtWrite o v s
  | 0x13 => rosWrite o v s
  | 0x14 => eccWrite o v s
  | 0x15 => drvWrite o v s
  | _ => s

/-- The word that a write of `size` bytes at `a` presents to a 32-bit register; the spec does not say what the other
bytes are, so they are `other`, a free value (log entry 45). -/
def laneWord (a size : Nat) (v other : Word) : Word := if size = 4 then v else setFld other (8 * (a % 4)) (8 * size) v.toNat

/-- A write at `a` that ends with DATA: a memory merges it, the roost store and a reserved range ignore it (R28, R305). -/
def mapWrite (r : Requester) (src : BitVec 4) (a size : Nat) (v : Word) (poison : Bool) (s : State) : State :=
  if (memOf a).isSome then mergedWrite src a size v poison (slideReads s)
  else if inRoost a then s
  else
    blockWrite r (a / 4 * 4) (laneWord a size v (Config.freeWord s.free)) (if size = 4 then s else { s with free := s.free + 1 })

/-! ## One access -/

/-- The reply of an access at `a` whose issue settled `adm`. -/
def replyOf (adm : Ending) (a : Nat) (q : Ask) (s : State) : Reply :=
  match endingOf s adm a q with
  | .data =>
    match q with
    | .read => { ending := .data, data := (mapRead s a).1, poison := (mapRead s a).2 }
    | .write _ _ _ => { ending := .data }
  | e => { ending := e }

/-- What an access by `r` at `a` whose issue settled `adm` changes at its target; one that does not end with DATA changes
nothing there (R12, R25). -/
def effectOf (adm : Ending) (r : Requester) (a : Nat) (q : Ask) (s : State) : State :=
  if endingOf s adm a q = .data then
    let src := eccSrc r s.free
    let s := if r = .jtag then { s with free := s.free + 1 } else s
    match q with
    | .read => mapReadEffect src a s
    | .write size v p => mapWrite r src a size v p s
  else s

/-- What an access by `r` at `a` changes at its target when it is issued and performed at once. -/
def accessEffect (r : Requester) (a : Nat) (q : Ask) (s : State) : State := effectOf (admission s r a q.isWrite) r a q s

/-- An access of a window or a kestrel that ended ABSENT is counted, and its address kept (R26). -/
def countAbsent (a : Word) (s : State) : State :=
  { s with sys := { s.sys with absCount := satInc s.sys.absCount, lastAbs := a } }

end Sys2Proof.Machine
end

