-- ==== Sys2Proof/Machine/Host.lean ====
section
/-! DEFINITION. The host bus: its registers, the two windows, the post FIFO, doorbells and the owl (R115-R142). -/

namespace Sys2Proof.Machine

/-! ## The owl (R135-R139) -/

/-- HB_OWLCFG.EN. -/
def Owl.on (o : Owl) : Bool := bit o.cfg 15

/-- The full count: PERIOD x 8 ms in steps of 0.125 ms. -/
def Owl.full (o : Owl) : Half := BitVec.ofNat 16 (fld o.cfg 0 7 * 64)

/-- A kick (R135, R138): the count reloads and the owl hood lifts; while EN = 0 it does not start the count (R139). -/
def Owl.kick (o : Owl) : Owl :=
  { o with count := if o.on then o.full else o.count, lastKick := true, strike := false, hooded := false }

/-- A write to HB_OWLKICK (R135). -/
def Owl.writeKick (o : Owl) (v : Half) : Owl := if v = 0x6F77 then o.kick else { o with badkick := true, lastKick := false }

/-- A write to HB_OWLCFG (R139): while EN = 1 only right after a kick; the count starts when EN is written to 1. -/
def Owl.writeCfg (o : Owl) (v : Half) : Owl :=
  if o.on && !o.lastKick then o
  else
    let p : Owl := { o with cfg := applyWrite owlcfgFields o.cfg v }
    { p with count := if p.on then p.full else 0, strike := p.strike && p.on }

/-- The owl counts in this mode (R135). -/
def owlRuns (s : State) : Bool := s.owl.on && !s.mode.inPor && (s.mode.code == .boot || s.mode.code.running)

/-- The owl's flags at an expiry, with the count reloaded; with EN = 0 there is none (R136, R137, R139). -/
def Owl.expired (o : Owl) (hrdy : Bool) : Owl :=
  { o with exp := true, hrdyx := o.hrdyx || hrdy, count := if o.on then o.full else o.count }

/-- An expiry (R137, Table 5.5). -/
def owlExpire (hrdy : Bool) (s : State) : State :=
  let s := raise .owl { s with owl := s.owl.expired hrdy }
  match fld s.owl.cfg 13 2 with
  | 0 => s
  | 1 => { s with owl := { s.owl with hooded := true } }
  | 2 => owlReset s
  | _ => if s.owl.strike then owlReset s else { s with owl := { s.owl with hooded := true, strike := true } }

/-! ## Windows (R120-R128) -/

/-- Window `w`. -/
def win (s : State) (w : WIdx) : Window := s.host.win[w]

/-- Change window `w`. -/
def modWin (w : WIdx) (f : Window → Window) (s : State) : State :=
  { s with host := { s.host with win := s.host.win.set w (f s.host.win[w]) } }

/-- Put a value on the HD pins. -/
def setHd (v : Half) (s : State) : State := { s with host := { s.host with hd := v } }

/-- A DATA access that ends ABSENT at once and issues nothing (R118, R125). -/
def windowRefused (w : WIdx) (s : State) : State :=
  countAbsent (win s w).addr (modWin w (fun x => { x with abs := true }) s)

/-- A DATA access cannot issue: one is in progress, or the device is in ROOST (R118, R125). -/
def windowBlocked (s : State) (w : WIdx) : Bool := (win s w).acc.isSome || s.mode.code == .roost

/-- A write to DATA_LO (R121). -/
def dataLoWrite (w : WIdx) (d : Half) (s : State) : State := modWin w (fun x => { x with staging := d, staged := true }) s

/-- A write to DATA_HI (R121): one internal write at the address as it stands. One that is refused for BUSY or in ROOST issues
nothing; whether it clears STAGED the spec does not say, and the model leaves it set (log entry 81). -/
def dataHiWrite (w : WIdx) (d : Half) (s : State) : State :=
  if windowBlocked s w then windowRefused w s
  else modWin w (fun x =>
    { x with staged := false
             acc := some { addr := x.addr, data := some (d ++ x.staging), adm := admission s (.window w) x.addr.toNat true } }) s

/-- A read of DATA_LO (R122): one internal read. -/
def dataLoRead (w : WIdx) (s : State) : State :=
  if windowBlocked s w then setHd 0 (windowRefused w s)
  else modWin w (fun x =>
    { x with acc := some { addr := x.addr, data := none, adm := admission s (.window w) x.addr.toNat false } }) s

/-- The ask of a window access. -/
def winAsk : Option Word → Ask
  | none => .read
  | some v => .write 4 v false

/-- ADDR after an internal access has ended (R126). -/
def Window.step (x : Window) : Window := { x with acc := none, addr := if x.inc then x.addr + 4 else x.addr }

/-- The data of a read that ends: DATA_LO goes to the pins, the high half to the latch (R122). -/
def winData (w : WIdx) (v : Word) (s : State) : State :=
  setHd (low 16 v) (modWin w (fun x => { x with dataLo := low 16 v, latch := low 16 (v >>> 16) }) s)

/-- A window read delivered poisoned data (R127). -/
def winPoison (w : WIdx) (s : State) : State :=
  raise .poison { s with host := { s.host with poison := true, pwin := w = 1 } }

/-- The marks of a window access that ended (R26, R83, R123). -/
def windowMark (w : WIdx) (addr : Word) (e : Ending) (s : State) : State :=
  match e with
  | .data => s
  | .absent => countAbsent addr (modWin w (fun x => { x with abs := true }) s)
  | .berr => raise .berr (countAbsent addr (modWin w (fun x => { x with abs := true, berr := true }) s))

/-- A timed-out write is performed at its target (R124, R128). -/
def latePerform (w : WIdx) (p : Word × Word) (s : State) : State :=
  effectOf .data (.window w) p.1.toNat (.write 4 p.2 false) s

/-- The timed-out writes of window `w` that `q` picks are performed, oldest first. -/
def latePick (q : Word → Bool) (w : WIdx) (s : State) : State :=
  ((win s w).late.filter fun p => q p.1).foldl (fun s p => latePerform w p s)
    (modWin w (fun x => { x with late := x.late.filter fun p => !q p.1 }) s)

/-- Before an access to `a` is performed, every timed-out write to its target island is: only accesses to other islands may
pass one (R128). -/
def lateSettle (a : Nat) (s : State) : State :=
  latePick (fun x => islandOf 4 x.toNat == islandOf 4 a) 1 (latePick (fun x => islandOf 4 x.toNat == islandOf 4 a) 0 s)

/-- The oldest timed-out write of window `w` may be performed now: when is free (R124, R128, log entry 3). -/
def lateChance (w : WIdx) (s : State) : State :=
  match (win s w).late with
  | [] => s
  | p :: rest =>
    if accessWaits s p.1.toNat true then s
    else
      let t : State := { s with free := s.free + 1 }
      if bit (Config.freeWord s.free) 0 then latePerform w p (modWin w (fun x => { x with late := rest }) t) else t

/-- Time passes for the timed-out writes of both windows. -/
def lateTime (s : State) : State := lateChance 1 (lateChance 0 s)

/-- A host access has completed with its normal effect: with ANY = 1 it is a kick (R135). -/
def owlDone (s : State) : State := if s.owl.on && bit s.owl.cfg 12 then { s with owl := s.owl.kick } else s

/-- A window access ends with a reply (R123, R126, R127); the bus cycle that waited for it completes, with its normal effect
when it ends DATA (R135, log entry 86). -/
def windowEnd (w : WIdx) (x : Access) (s : State) : State :=
  let a := x.addr.toNat
  let s := lateSettle a s
  let r := replyOf x.adm a (winAsk x.data) s
  let s := modWin w Window.step (effectOf x.adm (.window w) a (winAsk x.data) s)
  let s := if x.data.isNone then winData w r.data s else s
  let s := when (r.ending == .data && x.data.isNone && r.poison) (winPoison w) s
  windowMark w x.addr r.ending (when (r.ending == .data) owlDone s)

/-- A window access in progress ends with its reply, unless it waits. -/
def windowReply (w : WIdx) (s : State) : State :=
  match (win s w).acc with
  | some x => if accessWaits s x.addr.toNat x.data.isSome then s else windowEnd w x (lateTime s)
  | none => s

/-- A window access in progress ends by timeout (R124): a write that its target had accepted may still be performed there,
once; whether, and when, is free (R128, log entry 3). -/
def windowTimeout (w : WIdx) (s : State) : State :=
  match (win s w).acc with
  | none => s
  | some x =>
    let s := match x.data with
      | none => winData w 0 s
      | some v =>
        if x.adm = .data then
          let t : State := { s with free := s.free + 1 }
          if Config.lateWritePerformed s.free then modWin w (fun y => { y with late := y.late ++ [(x.addr, v)] }) t else t
        else s
    raise .berr (countAbsent x.addr (modWin w (fun x => { x.step with abs := true, tmo := true }) s))

/-! ## Events, doorbells, hood (R131-R134, R141) -/

/-- The 16 bytes of eight half-words: half-word i carries bytes 2i and 2i + 1 (R131). -/
def eventOf (hs : List Half) : EvBytes :=
  Vector.ofFn fun i => (hs.getD (i.val / 2) 0 >>> (8 * (i.val % 2))).setWidth 8

/-- A write to HB_EVDATA (R131, R132). -/
def postHalf (d : Half) (h : HostBus) : HostBus :=
  if h.evStage.length < 7 then { h with evStage := h.evStage ++ [d] }
  else if h.evFifo.length < 16 then { h with evStage := [], evFifo := h.evFifo ++ [eventOf (h.evStage ++ [d])] }
  else { h with evStage := [], evdrop := satInc h.evdrop }

/-- A write of HB_EVCTRL.CLR = 1 (R132). -/
def stageClear (h : HostBus) : HostBus := { h with evStage := [] }

/-- The oldest event leaves the post FIFO (R133): EVSPACE is raised when FREE rises to LOWAT. -/
def handover (s : State) : State :=
  match s.host.evFifo with
  | [] => s
  | e :: es =>
    let s1 : State := { s with host := { s.host with evFifo := es } }
    let s2 := if pdOn s 12 then acceptEvent .house e s1
      else { s1 with host := { s1.host with evdrop := satInc s1.host.evdrop } }
    when (16 - es.length == s.host.lowat.toNat) (raise .evspace) s2

/-- A write of HB_DBK (R134). -/
def ringDoorbell (m : BitVec 4) (h : HostBus) : HostBus := { h with dbk := h.dbk ||| m }

/-- A write of HB_HOOD (R141); in SERVICE the outputs come under host control with it (Table 2.1, log entry 44). -/
def writeHood (v : Half) (s : State) : State :=
  { s with
    host := { s.host with hood := applyWrite hoodFields 0 v }
    drv := if s.mode.code = .service ∧ !s.mode.busy then { s.drv with modeHood := false } else s.drv }

/-! ## The register map (Table 5.3) -/

/-- A half-word from the values of its fields, each at its lowest bit. -/
def pack16 (fs : List (Nat × Nat)) : Half := BitVec.ofNat 16 (fs.map fun f => f.2 * 2 ^ f.1).sum

/-- HINT_N is pulled low (R130). -/
def hint (s : State) : Bool := !(s.mode.code == .dormant) && (s.host.isr &&& s.host.ier) != 0

/-- HB_MODE (Table 2.7). -/
def modeRead (m : ModeCtl) : Half :=
  let src : Nat := match m.src with | .host => 0 | .mgmt => 1 | .ring => 2 | .device => 3
  pack16 [(15, m.pend.toNat), (12, m.pcode.toNat), (10, m.result.toNat), (8, src), (3, m.busy.toNat), (0, m.code.num)]

/-- HB_BOOTSTEP (Table 2.11). -/
def bootstepRead (m : ModeCtl) : Half :=
  pack16 [(15, m.done.toNat), (14, m.clkfail.toNat), (13, m.memfail.toNat), (12, m.scanskip.toNat),
    (11, m.roostvalid.toNat), (10, m.kept.toNat), (4, m.bcause.toNat), (0, m.step.toNat)]

/-- A register of AON, offsets 0x04-0x1E as half-word indices 2-15. -/
def aonRead (s : State) (i : Nat) : Half :=
  match i with
  | 2 => modeRead s.mode
  | 5 => pack16 [(0, s.mode.rstcause.toNat)]
  | 6 => bootstepRead s.mode
  | 7 => s.mode.bootcfg
  | 8 => low 16 s.host.isr
  | 9 => low 16 s.host.ier
  | 10 => low 16 (s.host.isr >>> 16)
  | 11 => low 16 (s.host.ier >>> 16)
  | 12 => s.owl.cfg
  | 14 => pack16 [(15, s.owl.exp.toNat), (14, s.owl.hrdyx.toNat), (13, s.owl.badkick.toNat), (12, s.owl.hooded.toNat)]
  | 15 => s.owl.count
  | _ => 0

/-- HB_STATUS (Table 5.7). -/
def statusRead (s : State) : Half :=
  let hooded := s.host.aohood != 0 || s.host.flhood != 0 || pixHood s
  pack16 [(15, s.host.poison.toNat), (14, s.host.pwin.toNat), (13, (hint s).toNat), (12, s.sys.dlink.toNat),
    (11, hooded.toNat)]

/-- A register of window `x`, `i` half-words from its base; DATA_LO reads through `dataLoRead`. -/
def windowRead (x : Window) (i : Nat) : Half :=
  match i with
  | 0 => low 16 x.addr
  | 1 => low 16 (x.addr >>> 16)
  | 2 => x.dataLo
  | 3 => x.latch
  | 4 => pack16 [(0, x.inc.toNat)]
  | 5 => pack16 [(15, x.acc.isSome.toNat), (4, x.staged.toNat), (3, x.tmo.toNat), (2, x.berr.toNat), (1, x.abs.toNat)]
  | _ => 0

/-- A host-bus register at half-word index `i`. -/
def hostRead (s : State) (i : Nat) : Half :=
  let h := s.host
  if 2 ≤ i ∧ i < 16 then aonRead s i
  else if 0x10 ≤ i ∧ i < 0x18 then windowRead (win s 0) (i - 0x10)
  else if 0x18 ≤ i ∧ i < 0x20 then windowRead (win s 1) (i - 0x18)
  else match i with
    | 0x00 => 0x5164
    | 0x01 => statusRead s
    | 0x21 => pack16 [(0, h.lowat.toNat)]
    | 0x22 => pack16 [(8, 16 - h.evFifo.length), (0, h.evStage.length)]
    | 0x23 => h.evdrop
    | 0x24 => pack16 [(0, h.dbk.toNat)]
    | 0x25 => pack16 [(0, h.dbh.toNat)]
    | 0x26 => h.dbmsg
    | 0x27 => h.dbrsp
    | 0x28 => pack16 [(9, s.ros.look.toNat)]
    | 0x29 => pack16 [(11, s.ros.slot.toNat), (10, s.ros.stValid.toNat), (9, s.ros.stTorn.toNat), (8, s.ros.cold.toNat)]
    | 0x2A => h.hood
    | 0x2B => pack16 [(0, h.hoodst.toNat)]
    | 0x2C => pack16 [(15, s.epoch.mig.toNat), (14, s.epoch.held.toNat), (13, s.epoch.commitDrop.toNat)]
    | 0x2D => pack16 [(8, (s.epoch.groups == 16).toNat), (0, s.epoch.eyries.toNat)]
    | 0x2E => h.aohood
    | 0x2F => pack16 [(0, h.flhood.toNat)]
    | _ => 0

/-- What a host-bus read does beside its data: a window read issues, HB_EVDROP clears. -/
def hostReadEffect (i : Nat) (s : State) : State :=
  if i = 0x12 then dataLoRead 0 s
  else if i = 0x1A then dataLoRead 1 s
  else
    let s1 := setHd (hostRead s i) s
    if i = 0x23 then { s1 with host := { s1.host with evdrop := 0 } } else s1

/-- HB_ISRn or HB_IERn with one half replaced. -/
def putHalf (w : Word) (hi : Bool) (v : Half) : Word := setFld w (if hi then 16 else 0) 16 v.toNat

/-- A write of HB_ISRn (R129). -/
def isrClear (hi : Bool) (v : Half) (s : State) : State :=
  { s with host := { s.host with isr := s.host.isr &&& ~~~(putHalf 0 hi v) } }

/-- HB_OWLSTAT's flags that are written 1 clear (Table 5.10). -/
def Owl.clearStat (o : Owl) (v : Half) : Owl :=
  { o with exp := o.exp && !bit v 15, hrdyx := o.hrdyx && !bit v 14, badkick := o.badkick && !bit v 13 }

/-- A write of a PD0 register, half-word indices 2-15. -/
def aonWrite (i : Nat) (v : Half) (s : State) : State :=
  match i with
  | 3 => hostRequest (Mode.ofNum (fld v 0 3)) s
  | 4 => if bit v 0 then softReset (bit v 1) s else s
  | 5 => { s with mode := { s.mode with rstcause := s.mode.rstcause &&& ~~~(low 7 v) } }
  | 7 => { s with mode := { s.mode with bootcfg := applyWrite bootcfgFields s.mode.bootcfg v } }
  | 8 => isrClear false v s
  | 9 => { s with host := { s.host with ier := putHalf s.host.ier false v } }
  | 10 => isrClear true v s
  | 11 => { s with host := { s.host with ier := putHalf s.host.ier true v } }
  | 12 => { s with owl := s.owl.writeCfg v }
  | 13 => { s with owl := s.owl.writeKick v }
  | 14 => { s with owl := s.owl.clearStat v }
  | _ => s

/-- A write of a window register, `i` half-words from its base. -/
def windowWrite (w : WIdx) (i : Nat) (v : Half) (s : State) : State :=
  match i with
  | 0 => modWin w (fun x => { x with addr := setFld x.addr 0 16 (v.toNat / 4 * 4) }) s
  | 1 => modWin w (fun x => { x with addr := setFld x.addr 16 16 v.toNat }) s
  | 2 => dataLoWrite w v s
  | 3 => dataHiWrite w v s
  | 4 => modWin w (fun x => { x with inc := bit v 0 }) s
  | 5 => modWin w (fun x => { x with tmo := x.tmo && !bit v 3, berr := x.berr && !bit v 2, abs := x.abs && !bit v 1 }) s
  | _ => s

/-- A write of HB_EVCTRL (Table 5.13). -/
def evctrlWrite (v : Half) (h : HostBus) : HostBus :=
  let g : HostBus := { h with lowat := BitVec.ofNat 5 (clampN 1 16 (fld v 0 5)) }
  if bit v 15 then stageClear g else g

/-- A write of HB_ROOST (R140): SAVE requests ROOST, RELEASE releases a restored look. -/
def roostWrite (v : Half) (s : State) : State :=
  let s := if bit v 1 then endLook s else s
  if bit v 0 then hostRequest .roost s else s

/-- A write of HB_EPOCH (R142). -/
def epochWrite (v : Half) (s : State) : State :=
  let t : State := { s with epoch := { s.epoch with commitDrop := s.epoch.commitDrop && !bit v 13 } }
  if bit v 0 then commit t else t

/-- A write of a host-bus register at half-word index `i`. -/
def hostWrite (i : Nat) (v : Half) (s : State) : State :=
  if 2 ≤ i ∧ i < 16 then aonWrite i v s
  else if 0x10 ≤ i ∧ i < 0x18 then windowWrite 0 (i - 0x10) v s
  else if 0x18 ≤ i ∧ i < 0x20 then windowWrite 1 (i - 0x18) v s
  else match i with
    | 0x01 => { s with host := { s.host with poison := s.host.poison && !bit v 15 } }
    | 0x20 => { s with host := postHalf v s.host }
    | 0x21 => { s with host := evctrlWrite v s.host }
    | 0x24 => { s with host := ringDoorbell (low 4 v) s.host }
    | 0x25 => { s with host := { s.host with dbh := s.host.dbh &&& ~~~(low 4 v) } }
    | 0x26 => { s with host := { s.host with dbmsg := v } }
    | 0x28 => roostWrite v s
    | 0x2A => writeHood v s
    | 0x2C => epochWrite v s
    | _ => s

/-! ## One access of the host (R115-R118, R135, R139) -/

/-- The half-word index of an access. -/
def accessIdx : HostAccess → Nat
  | .read off | .write off _ | .both off _ => off.val

/-- The access is a read: with both strobes low it is one (R115). -/
def isRead : HostAccess → Bool
  | .write _ _ => false
  | _ => true

/-- The access is a key write to HB_OWLKICK, which is a kick or a bad one by itself. -/
def isKickWrite (a : HostAccess) : Bool := !isRead a && accessIdx a == 13

/-- The access is a window data access, whose bus cycle waits for an internal access (R116, R121, R122). -/
def isDataAccess (a : HostAccess) : Bool :=
  if isRead a then accessIdx a == 0x12 || accessIdx a == 0x1A else accessIdx a == 0x13 || accessIdx a == 0x1B

/-- What the owl sees of an access that is served (R135, R139): with ANY = 1 it is a kick, a window data access only when it
ends. `o` is the owl before it. -/
def owlSees (o : Owl) (a : HostAccess) (s : State) : State :=
  if isKickWrite a then s
  else if o.on && bit o.cfg 12 && !isDataAccess a then { s with owl := s.owl.kick }
  else { s with owl := { s.owl with lastKick := false } }

/-- What an access that is served does. -/
def hostServe (a : HostAccess) (s : State) : State :=
  match a with
  | .read off | .both off _ => hostReadEffect off.val s
  | .write off v => hostWrite off.val v s

/-- An access that the AON answers with 0x0000, its write discarded (R117): it is no kick (R135). -/
def hostBlank (a : HostAccess) (s : State) : State :=
  let s1 : State := { s with owl := { s.owl with lastKick := false } }
  if isRead a then setHd 0 s1 else s1

/-- The AON answers in place of the host bus: before the end of FUSE, during a reset of PD1, or in DORMANT (R117). -/
def aonAnswers (s : State) : Bool := beforeFuse s || !pdOn s 1 || s.mode.code == .dormant

/-- An access with effect `f` that the AON answers (R117): the PD0 offsets are served, any other reads 0; in DORMANT every
access reads 0 and wakes the device. While DORMANT is being entered the AON answers too, and the access wakes nothing yet:
the spec does not say who answers then (log entry 80). -/
def aonServe (a : HostAccess) (f : State → State) (s : State) : State :=
  if s.mode.code = .dormant then wake (hostBlank a s)
  else if 2 ≤ accessIdx a ∧ accessIdx a < 16 then owlSees s.owl a (f s)
  else hostBlank a s

/-- An access answered by the AON. -/
def aonAccess (a : HostAccess) (s : State) : State := aonServe a (hostServe a) s

/-- A write that is discarded in ROOST: it is no access with its normal effect (R118, R135). A DATA_HI write ends ABSENT. -/
def roostDiscard (i : Nat) (s : State) : State :=
  let t : State := { s with owl := { s.owl with lastKick := false } }
  if i = 0x13 then windowRefused 0 t else if i = 0x1B then windowRefused 1 t else t

/-- An access with effect `f` in ROOST: reads and the ISR clears are served, any other write is discarded (R118). -/
def roostServe (a : HostAccess) (f : State → State) (s : State) : State :=
  if isRead a || accessIdx a == 8 || accessIdx a == 10 then owlSees s.owl a (f s) else roostDiscard (accessIdx a) s

/-- One host-bus access whose effect is `f` when it is served (R115-R118). In power-on reset nothing answers. -/
def hostRun (a : HostAccess) (f : State → State) (s : State) : State :=
  if s.mode.inPor then s
  else
    let s := lateTime s
    if aonAnswers s then aonServe a f s
    else if s.mode.code = .roost then roostServe a f s
    else owlSees s.owl a (f s)

/-- One host-bus access. -/
def hostAccess (a : HostAccess) (s : State) : State := hostRun a (hostServe a) s

/-- A host write to half-word index `i`. -/
def hostPut (i : Fin 64) (v : Half) (s : State) : State := hostAccess (.write i v) s

/-! ## The commands -/

/-- A host access at a PD1 register is served normally: PD1 is up, FUSE has ended, and the device is not in ROOST. -/
def hostUp (s : State) : Bool := chainRuns s && !(s.mode.code == .roost)

/-- AON_HOST_ACCESS (R117). -/
def execAonHostAccess (a : HostAccess) (s : State) : Host.Outcome State Fault Refusal :=
  .next (if !s.mode.inPor && aonAnswers s then aonAccess a s else s)

/-- WINDOW_DATA_LO_WRITE (R121). -/
def execWindowDataLoWrite (w : WIdx) (d : Half) (s : State) : Host.Outcome State Fault Refusal :=
  .next (hostPut (if w = 0 then 0x12 else 0x1A) d s)

/-- WINDOW_DATA_HI_WRITE (R121). -/
def execWindowDataHiWrite (w : WIdx) (d : Half) (s : State) : Host.Outcome State Fault Refusal :=
  .next (hostPut (if w = 0 then 0x13 else 0x1B) d s)

/-- WINDOW_DATA_LO_READ (R122). -/
def execWindowDataLoRead (w : WIdx) (s : State) : Host.Outcome State Fault Refusal :=
  .next (hostAccess (.read (if w = 0 then 0x12 else 0x1A)) s)

/-- WINDOW_REPLY (R123). -/
def execWindowReply (w : WIdx) (s : State) : Host.Outcome State Fault Refusal := .next (windowReply w s)

/-- WINDOW_TIMEOUT (R124). -/
def execWindowTimeout (w : WIdx) (s : State) : Host.Outcome State Fault Refusal := .next (windowTimeout w s)

/-- EVENT_POST_HALF (R131): a write of HB_EVDATA. -/
def execEventPostHalf (d : Half) (s : State) : Host.Outcome State Fault Refusal := .next (hostPut 0x20 d s)

/-- EVENT_STAGE_CLEAR (R132): the CLR bit of a write of HB_EVCTRL. -/
def execEventStageClear (s : State) : Host.Outcome State Fault Refusal :=
  .next (hostRun (.write 0x21 0x8000) (fun s => { s with host := stageClear s.host }) s)

/-- EVENT_HANDOVER (R133). -/
def execEventHandover (s : State) : Host.Outcome State Fault Refusal := .next (handover s)

/-- DOORBELL_RING (R134): a write of HB_DBK. -/
def execDoorbellRing (m : BitVec 4) (s : State) : Host.Outcome State Fault Refusal := .next (hostPut 0x24 (m.setWidth 16) s)

/-- HOST_HOOD (R141): a write of HB_HOOD. -/
def execHostHood (v : Half) (s : State) : Host.Outcome State Fault Refusal := .next (hostPut 0x2A v s)

/-- A write of mode code `c` to HB_MODE_REQ (R38, Table 2.3). -/
def requestWrite (c : Mode) (s : State) : State := hostPut 3 (BitVec.ofNat 16 c.num) s

/-- REQUEST_DORMANT (R38). -/
def execRequestDormant (s : State) : Host.Outcome State Fault Refusal := .next (requestWrite .dormant s)
/-- REQUEST_BOOT (R38). -/
def execRequestBoot (s : State) : Host.Outcome State Fault Refusal := .next (requestWrite .boot s)
/-- REQUEST_MUSTER (R38). -/
def execRequestMuster (s : State) : Host.Outcome State Fault Refusal := .next (requestWrite .muster s)
/-- REQUEST_RELAY (R38). -/
def execRequestRelay (s : State) : Host.Outcome State Fault Refusal := .next (requestWrite .relay s)
/-- REQUEST_SHOW (R38). -/
def execRequestShow (s : State) : Host.Outcome State Fault Refusal := .next (requestWrite .show s)
/-- REQUEST_SOLO (R38). -/
def execRequestSolo (s : State) : Host.Outcome State Fault Refusal := .next (requestWrite .solo s)
/-- REQUEST_SERVICE (R38). -/
def execRequestService (s : State) : Host.Outcome State Fault Refusal := .next (requestWrite .service s)
/-- REQUEST_ROOST (R38). -/
def execRequestRoost (s : State) : Host.Outcome State Fault Refusal := .next (requestWrite .roost s)

/-- ROOST_SAVE_REQUEST (R140): a write of HB_ROOST.SAVE = 1 acts as a write of code 7 to HB_MODE_REQ. -/
def execRoostSaveRequest (s : State) : Host.Outcome State Fault Refusal := .next (hostPut 0x28 1 s)

/-- LOOK_RELEASE (R140, R408): a write of HB_ROOST.RELEASE = 1. -/
def execLookRelease (s : State) : Host.Outcome State Fault Refusal := .next (hostPut 0x28 2 s)

/-- SOFT_RESET (R45): a write of HB_RESET with SOFT = 1. -/
def execSoftReset (keep : Bool) (s : State) : Host.Outcome State Fault Refusal :=
  .next (hostPut 4 (if keep then 3 else 1) s)

/-- EPOCH_COMMIT (R262): the host writes COMMIT of HB_EPOCH; a write of VOX_EPOCH.COMMIT is an access of that register and
commits in the same way (log entry 111). -/
def execEpochCommit (s : State) : Host.Outcome State Fault Refusal := .next (hostRun (.write 0x2C 1) commit s)

/-- OWL_KICK (R135): a write of HB_OWLKICK, or another access, which is a kick when ANY = 1. -/
def execOwlKick (kick : OwlKick) (s : State) : Host.Outcome State Fault Refusal :=
  .next (match kick with
    | .key v => hostPut 13 v s
    | .access => hostRun (.read 15) id s)

/-- OWL_CONFIG (R139): a write of HB_OWLCFG. -/
def execOwlConfig (v : Half) (s : State) : Host.Outcome State Fault Refusal := .next (hostPut 12 v s)

/-- OWL_EXPIRY (R137): the count reaches zero. -/
def execOwlExpiry (s : State) : Host.Outcome State Fault Refusal := .next (if owlRuns s then owlExpire false s else s)

/-- OWL_HRDY_EXPIRY (R136): with HRDYEN = 1, whether or not the owl counts, a window access in progress holds HRDY beyond the
limit. -/
def execOwlHrdyExpiry (s : State) : Host.Outcome State Fault Refusal :=
  .next (if bit s.owl.cfg 11 && s.host.win.any (·.acc.isSome) then owlExpire true s else s)

/-- PERIPHERAL_ENABLE (R84). -/
def execPeripheralEnable (v : BitVec 6) (s : State) : Host.Outcome State Fault Refusal :=
  .next (if hostUp s then enableWrite v s else s)

/-! ## Memory commands (R299-R309, R313) -/

/-- The bytes a size code stands for: 1, 2, 4 or 8. -/
def sizeBytes (c : Fin 4) : Nat := 2 ^ c.val

/-- One granted access of a memory (R299, R305): a write of 8 bytes replaces the word, a smaller one is merged. -/
def memGrant (q : MemReq) (s : State) : State :=
  let a := q.addr.toNat
  match q.op with
  | none => memReadEffect q.src a s
  | some (c, v, p) =>
    if c = 3 then writeCode (a / 8 * 8) (if p then poisonCode v else cleanCode v) (slideReads s)
    else mergedWrite q.src (a / sizeBytes c * sizeBytes c) (sizeBytes c) (v.setWidth 32) p (slideReads s)

/-- MEWS_ACCESS (R299): a memory whose domain is not ON grants nothing. -/
def execMewsAccess (q : MemReq) (s : State) : Host.Outcome State Fault Refusal :=
  .next (if clearable s q.addr then memGrant q s else s)

/-- ECC_CLEAR_WORD (R306). -/
def execEccClearWord (addr : Word) (s : State) : Host.Outcome State Fault Refusal :=
  .next (if pdOn s 1 then clearWord addr s else s)

/-- FLIP_ARM (R313). -/
def execFlipArm (v : Word) (s : State) : Host.Outcome State Fault Refusal := .next (if pdOn s 1 then writeFlipctl v s else s)

/-- The byte address of the scrubber's next word in bank `m` (R309). -/
def scrubAddr (s : State) (m : Nat) : Nat := 0x01000000 + m * 0x80000 + (vget s.ecc.bank m {}).scrub % 65536 * 8

/-- The scrubber writes a corrected word `w` back clean, without the flip mask (R309, R313). -/
def scrubRewrite (a : Nat) (w : Code) (s : State) : State :=
  if eccClass w = .corrected then s.setMem (putRaw s.mem a (cleanCode (eccData w))) else s

/-- The scrubber's place in bank `m` moves on (R309). -/
def scrubNext (m : Nat) (e : Ecc) : Ecc := { e with bank := vmod e.bank m fun b => { b with scrub := (b.scrub + 1) % 65536 } }

/-- The scrubber reads one word of bank `m` and writes it back when it was corrected (R309). -/
def scrubBank (m : Nat) (s : State) : State :=
  let t := scrubRewrite (scrubAddr s m) (rawWord s.mem (scrubAddr s m)) (memReadEffect 10 (scrubAddr s m) s)
  t.setEcc (scrubNext m t.ecc)

/-- SCRUB (R309): with SCREN = 1, one word of each ON bank. -/
def execScrub (s : State) : Host.Outcome State Fault Refusal :=
  .next (if pdOn s 1 && bit s.ecc.cfg 31 then
    (List.range 8).foldl (fun s m => if pdOn s (46 + m) then scrubBank m s else s) s
  else s)

/-- A leak of one bank (R307). -/
def Bank.leak (b : Bank) : Bank := { b with bucket := BitVec.ofNat 8 (b.bucket.toNat - 1) }

/-- A leak brings bank `m` below THRESH (R307). -/
def leakClears (e : Ecc) (m : Nat) : Bool :=
  let b := (vget e.bank m {}).bucket.toNat
  b == e.thr.toNat && 0 < b

/-- BUCKET_LEAK (R307). -/
def execBucketLeak (s : State) : Host.Outcome State Fault Refusal :=
  .next (if pdOn s 1 then
    { s with ecc := { s.ecc with
        bank := s.ecc.bank.map Bank.leak
        corst := (List.range 8).foldl (fun c m => if leakClears s.ecc m then setBit c m false else c) s.ecc.corst } }
  else s)

end Sys2Proof.Machine
end

