-- ==== Sys2Proof/Machine/Kdecode.lean ====
section
/-! DEFINITION. The instruction words of the kestrels (R272, Tables 11.1, 11.2): fields, and a decoder that rejects every
word that takes the ILLEGAL trap. -/

namespace Sys2Proof.Machine

/-- The operations of format A under op 0x00, in the order of their fn codes. -/
inductive Alu where
  | add | sub | and | ior | eor | lsl | lsr | asr | clt | cltu | mlo | mhi | mhiu | min | max
  deriving DecidableEq, Repr

/-- The operations with a constant. -/
inductive AluK where
  | addk | andk | iork | eork | cltk | cltuk | lslk | lsrk | asrk
  deriving DecidableEq, Repr

/-- Branch conditions, in the order of their codes. -/
inductive Cond where
  | eq | ne | lt | ge | ltu | geu
  deriving DecidableEq, Repr

/-- The data of a load: W, H, HU, B, BU, in the order of their codes. -/
inductive LdSize where
  | w | h | hu | b | bu
  deriving DecidableEq, Repr

/-- The data of a store. -/
inductive StSize where
  | w | h | b
  deriving DecidableEq, Repr

/-- What an SPR instruction does, in the order of its act codes. -/
inductive SprAct where
  | rd | wr | set | clr
  deriving DecidableEq, Repr

/-- A legal instruction with its fields. -/
inductive KInstr where
  | alu (f : Alu) (rd ra rb : Fin 16)
  | aluk (f : AluK) (rd ra : Fin 16) (k : BitVec 18)
  | khi (rd : Fin 16) (k : BitVec 22)
  | go (link : Bool) (d : BitVec 25)
  | gor (ra : Fin 16) (k : BitVec 18)
  | callr (ra : Fin 16) (k : BitVec 18)
  | br (c : Cond) (ra rb : Fin 16) (d : BitVec 15)
  | ld (z : LdSize) (rt ra : Fin 16) (d : BitVec 15)
  | st (z : StSize) (rt ra : Fin 16) (d : BitVec 15)
  | swap (rd ra rb : Fin 16)
  | cas (rd ra rb : Fin 16)
  | fence
  | spr (act : SprAct) (rd ra : Fin 16) (sr : BitVec 12)
  | post (ra : Fin 16)
  | wait (rd ra : Fin 16)
  | rtt
  | brk
  deriving DecidableEq, Repr

/-- The register number whose lowest bit is bit `lo`. -/
def rfield (w : Word) (lo : Nat) : Fin 16 := ⟨fld w lo 4, Nat.mod_lt _ (by decide)⟩

/-- The operation of an fn code under op 0x00; none for 15-63. -/
def aluOf : Nat → Option Alu
  | 0 => some .add | 1 => some .sub | 2 => some .and | 3 => some .ior | 4 => some .eor
  | 5 => some .lsl | 6 => some .lsr | 7 => some .asr | 8 => some .clt | 9 => some .cltu
  | 10 => some .mlo | 11 => some .mhi | 12 => some .mhiu | 13 => some .min | 14 => some .max
  | _ => none

/-- The condition of a code; none for 6 and 7. -/
def condOf : Nat → Option Cond
  | 0 => some .eq | 1 => some .ne | 2 => some .lt | 3 => some .ge | 4 => some .ltu | 5 => some .geu | _ => none

/-- The size of a load; none for 5-7. -/
def ldOf : Nat → Option LdSize
  | 0 => some .w | 1 => some .h | 2 => some .hu | 3 => some .b | 4 => some .bu | _ => none

/-- The size of a store; none for 2 and 4-7. -/
def stOf : Nat → Option StSize
  | 0 => some .w | 1 => some .h | 3 => some .b | _ => none

/-- The act of an SPR instruction: act 0 has ra = 0. -/
def sprOf (w : Word) : Option SprAct :=
  match fld w 16 2 with
  | 0 => if fld w 18 4 = 0 then some .rd else none
  | 1 => some .wr
  | 2 => some .set
  | _ => some .clr

/-- An instruction of format A whose reserved bits are 0. -/
def decodeA (w : Word) (f : Fin 16 → Fin 16 → Fin 16 → KInstr) : Option KInstr :=
  if fld w 6 8 = 0 then some (f (rfield w 22) (rfield w 18) (rfield w 14)) else none

/-- A shift by a constant (op 0x07). -/
def shiftOf (w : Word) : Option AluK :=
  if fld w 7 11 = 0 then
    match fld w 5 2 with
    | 0 => some .lslk | 1 => some .lsrk | 2 => some .asrk | _ => none
  else none

/-- An instruction with a constant. -/
def mkAluk (f : AluK) (w : Word) : KInstr := .aluk f (rfield w 22) (rfield w 18) (w.setWidth 18)

/-- An instruction of format X that has no operand: bits 25:0 are 0. -/
def decodeX (w : Word) (i : KInstr) : Option KInstr := if fld w 0 26 = 0 then some i else none

/-- The instruction of a word; none takes the ILLEGAL trap (R272, Table 11.2). -/
def kDecode (w : Word) : Option KInstr :=
  match fld w 26 6 with
  | 0x00 => (aluOf (fld w 0 6)).bind fun f => decodeA w (.alu f)
  | 0x01 => some (mkAluk .addk w)
  | 0x02 => some (mkAluk .andk w)
  | 0x03 => some (mkAluk .iork w)
  | 0x04 => some (mkAluk .eork w)
  | 0x05 => some (mkAluk .cltk w)
  | 0x06 => some (mkAluk .cltuk w)
  | 0x07 => (shiftOf w).map fun f => mkAluk f w
  | 0x08 => some (.khi (rfield w 22) (w.setWidth 22))
  | 0x0A => some (.go (bit w 25) (w.setWidth 25))
  | 0x0B => if fld w 22 4 = 0 then some (.gor (rfield w 18) (w.setWidth 18)) else none
  | 0x0C => if fld w 22 4 = 0 then some (.callr (rfield w 18) (w.setWidth 18)) else none
  | 0x0D => (condOf (fld w 23 3)).map fun c => .br c (rfield w 19) (rfield w 15) (w.setWidth 15)
  | 0x12 => (ldOf (fld w 15 3)).map fun z => .ld z (rfield w 22) (rfield w 18) (w.setWidth 15)
  | 0x13 => (stOf (fld w 15 3)).map fun z => .st z (rfield w 22) (rfield w 18) (w.setWidth 15)
  | 0x1A => if fld w 0 6 = 0 then decodeA w .swap else none
  | 0x1B => if fld w 0 6 = 0 then decodeA w .cas else none
  | 0x1C => decodeX w .fence
  | 0x1D => if fld w 12 4 = 0 then (sprOf w).map fun a => .spr a (rfield w 22) (rfield w 18) (w.setWidth 12) else none
  | 0x20 =>
    if fld w 0 18 = 0 ∧ fld w 22 4 = 0 ∧ 1 ≤ fld w 18 4 ∧ fld w 18 4 ≤ 12 then some (.post (rfield w 18)) else none
  | 0x21 => if fld w 0 18 = 0 then some (.wait (rfield w 22) (rfield w 18)) else none
  | 0x22 => decodeX w .rtt
  | 0x23 => decodeX w .brk
  | _ => none

end Sys2Proof.Machine
end

