-- ==== Sys2Proof/Machine/Kestrel.lean ====
section
/-! DEFINITION. What one kestrel instruction does (R267-R288, Table 11.2): fetch, traps, register and poison rules, control
flow, special registers, and entry to the store buffer. -/

namespace Sys2Proof.Machine

/-! ## Registers and PC (R267, R268, R276) -/

/-- Register `r`: k0 reads as 0. -/
def Kestrel.reg (c : Kestrel) (r : Fin 16) : Word := if r = 0 then 0 else c.regs[r]

/-- The marker of register `r`: k0 is never poisoned. -/
def Kestrel.bad (c : Kestrel) (r : Fin 16) : Bool := if r = 0 then false else c.mark[r]

/-- A write of register `r` with a marker: k0 discards it. -/
def Kestrel.setReg (c : Kestrel) (r : Fin 16) (v : Word) (m : Bool) : Kestrel :=
  if r = 0 then c else { c with regs := c.regs.set r v, mark := c.mark.set r m }

/-- A jump target keeps bits 13:2 (R268). -/
def pcOf (t : Word) : BitVec 14 := setFld (t.setWidth 14) 0 2 0

/-- The PC as an address, zero-extended. -/
def Kestrel.pcWord (c : Kestrel) : Word := c.pc.setWidth 32

/-- The instruction completes after `n` KST cycles with its next PC. -/
def Kestrel.done (c : Kestrel) (pc : BitVec 14) (n : Nat) : Kestrel := { c with pc := pc, cyc := c.cyc + BitVec.ofNat 64 n }

/-- The next sequential PC: after 0x3FFC comes 0 (R268). -/
def Kestrel.next (c : Kestrel) : BitVec 14 := c.pc + 4

/-- The byte address of the word at PC (Table 1.3). -/
def fetchAddr (s : State) (k : KIdx) : Nat := 0x00700000 + k.val * 0x4000 + (kes s k).pc.toNat

/-- The instruction word at PC, and its marker. -/
def fetched (s : State) (k : KIdx) : Word × Bool := memWord32 s (fetchAddr s k)

/-- The requester code of a kestrel's reads (Table 12.4). -/
def kSrc (k : KIdx) : BitVec 4 := BitVec.ofNat 4 (4 + k.val)

/-! ## Traps (R274, R275, R295) -/

/-- The registers at a trap (R274). -/
def Kestrel.trapped (c : Kestrel) (cause : BitVec 4) (info : Word) : Kestrel :=
  { c with tpc := c.pc, tcause := cause, tinfo := info, intrap := true, pc := c.tentry, traps := satInc c.traps
           wait := .none }

/-- Kestrel `k` takes a trap (R274); with INTRAP = 1 it stops with DFAULT. -/
def trap (k : KIdx) (cause : BitVec 4) (info : Word) (s : State) : State :=
  if (kes s k).intrap then doubleFault k (modK k (fun c => { c with wait := .none }) s)
  else afterInstr k (raise .ktrap (modK k (fun c => c.trapped cause info) s))

/-- A trap with its cause and TINFO; one by a bus error counts the access, whose address TINFO is (R26, R83). -/
def takeTrap (k : KIdx) (t : BitVec 4 × Word) (s : State) : State :=
  trap k t.1 t.2 (when (t.1 == 3) (countAbsent t.2) s)

/-- Of the traps that apply to one instruction the spec names no order: which is taken is free (log entry 46). -/
def trapAny (k : KIdx) (first : BitVec 4 × Word) (rest : List (BitVec 4 × Word)) (s : State) : State :=
  match rest with
  | [] => takeTrap k first s
  | _ =>
    takeTrap k ((first :: rest).getD ((Config.freeWord s.free).toNat % (rest.length + 1)) first) { s with free := s.free + 1 }

/-- Take the trap of a list, or go on with `f` when it is empty. -/
def orTrap (k : KIdx) (ts : List (BitVec 4 × Word)) (f : State → State) (s : State) : State :=
  match ts with
  | [] => f s
  | t :: rest => trapAny k t rest s

/-- A trap that applies when `b` holds. -/
def trapIf (b : Bool) (cause : BitVec 4) (info : Word) : List (BitVec 4 × Word) := if b then [(cause, info)] else []

/-! ## One instruction -/

/-- An instruction of kestrel `k` can issue: nothing holds it, none is under way, and no breakpoint matches (R267,
R293). -/
def kIssues (s : State) (k : KIdx) : Bool :=
  kReady s k && decide ((kes s k).wait = .none) && !(kes s k).atBreak

/-- The word at PC is an instruction that `sel` takes: it is fetched and executed, or its fetch is poisoned (R274,
R310). -/
def kRun (k : KIdx) (sel : KInstr → Option (Word → State → State)) (s : State) : State :=
  if kIssues s k then
    let w := fetched s k
    match (kDecode w.1).bind sel with
    | none => s
    | some f =>
      let t := memReadEffect (kSrc k) (fetchAddr s k) s
      if w.2 then trap k 5 (kes s k).pcWord t else f w.1 t
  else s

/-- The instruction of `k` completes as `f` says. -/
def complete (k : KIdx) (f : Kestrel → Kestrel) (s : State) : State := afterInstr k (modK k f s)

/-! ## Arithmetic (Table 11.2) -/

/-- The word 1 or 0. -/
def oneIf (b : Bool) : Word := if b then 1 else 0

/-- The result of a format A operation. -/
def Alu.eval (f : Alu) (a b : Word) : Word :=
  match f with
  | .add => a + b
  | .sub => a - b
  | .and => a &&& b
  | .ior => a ||| b
  | .eor => a ^^^ b
  | .lsl => a <<< (b.toNat % 32)
  | .lsr => a >>> (b.toNat % 32)
  | .asr => a.sshiftRight (b.toNat % 32)
  | .clt => oneIf (a.slt b)
  | .cltu => oneIf (a.ult b)
  | .mlo => a * b
  | .mhi => BitVec.ofInt 32 (a.toInt * b.toInt / 4294967296)
  | .mhiu => BitVec.ofNat 32 (a.toNat * b.toNat / 4294967296)
  | .min => if a.slt b then a else b
  | .max => if a.slt b then b else a

/-- Its cycles. -/
def Alu.cycles : Alu → Nat
  | .mlo | .mhi | .mhiu => 2
  | _ => 1

/-- ADD, IOR and EOR with rb = k0 are moves, which keep a marker (R276). -/
def Alu.moves (f : Alu) (rb : Fin 16) : Bool := rb = 0 && (f == .add || f == .ior || f == .eor)

/-- A format A operation. -/
def aluStep (k : KIdx) (f : Alu) (rd ra rb : Fin 16) (w : Word) (s : State) : State :=
  let c := kes s k
  if f.moves rb then complete k (fun c => (c.setReg rd (c.reg ra) (c.bad ra)).done c.next 1) s
  else orTrap k (trapIf (c.bad ra || c.bad rb) 4 w)
    (complete k fun c => (c.setReg rd (f.eval (c.reg ra) (c.reg rb)) false).done c.next f.cycles) s

/-- The row of operation `f`. -/
def kAlu (f : Alu) (k : KIdx) (s : State) : State :=
  kRun k (fun i => match i with | .alu g rd ra rb => if g = f then some (aluStep k f rd ra rb) else none | _ => none) s

/-- The result of an operation with a constant: ADDK and the compares sign-extend it, the logic zero-extends it. -/
def AluK.eval (f : AluK) (a : Word) (c : BitVec 18) : Word :=
  match f with
  | .addk => a + c.signExtend 32
  | .andk => a &&& c.setWidth 32
  | .iork => a ||| c.setWidth 32
  | .eork => a ^^^ c.setWidth 32
  | .cltk => oneIf (a.slt (c.signExtend 32))
  | .cltuk => oneIf (a.ult (c.signExtend 32))
  | .lslk => a <<< fld c 0 5
  | .lsrk => a >>> fld c 0 5
  | .asrk => a.sshiftRight (fld c 0 5)

/-- ADDK, IORK and EORK with constant 0 are moves (R276). -/
def AluK.moves (f : AluK) (c : BitVec 18) : Bool := c = 0 && (f == .addk || f == .iork || f == .eork)

/-- An operation with a constant. -/
def alukStep (k : KIdx) (f : AluK) (rd ra : Fin 16) (v : BitVec 18) (w : Word) (s : State) : State :=
  let c := kes s k
  if f.moves v then complete k (fun c => (c.setReg rd (c.reg ra) (c.bad ra)).done c.next 1) s
  else orTrap k (trapIf (c.bad ra) 4 w) (complete k fun c => (c.setReg rd (f.eval (c.reg ra) v) false).done c.next 1) s

/-- The row of operation `f` with a constant. -/
def kAluk (f : AluK) (k : KIdx) (s : State) : State :=
  kRun k (fun i => match i with | .aluk g rd ra v => if g = f then some (alukStep k f rd ra v) else none | _ => none) s

/-- KHI. -/
def khiStep (k : KIdx) (rd : Fin 16) (v : BitVec 22) (_w : Word) (s : State) : State :=
  complete k (fun c => (c.setReg rd (v ++ (0 : BitVec 10)) false).done c.next 1) s

/-! ## Control flow -/

/-- PC displaced by a signed count of words. -/
def Kestrel.jump {n : Nat} (c : Kestrel) (d : BitVec n) : BitVec 14 := pcOf (c.pcWord + d.signExtend 32 * 4)

/-- GO and CALL. -/
def goStep (k : KIdx) (link : Bool) (d : BitVec 25) (_w : Word) (s : State) : State :=
  complete k (fun c => (if link then c.setReg 15 (c.pcWord + 4) false else c).done (c.jump d) 2) s

/-- GOR and CALLR: a poisoned base traps (R276). -/
def gorStep (k : KIdx) (link : Bool) (ra : Fin 16) (v : BitVec 18) (w : Word) (s : State) : State :=
  orTrap k (trapIf ((kes s k).bad ra) 4 w)
    (complete k fun c =>
      (if link then c.setReg 15 (c.pcWord + 4) false else c).done (pcOf (c.reg ra + v.signExtend 32)) 2) s

/-- A branch condition. -/
def Cond.holds (f : Cond) (a b : Word) : Bool :=
  match f with
  | .eq => a == b
  | .ne => a != b
  | .lt => a.slt b
  | .ge => !a.slt b
  | .ltu => a.ult b
  | .geu => !a.ult b

/-- BR. -/
def brStep (k : KIdx) (f : Cond) (ra rb : Fin 16) (d : BitVec 15) (w : Word) (s : State) : State :=
  orTrap k (trapIf ((kes s k).bad ra || (kes s k).bad rb) 4 w)
    (complete k fun c => if f.holds (c.reg ra) (c.reg rb) then c.done (c.jump d) 2 else c.done c.next 1) s

/-- The row of condition `f`. -/
def kBr (f : Cond) (k : KIdx) (s : State) : State :=
  kRun k (fun i => match i with | .br g ra rb d => if g = f then some (brStep k f ra rb d) else none | _ => none) s

/-- RTT. -/
def rttStep (k : KIdx) (_w : Word) (s : State) : State :=
  complete k (fun c => { c.done c.tpc 2 with intrap := false }) s

/-- BRK: a debug halt after it, or the BREAK trap (R293, Table 11.3). -/
def brkStep (k : KIdx) (_w : Word) (s : State) : State :=
  if (kes s k).brkh then debugHalt k 2 (modK k (fun c => c.done c.next 1) s)
  else trap k 7 (kes s k).pcWord s

/-! ## Loads (R275-R279) -/

/-- Bytes of a load, and whether it sign-extends. -/
def LdSize.bytes : LdSize → Nat
  | .w => 4 | .h | .hu => 2 | .b | .bu => 1

/-- LD.H and LD.B sign-extend. -/
def LdSize.signed : LdSize → Bool
  | .h | .b => true
  | _ => false

/-- The value of `size` bytes of a word at byte `o`, extended. -/
def loadValue (w : Word) (o size : Nat) (sx : Bool) : Word :=
  let v := fld w (8 * o) (8 * size)
  if sx && v ≥ 2 ^ (8 * size - 1) then BitVec.ofNat 32 (v + 2 ^ 32 - 2 ^ (8 * size)) else BitVec.ofNat 32 v

/-- A buffered store to the aligned word of `a` (R279). -/
def SbEntry.hits (e : SbEntry) (a : Nat) : Bool :=
  match e with
  | .store b _ _ _ _ => b.toNat / 4 == a / 4
  | _ => false

/-- The store supplies every byte of a load of `size` bytes at `a` (R279). -/
def SbEntry.supplies (e : SbEntry) (a size : Nat) : Bool :=
  match e with
  | .store b n _ _ _ => b.toNat ≤ a && decide (a + size ≤ b.toNat + n)
  | _ => false

/-- The data and marker that a store gives to a load at `a` that it supplies. -/
def SbEntry.given (e : SbEntry) (a size : Nat) (sx : Bool) : Word × Bool :=
  match e with
  | .store b _ v p _ => (loadValue (v >>> (8 * (a - b.toNat))) 0 size sx, p)
  | _ => (0, false)

/-- The youngest buffered store that a load of the word of `a` matches. -/
def Kestrel.youngest (c : Kestrel) (a : Nat) : Option SbEntry := (c.sbuf.filter (·.hits a)).getLast?

/-! ## Issue (R24, R277-R281) -/

/-- The entry issued. -/
def SbEntry.issue (s : State) (k : KIdx) (e : SbEntry) : SbEntry :=
  e.withAdm fun x => some (x.getD (admission s (.kestrel k) e.addr true))

/-- The later entries that can issue: each while every entry before it crosses to its own target island `i` (R278). -/
def issueFrom (s : State) (k : KIdx) (i : Option Nat) : List SbEntry → List SbEntry
  | [] => []
  | e :: es => if i.isSome ∧ e.island k = i then e.issue s k :: issueFrom s k i es else e :: es

/-- The buffer after the entries that can issue have issued, oldest first (R278); `busy` is the island of a load that waits
for its reply, which nothing issued later passes (R24). -/
def issueBuf (s : State) (k : KIdx) (busy : Option Nat) : List SbEntry → List SbEntry
  | [] => []
  | e :: es => if busy.isSome ∧ e.island k = busy then e :: es else e.issue s k :: issueFrom s k (e.island k) es

/-- The waiting load or atomic operation issues when it can: a load when no buffered store matches its word (R279), SWAP and
CAS when the buffer is empty (R281). -/
def issueWait (s : State) (k : KIdx) (c : Kestrel) : KWait :=
  match c.wait with
  | .load rt a n sx none =>
    if c.sbuf.any (·.hits a.toNat) then c.wait else .load rt a n sx (some (admission s (.kestrel k) a.toNat false))
  | .atomic rd a v p cmp none =>
    if c.sbuf.isEmpty then .atomic rd a v p cmp (some (admission s (.kestrel k) a.toNat true)) else c.wait
  | w => w

/-- The island that a load under way has crossed to. -/
def KWait.busy (k : KIdx) : KWait → Option Nat
  | .load _ a _ _ (some _) => islandOf k a.toNat
  | _ => Option.none

/-- Everything of kestrel `k` that can issue issues; its closed gate lets nothing out (R97). -/
def issueAll (k : KIdx) (s : State) : State :=
  modK k (fun c => { c with wait := issueWait s k c, sbuf := issueBuf s k ((issueWait s k c).busy k) c.sbuf }) s

/-- The loaded value is written and the instruction completes; what waited behind the load issues. -/
def loadDone (k : KIdx) (rt : Fin 16) (v : Word) (p : Bool) (s : State) : State :=
  issueAll k (complete k (fun c => { (c.setReg rt v p).done c.next 2 with wait := .none }) s)

/-- A load issues: it takes its data from the buffer, or waits for its reply (R277, R279). -/
def loadIssue (k : KIdx) (rt : Fin 16) (a : Word) (size : Nat) (sx : Bool) (s : State) : State :=
  let wait := issueAll k (modK k (fun c => { c with wait := .load rt a size sx none }) s)
  match (kes s k).youngest a.toNat with
  | some e =>
    if e.supplies a.toNat size then loadDone k rt (e.given a.toNat size sx).1 (e.given a.toNat size sx).2 s else wait
  | none => wait

/-- The address of a load or store. -/
def Kestrel.ea (c : Kestrel) (ra : Fin 16) (d : BitVec 15) : Word := c.reg ra + d.signExtend 32

/-- LD: a poisoned base or a misaligned address traps (R276, Table 11.3). -/
def ldStep (k : KIdx) (z : LdSize) (rt ra : Fin 16) (d : BitVec 15) (w : Word) (s : State) : State :=
  let c := kes s k
  let a := c.ea ra d
  orTrap k (if c.bad ra then [(4, w)] else trapIf (a.toNat % z.bytes != 0) 2 a)
    (loadIssue k rt a z.bytes z.signed) s

/-- The row of load size `z`. -/
def kLd (z : LdSize) (k : KIdx) (s : State) : State :=
  kRun k (fun i => match i with | .ld y rt ra d => if y = z then some (ldStep k z rt ra d) else none | _ => none) s

/-- An issued entry of kestrel `k` is on its way to island `i`. -/
def Kestrel.onWay (k : KIdx) (c : Kestrel) (i : Option Nat) : Bool :=
  i.isSome && (c.crossed ++ c.sbuf).any fun e => e.adm.isSome && e.island k == i

/-- The reply of a load that has issued arrives (R275-R279). On one crossing replies come in the order of the requests, so
that a store issued before it comes first (R24). -/
def loadReply (k : KIdx) (s : State) : State :=
  match (kes s k).wait with
  | .load rt a size sx (some adm) =>
    let al : Word := BitVec.ofNat 32 (a.toNat / 4 * 4)
    if accessWaits s al.toNat false || (kes s k).onWay k (islandOf k a.toNat) then s
    else
      let r := replyOf adm al.toNat .read s
      let t := effectOf adm (.kestrel k) al.toNat .read s
      match r.ending with
      | .data => loadDone k rt (loadValue r.data (a.toNat % 4) size sx) r.poison t
      | .absent => loadDone k rt 0 false (countAbsent a t)
      | .berr => issueAll k (takeTrap k (3, a) t)
  | _ => s

/-! ## Stores and the store buffer (R275, R276, R278) -/

/-- The traps of an entry, decided when it enters the buffer (R275, R276). -/
def entryTraps (s : State) (w : Word) : SbEntry → List (BitVec 4 × Word)
  | .store a _ _ p _ =>
    trapIf ((enableOf a.toNat).any fun b => !enabled s b) 3 a ++ trapIf (p && (memOf a.toNat).isNone) 4 w
  | _ => []

/-- An entry enters the store buffer, its instruction completes, and it issues when it can. -/
def enter (k : KIdx) (e : SbEntry) (s : State) : State :=
  issueAll k (complete k (fun c => { c.done c.next 1 with sbuf := c.sbuf ++ [e], wait := .none }) s)

/-- A store or post: it waits while the buffer is full (R278). -/
def bufferEntry (k : KIdx) (e : SbEntry) (w : Word) (s : State) : State :=
  if 8 ≤ (kes s k).sbuf.length then modK k (fun c => { c with wait := .room e w }) s
  else orTrap k (entryTraps s w e) (enter k e) s

/-- Bytes of a store. -/
def StSize.bytes : StSize → Nat
  | .w => 4 | .h => 2 | .b => 1

/-- The traps of a store beside those of its entry. -/
def storeTraps (c : Kestrel) (ra : Fin 16) (a : Word) (n : Nat) (w : Word) : List (BitVec 4 × Word) :=
  if c.bad ra then [(4, w)] else trapIf (a.toNat % n != 0) 2 a

/-- ST. Every trap is decided when the store enters the buffer, so a full buffer comes first (R275). -/
def stStep (k : KIdx) (z : StSize) (rt ra : Fin 16) (d : BitVec 15) (w : Word) (s : State) : State :=
  let c := kes s k
  let a := c.ea ra d
  let e : SbEntry := .store a z.bytes (c.reg rt) (c.bad rt) none
  if c.bad ra then trap k 4 w s
  else if 8 ≤ c.sbuf.length then modK k (fun c => { c with wait := .room e w }) s
  else orTrap k (storeTraps c ra a z.bytes w ++ entryTraps s w e) (enter k e) s

/-- The row of store size `z`. -/
def kSt (z : StSize) (k : KIdx) (s : State) : State :=
  kRun k (fun i => match i with | .st y rt ra d => if y = z then some (stStep k z rt ra d) else none | _ => none) s

/-- STORE_BUFFER_ROOM (R278): room has come for a waiting store or post, which enters the buffer or traps. -/
def bufferRoom (k : KIdx) (s : State) : State :=
  match (kes s k).wait with
  | .room e w =>
    if 8 ≤ (kes s k).sbuf.length then s
    else
      let mis := match e with
        | .store a n _ _ _ => trapIf (a.toNat % n != 0) 2 a
        | _ => []
      orTrap k (mis ++ entryTraps s w e) (enter k e) s
  | _ => s

/-- A post whose issue settled `adm` is performed at dispatch for the session it was bound to (R288): with PD12 not taking
it, it counts PDROP. -/
def performPost (k : KIdx) (e : EvBytes) (n : BitVec 4) (adm : Ending) (s : State) : State :=
  if adm = .data then acceptFor n.toNat true e s
  else modK k (fun c => { c with pdrop := satInc c.pdrop }) s

/-- What a SWAP or CAS does at its target when it ends with DATA (R276, R281): a CAS that meets poison or another value
does not write. -/
def atomicEffect (k : KIdx) (a : Word) (v : Word) (p : Bool) (cmp : Option Word) (adm : Ending) (s : State) : State :=
  let old := mapRead s a.toNat
  let writes := match cmp with
    | none => true
    | some x => !old.2 && old.1 == x
  effectOf adm (.kestrel k) a.toNat (if writes then .write 4 v p else .read) s

/-- An access of a kestrel is performed at its target, or ends ABSENT and is counted (R26, R275). -/
def performOr (a : Word) (adm : Ending) (q : Ask) (f : State → State) (s : State) : State :=
  if endingOf s adm a.toNat q = .data then f s else countAbsent a s

/-- An issued entry is performed at its target; one that is not issued yet does nothing. -/
def perform (k : KIdx) (e : SbEntry) (s : State) : State :=
  match e with
  | .store a n v p (some adm) => performOr a adm (.write n v p) (effectOf adm (.kestrel k) a.toNat (.write n v p)) s
  | .post ev n (some adm) => performPost k ev n adm s
  | .atomic a v p cmp adm => performOr a adm .read (atomicEffect k a v p cmp adm) s
  | .load a adm =>
    let al := a.toNat / 4 * 4
    performOr a adm .read (effectOf adm (.kestrel k) al .read) s
  | _ => s

/-- The reply of an entry can come: it is issued and its target does not hold it up. -/
def SbEntry.ready (s : State) (e : SbEntry) : Bool := e.adm.isSome && !accessWaits s e.addr true

/-- STORE_REPLY (R278): the oldest entry on its way is performed; one that crossed before the kestrel stopped comes first
and its reply is dropped (R106, R291). What waited for it issues. -/
def storeReply (k : KIdx) (s : State) : State :=
  match (kes s k).crossed with
  | e :: es => if e.ready s then perform k e (modK k (fun c => { c with crossed := es }) s) else s
  | [] =>
    match (kes s k).sbuf with
    | e :: es => if e.ready s then issueAll k (perform k e (modK k (fun c => { c with sbuf := es }) s)) else s
    | [] => s

/-! ## SWAP, CAS, FENCE, WAIT (R281, R286) -/

/-- The instruction waits inside. -/
def waitIn (k : KIdx) (w : KWait) (s : State) : State := modK k (fun c => { c with wait := w }) s

/-- SWAP, or CAS with a compare value: the base and the compare value are used, and the store value too where the target is no
memory; the address is a word of mews or scratch (R276, Table 11.3). -/
def atomicStep (k : KIdx) (rd ra rb : Fin 16) (cas : Bool) (w : Word) (s : State) : State :=
  let c := kes s k
  let a := c.reg ra
  let inside := (memOf a.toNat).any fun t => decide (t < 8 ∨ 12 ≤ t)
  orTrap k (trapIf (c.bad ra || (cas && c.bad rd) || (c.bad rb && (memOf a.toNat).isNone)) 4 w
      ++ (if c.bad ra then [] else trapIf (a.toNat % 4 != 0) 2 a ++ trapIf (!inside) 6 a))
    (fun s => issueAll k (waitIn k (.atomic rd a (c.reg rb) (c.bad rb) (if cas then some (c.reg rd) else none) none) s)) s

/-- ATOMIC_REPLY (R276, R281): the buffer has drained and the operation is performed at its target. -/
def atomicReply (k : KIdx) (s : State) : State :=
  match (kes s k).wait with
  | .atomic rd a v p cmp (some adm) =>
    if accessWaits s a.toNat true || (kes s k).onWay k (islandOf k a.toNat) then s
    else if endingOf s adm a.toNat .read = .data then
      loadDone k rd (mapRead s a.toNat).1 (mapRead s a.toNat).2 (atomicEffect k a v p cmp adm s)
    else loadDone k rd 0 false (countAbsent a s)
  | _ => s

/-- FENCE (R281). -/
def fenceStep (k : KIdx) (_w : Word) (s : State) : State :=
  if (kes s k).sbuf.isEmpty then complete k (fun c => c.done c.next 1) s else waitIn k .fence s

/-- FENCE_DONE (R281). -/
def fenceDone (k : KIdx) (s : State) : State :=
  if (kes s k).wait = .fence ∧ (kes s k).sbuf.isEmpty then
    complete k (fun c => { c.done c.next 1 with wait := .none }) s
  else s

/-- PEND as cue code sees it: TIME is the level CTIME >= target, DBELL the doorbell (R284, R285, Table 11.5). -/
def pendOf (s : State) (k : KIdx) : Word :=
  let c := kes s k
  let time := decide (c.target.toNat ≤ s.chn.ctime.toNat)
  setBit (setBit (c.pend.setWidth 32) 0 time) 1 (bit s.host.dbk k.val)

/-- WAIT completes with the AND (R286). -/
def waitDone (k : KIdx) (rd : Fin 16) (v : Word) (s : State) : State :=
  complete k (fun c => { (c.setReg rd v false).done c.next 1 with wait := .none }) s

/-- WAIT (R276, R286): it completes at once on a mask of 0 or a condition that holds; a STEP on one that must wait halts at
it (Table 11.8). -/
def waitStep (k : KIdx) (rd ra : Fin 16) (w : Word) (s : State) : State :=
  let m := (kes s k).reg ra
  orTrap k (trapIf ((kes s k).bad ra) 4 w)
    (fun s => if m = 0 ∨ pendOf s k &&& m ≠ 0 then waitDone k rd (pendOf s k &&& m) s
              else if (kes s k).stepping then debugHalt k 3 s
              else waitIn k (.event rd m) s) s

/-- WAIT_DONE (R286). -/
def waitReady (k : KIdx) (s : State) : State :=
  match (kes s k).wait with
  | .event rd m => if pendOf s k &&& m ≠ 0 then waitDone k rd (pendOf s k &&& m) s else s
  | _ => s

/-! ## POST (R288) -/

/-- The event in four registers: byte 4i of register i is in its bits 31:24. -/
def Kestrel.event (c : Kestrel) (ra : Fin 16) : EvBytes :=
  Vector.ofFn fun i => BitVec.ofNat 8 (fld (vget c.regs (ra.val + i.val / 4) 0) (24 - 8 * (i.val % 4)) 8)

/-- POST: a poisoned register traps (R276). -/
def postStep (k : KIdx) (ra : Fin 16) (w : Word) (s : State) : State :=
  let c := kes s k
  orTrap k (trapIf ((List.range 4).any fun i => vget c.mark (ra.val + i) false) 4 w)
    (bufferEntry k (.post (c.event ra) c.sess none) w) s

/-! ## Special registers (R273, R283-R287, Table 11.4) -/

/-- The value that a read of an SR returns. -/
def sprValue (s : State) (k : KIdx) (sr : Nat) : Word :=
  let c := kes s k
  match sr with
  | 0x100 => word k.val
  | 0x101 => word c.sess.toNat
  | 0x102 => (c.cyc + (Config.freeWord s.free).setWidth 64).setWidth 32
  | 0x103 => c.cychi
  | 0x110 => s.chn.ctime.setWidth 32
  | 0x111 => c.cthi
  | 0x112 => c.tgtlo
  | 0x113 => c.tgthi
  | 0x120 => pendOf s k
  | 0x123 => word s.host.dbmsg.toNat
  | 0x124 => word s.host.dbrsp.toNat
  | 0x130 => word c.tpc.toNat
  | 0x131 => word c.tcause.toNat
  | 0x132 => c.tinfo
  | 0x133 => word c.tentry.toNat
  | 0x134 => word c.intrap.toNat
  | _ => 0

/-- What reading an SR changes (R283): the low halves latch; the KST cycles since the last reading are free, so CYC moves
on by a free value (log entry 8). -/
def sprReadEffect (k : KIdx) (sr : Nat) (s : State) : State :=
  match sr with
  | 0x102 =>
    { modK k (fun c =>
        let n := c.cyc + (Config.freeWord s.free).setWidth 64
        { c with cyc := n, cychi := (n >>> 32).setWidth 32 }) s with free := s.free + 1 }
  | 0x110 => modK k (fun c => { c with cthi := (s.chn.ctime >>> 32).setWidth 32 }) s
  | _ => s

/-- A write of PEND clears the bits it holds 1 in; TIME is a level, DBELL clears the doorbell (R284, R285). -/
def pendClear (k : KIdx) (m : Word) (s : State) : State :=
  let t := modK k (fun c => { c with pend := c.pend &&& ~~~(low 16 m) }) s
  if bit m 1 then { t with host := { t.host with dbk := setBit t.host.dbk k.val false } } else t

/-- KSIG: bit j sets PEND.KSIG of Kj (R287). -/
def signal (m : Word) (s : State) : State :=
  let one (j : Nat) (c : Kestrel) : Kestrel := if bit m j then { c with pend := setBit c.pend 15 true } else c
  { s with kst := { s.kst with core := s.kst.core.mapIdx one } }

/-- HRING: bit 0 rings the host (R287). -/
def ringHost (k : KIdx) (m : Word) (s : State) : State :=
  if bit m 0 then raise .dbell { s with host := { s.host with dbh := setBit s.host.dbh k.val true } } else s

/-- A write of an SR other than PEND: read-only and unlisted ones ignore it (R273). -/
def sprWrite (k : KIdx) (sr : Nat) (v : Word) (s : State) : State :=
  match sr with
  | 0x112 => modK k (fun c => { c with tgtlo := v }) s
  | 0x113 => modK k (fun c => { c with tgthi := v, target := v ++ c.tgtlo }) s
  | 0x121 => signal v s
  | 0x122 => ringHost k v s
  | 0x124 => { s with host := { s.host with dbrsp := low 16 v } }
  | 0x130 => modK k (fun c => { c with tpc := pcOf v }) s
  | 0x131 => modK k (fun c => { c with tcause := low 4 v }) s
  | 0x132 => modK k (fun c => { c with tinfo := v }) s
  | 0x133 => modK k (fun c => { c with tentry := pcOf v }) s
  | 0x134 => modK k (fun c => { c with intrap := bit v 0 }) s
  | _ => s

/-- The SPR instruction writes: RD never does, SET and CLR not with ra = k0 (R273). -/
def SprAct.writes (a : SprAct) (ra : Fin 16) : Bool :=
  match a with
  | .rd => false
  | .wr => true
  | .set | .clr => ra != 0

/-- What an SPR instruction writes, given the SR's value. -/
def SprAct.value (a : SprAct) (old v : Word) : Word :=
  match a with
  | .rd => old
  | .wr => v
  | .set => old ||| v
  | .clr => old &&& ~~~v

/-- The write of an SPR instruction: PEND is cleared by WR and CLR only (R285). -/
def sprAct (k : KIdx) (a : SprAct) (sr : Nat) (old v : Word) (s : State) : State :=
  if sr = 0x120 then (if a = .set then s else pendClear k v s) else sprWrite k sr (a.value old v) s

/-- SPR: rd takes the SR's value before the write. -/
def sprStep (k : KIdx) (a : SprAct) (rd ra : Fin 16) (sr : BitVec 12) (w : Word) (s : State) : State :=
  let n := sr.toNat
  orTrap k (trapIf (a != .rd && (kes s k).bad ra) 4 w)
    (fun s =>
      let old := sprValue s k n
      let v := (kes s k).reg ra
      let t := sprReadEffect k n s
      let t := if a.writes ra then sprAct k a n old v t else t
      complete k (fun c => (c.setReg rd old false).done c.next 1) t) s

/-- The row of act `a`. -/
def kSpr (a : SprAct) (k : KIdx) (s : State) : State :=
  kRun k (fun i => match i with | .spr b rd ra sr => if b = a then some (sprStep k a rd ra sr) else none | _ => none) s

/-! ## The commands: one for each row of Table 11.2. Each executes the word at PC when that word is its instruction. -/

/-- ADD (Table 11.2). -/
def execKAdd (k : KIdx) (s : State) : Host.Outcome State Fault Refusal := .next (kAlu .add k s)

/-- SUB (Table 11.2). -/
def execKSub (k : KIdx) (s : State) : Host.Outcome State Fault Refusal := .next (kAlu .sub k s)

/-- AND (Table 11.2). -/
def execKAnd (k : KIdx) (s : State) : Host.Outcome State Fault Refusal := .next (kAlu .and k s)

/-- IOR (Table 11.2). -/
def execKIor (k : KIdx) (s : State) : Host.Outcome State Fault Refusal := .next (kAlu .ior k s)

/-- EOR (Table 11.2). -/
def execKEor (k : KIdx) (s : State) : Host.Outcome State Fault Refusal := .next (kAlu .eor k s)

/-- LSL (Table 11.2). -/
def execKLsl (k : KIdx) (s : State) : Host.Outcome State Fault Refusal := .next (kAlu .lsl k s)

/-- LSR (Table 11.2). -/
def execKLsr (k : KIdx) (s : State) : Host.Outcome State Fault Refusal := .next (kAlu .lsr k s)

/-- ASR (Table 11.2). -/
def execKAsr (k : KIdx) (s : State) : Host.Outcome State Fault Refusal := .next (kAlu .asr k s)

/-- CLT (Table 11.2). -/
def execKClt (k : KIdx) (s : State) : Host.Outcome State Fault Refusal := .next (kAlu .clt k s)

/-- CLTU (Table 11.2). -/
def execKCltu (k : KIdx) (s : State) : Host.Outcome State Fault Refusal := .next (kAlu .cltu k s)

/-- MLO (Table 11.2). -/
def execKMlo (k : KIdx) (s : State) : Host.Outcome State Fault Refusal := .next (kAlu .mlo k s)

/-- MHI (Table 11.2). -/
def execKMhi (k : KIdx) (s : State) : Host.Outcome State Fault Refusal := .next (kAlu .mhi k s)

/-- MHIU (Table 11.2). -/
def execKMhiu (k : KIdx) (s : State) : Host.Outcome State Fault Refusal := .next (kAlu .mhiu k s)

/-- MIN (Table 11.2). -/
def execKMin (k : KIdx) (s : State) : Host.Outcome State Fault Refusal := .next (kAlu .min k s)

/-- MAX (Table 11.2). -/
def execKMax (k : KIdx) (s : State) : Host.Outcome State Fault Refusal := .next (kAlu .max k s)

/-- ADDK (Table 11.2). -/
def execKAddk (k : KIdx) (s : State) : Host.Outcome State Fault Refusal := .next (kAluk .addk k s)

/-- ANDK (Table 11.2). -/
def execKAndk (k : KIdx) (s : State) : Host.Outcome State Fault Refusal := .next (kAluk .andk k s)

/-- IORK (Table 11.2). -/
def execKIork (k : KIdx) (s : State) : Host.Outcome State Fault Refusal := .next (kAluk .iork k s)

/-- EORK (Table 11.2). -/
def execKEork (k : KIdx) (s : State) : Host.Outcome State Fault Refusal := .next (kAluk .eork k s)

/-- CLTK (Table 11.2). -/
def execKCltk (k : KIdx) (s : State) : Host.Outcome State Fault Refusal := .next (kAluk .cltk k s)

/-- CLTUK (Table 11.2). -/
def execKCltuk (k : KIdx) (s : State) : Host.Outcome State Fault Refusal := .next (kAluk .cltuk k s)

/-- LSLK (Table 11.2). -/
def execKLslk (k : KIdx) (s : State) : Host.Outcome State Fault Refusal := .next (kAluk .lslk k s)

/-- LSRK (Table 11.2). -/
def execKLsrk (k : KIdx) (s : State) : Host.Outcome State Fault Refusal := .next (kAluk .lsrk k s)

/-- ASRK (Table 11.2). -/
def execKAsrk (k : KIdx) (s : State) : Host.Outcome State Fault Refusal := .next (kAluk .asrk k s)

/-- KHI (Table 11.2). -/
def execKKhi (k : KIdx) (s : State) : Host.Outcome State Fault Refusal := .next (kRun k (fun i => match i with | .khi rd v => some (khiStep k rd v) | _ => none) s)

/-- GO (Table 11.2). -/
def execKGo (k : KIdx) (s : State) : Host.Outcome State Fault Refusal := .next (kRun k (fun i => match i with | .go false d => some (goStep k false d) | _ => none) s)

/-- CALL (Table 11.2). -/
def execKCall (k : KIdx) (s : State) : Host.Outcome State Fault Refusal := .next (kRun k (fun i => match i with | .go true d => some (goStep k true d) | _ => none) s)

/-- GOR (Table 11.2). -/
def execKGor (k : KIdx) (s : State) : Host.Outcome State Fault Refusal := .next (kRun k (fun i => match i with | .gor ra v => some (gorStep k false ra v) | _ => none) s)

/-- CALLR (Table 11.2). -/
def execKCallr (k : KIdx) (s : State) : Host.Outcome State Fault Refusal := .next (kRun k (fun i => match i with | .callr ra v => some (gorStep k true ra v) | _ => none) s)

/-- BR.EQ (Table 11.2). -/
def execKBrEq (k : KIdx) (s : State) : Host.Outcome State Fault Refusal := .next (kBr .eq k s)

/-- BR.NE (Table 11.2). -/
def execKBrNe (k : KIdx) (s : State) : Host.Outcome State Fault Refusal := .next (kBr .ne k s)

/-- BR.LT (Table 11.2). -/
def execKBrLt (k : KIdx) (s : State) : Host.Outcome State Fault Refusal := .next (kBr .lt k s)

/-- BR.GE (Table 11.2). -/
def execKBrGe (k : KIdx) (s : State) : Host.Outcome State Fault Refusal := .next (kBr .ge k s)

/-- BR.LTU (Table 11.2). -/
def execKBrLtu (k : KIdx) (s : State) : Host.Outcome State Fault Refusal := .next (kBr .ltu k s)

/-- BR.GEU (Table 11.2). -/
def execKBrGeu (k : KIdx) (s : State) : Host.Outcome State Fault Refusal := .next (kBr .geu k s)

/-- LD.W (R277, Table 11.2). -/
def execKLdW (k : KIdx) (s : State) : Host.Outcome State Fault Refusal := .next (kLd .w k s)

/-- LD.H (R277, Table 11.2). -/
def execKLdH (k : KIdx) (s : State) : Host.Outcome State Fault Refusal := .next (kLd .h k s)

/-- LD.HU (R277, Table 11.2). -/
def execKLdHu (k : KIdx) (s : State) : Host.Outcome State Fault Refusal := .next (kLd .hu k s)

/-- LD.B (R277, Table 11.2). -/
def execKLdB (k : KIdx) (s : State) : Host.Outcome State Fault Refusal := .next (kLd .b k s)

/-- LD.BU (R277, Table 11.2). -/
def execKLdBu (k : KIdx) (s : State) : Host.Outcome State Fault Refusal := .next (kLd .bu k s)

/-- ST.W (R278, Table 11.2). -/
def execKStW (k : KIdx) (s : State) : Host.Outcome State Fault Refusal := .next (kSt .w k s)

/-- ST.H (R278, Table 11.2). -/
def execKStH (k : KIdx) (s : State) : Host.Outcome State Fault Refusal := .next (kSt .h k s)

/-- ST.B (R278, Table 11.2). -/
def execKStB (k : KIdx) (s : State) : Host.Outcome State Fault Refusal := .next (kSt .b k s)

/-- SWAP (R281). -/
def execKSwap (k : KIdx) (s : State) : Host.Outcome State Fault Refusal := .next (kRun k (fun i => match i with | .swap rd ra rb => some (atomicStep k rd ra rb false) | _ => none) s)

/-- CAS (R281). -/
def execKCas (k : KIdx) (s : State) : Host.Outcome State Fault Refusal := .next (kRun k (fun i => match i with | .cas rd ra rb => some (atomicStep k rd ra rb true) | _ => none) s)

/-- FENCE (R281). -/
def execKFence (k : KIdx) (s : State) : Host.Outcome State Fault Refusal := .next (kRun k (fun i => match i with | .fence => some (fenceStep k) | _ => none) s)

/-- SPR RD (R273). -/
def execKSprRd (k : KIdx) (s : State) : Host.Outcome State Fault Refusal := .next (kSpr .rd k s)

/-- SPR WR (R273). -/
def execKSprWr (k : KIdx) (s : State) : Host.Outcome State Fault Refusal := .next (kSpr .wr k s)

/-- SPR SET (R273). -/
def execKSprSet (k : KIdx) (s : State) : Host.Outcome State Fault Refusal := .next (kSpr .set k s)

/-- SPR CLR (R273). -/
def execKSprClr (k : KIdx) (s : State) : Host.Outcome State Fault Refusal := .next (kSpr .clr k s)

/-- POST (R288). -/
def execKPost (k : KIdx) (s : State) : Host.Outcome State Fault Refusal := .next (kRun k (fun i => match i with | .post ra => some (postStep k ra) | _ => none) s)

/-- WAIT (R286). -/
def execKWait (k : KIdx) (s : State) : Host.Outcome State Fault Refusal := .next (kRun k (fun i => match i with | .wait rd ra => some (waitStep k rd ra) | _ => none) s)

/-- RTT (R274). -/
def execKRtt (k : KIdx) (s : State) : Host.Outcome State Fault Refusal := .next (kRun k (fun i => match i with | .rtt => some (rttStep k) | _ => none) s)

/-- BRK (R293, Table 11.3). -/
def execKBrk (k : KIdx) (s : State) : Host.Outcome State Fault Refusal := .next (kRun k (fun i => match i with | .brk => some (brkStep k) | _ => none) s)

/-- REGISTER_WRITE (R10): a host-bus access, or a write of an internal register by a requester as it is performed; one that
waits has not been performed yet (R76, R263, log entry 88). An internal write that does not end with DATA changes nothing at
its target; it is counted and marked as its requester's accesses are (R25, R26, R83). -/
def execRegisterWrite (a : RegAccess) (s : State) : Host.Outcome State Fault Refusal :=
  .next (match a with
    | .host h => hostAccess h s
    | .internal r addr v =>
      let q : Ask := .write 4 v false
      if accessWaits s addr.toNat true then s
      else
        let e := ending s r addr.toNat q
        let t := accessEffect r addr.toNat q s
        match r with
        | .window w => windowMark w addr e t
        | .kestrel k =>
          match e with
          | .data => t
          | .absent => countAbsent addr t
          | .berr => takeTrap k (3, addr) t
        | _ => t)

/-! ## Events of a kestrel -/

/-- LOAD_REPLY (R275-R279). -/
def execLoadReply (k : KIdx) (s : State) : Host.Outcome State Fault Refusal := .next (loadReply k s)

/-- STORE_REPLY (R275, R278). -/
def execStoreReply (k : KIdx) (s : State) : Host.Outcome State Fault Refusal := .next (storeReply k s)

/-- STORE_BUFFER_ROOM (R278). -/
def execStoreBufferRoom (k : KIdx) (s : State) : Host.Outcome State Fault Refusal := .next (bufferRoom k s)

/-- ATOMIC_REPLY (R276, R281). -/
def execAtomicReply (k : KIdx) (s : State) : Host.Outcome State Fault Refusal := .next (atomicReply k s)

/-- FENCE_DONE (R281). -/
def execFenceDone (k : KIdx) (s : State) : Host.Outcome State Fault Refusal := .next (fenceDone k s)

/-- WAIT_DONE (R286). -/
def execWaitDone (k : KIdx) (s : State) : Host.Outcome State Fault Refusal := .next (waitReady k s)

/-- TIME_TARGET_REACHED (R284, R45): CTIME comes to the target while it runs. -/
def execTimeTargetReached (k : KIdx) (s : State) : Host.Outcome State Fault Refusal :=
  .next (if chainRuns s then reachTime (kes s k).target s else s)

/-- ILLEGAL_INSTRUCTION (R272, R274): the word at PC decodes to nothing; a poisoned word traps as every fetch of one
does. -/
def execIllegalInstruction (k : KIdx) (s : State) : Host.Outcome State Fault Refusal :=
  let w := fetched s k
  let t := memReadEffect (kSrc k) (fetchAddr s k) s
  .next (if kIssues s k ∧ kDecode w.1 = none then
    (if w.2 then trap k 5 (kes s k).pcWord t else trap k 1 w.1 t) else s)

end Sys2Proof.Machine
end

