-- ==== Sys2Proof/Machine/Mgmt.lean ====
section
/-! DEFINITION. The management functions (R383-R387, R390, R391, R395) and the host's content and log commands. -/

namespace Sys2Proof.Machine

/-! ## The command at the head of the queue (Table 16.1) -/

/-- Byte `i` of a command's payload; its cell header stands before it. -/
def cmdByte (c : List Byte) (i : Nat) : Nat := (c.getD (4 + i) 0).toNat

/-- `n` payload bytes from `i`, big-endian. -/
def cmdNum (c : List Byte) (i n : Nat) : Nat := beNat (slice c (4 + i) n)

/-- FN of a command. -/
def cmdFn (c : List Byte) : Nat := cmdByte c 0

/-- MSEQ of a command. -/
def cmdSeq (c : List Byte) : Word := BitVec.ofNat 32 (cmdNum c 2 4)

/-- ADDR of a command, which a 32-bit access takes as a word address (R120, R386). -/
def cmdAddr (c : List Byte) : Word := BitVec.ofNat 32 (cmdNum c 8 4)

/-- DATA of a command. -/
def cmdData (c : List Byte) : Word := BitVec.ofNat 32 (cmdNum c 12 4)

/-- The function is checked for MAC and MSEQ (Table 16.2). -/
def authFn (m : Mgt) (fn : Nat) : Bool := fn ≠ 0 ∧ (fn ≠ 1 ∨ bit m.cfg 0)

/-- The MAC of a command (Table 16.1). -/
def cmdMacOk (m : Mgt) (c : List Byte) : Bool :=
  aesCmac m.mkey (c.take 52) == BitVec.ofNat 128 (cmdNum c 48 16)

/-- The first check that fails, as a result code (R384). -/
def cmdCheck (m : Mgt) (c : List Byte) : Option Nat :=
  if 9 ≤ cmdFn c then some 3
  else if !authFn m (cmdFn c) then none
  else if Config.mauth ∧ m.mkey = 0 then some 4
  else if Config.mauth ∧ !cmdMacOk m c then some 1
  else if (cmdSeq c).toNat ≤ m.mseq.toNat then some 2
  else none

/-! ## What the functions do: the state, the result and RDATA -/

/-- What a READ changes at its target (R386): what a read does beside clearing an RC field, which SNS_FIFO is too (Table 15.4,
log entry 52). -/
def blockPeekEffect (a : Nat) (s : State) : State :=
  let o := a % 0x10000
  match a / 0x10000 with
  | 0x0 => if o = 0x200 then sysReadEffect o s else s
  | 0x2 => if o % 0x8000 = 0x4 then chxReadEffect (if o < 0x8000 then 0 else 1) 4 s else s
  | 0x3 => if o = 0x0 then chnReadEffect o s else s
  | 0xA => gptReadEffect o s
  | _ => s

/-- What a READ changes: a memory word is read as any read of it. -/
def peekEffect (a : Nat) (s : State) : State :=
  if (memOf a).isSome || inRoost a then mapReadEffect 8 a s else blockPeekEffect a s

/-- A result code of an access that did not end with DATA. -/
def Ending.result : Ending → Nat
  | .data => 0 | .absent => 6 | .berr => 7

/-- READ (R386): a poisoned word sets RPOIS. -/
def mgmtReadFn (c : List Byte) (s : State) : State × Nat × Word :=
  let a := (cmdAddr c).toNat / 4 * 4
  match ending s .mgmt a .read with
  | .data =>
    let v := mapRead s a
    let t := peekEffect a s
    (if v.2 then { t with mgt := { t.mgt with rpois := true } } else t, 0, v.1)
  | e => (s, e.result, 0)

/-- WRITE (R386). -/
def mgmtWriteFn (c : List Byte) (s : State) : State × Nat × Word :=
  let a := (cmdAddr c).toNat / 4 * 4
  let q : Ask := .write 4 (cmdData c) false
  (accessEffect .mgmt a q s, (ending s .mgmt a q).result, 0)

/-- MODE (R39, R383): RDATA is HB_MODE after the submission. -/
def mgmtModeFn (c : List Byte) (s : State) : State × Nat × Word :=
  let t := mgmtRequest (BitVec.ofNat 3 (cmdByte c 1)) s
  (t, 0, (modeRead t.mode).setWidth 32)

/-- A gate command would be refused (R92). -/
def gateRefuses (s : State) (c : GateCmd) (r : Requester) (n : Fin 67) : Bool :=
  c != .nop && (gateRule s c r n || gateMode s r n || s.gate.busy)

/-- GATE (R91, R383). -/
def mgmtGateFn (c : List Byte) (s : State) : State × Nat × Word :=
  let g := GateCmd.ofCode (cmdByte c 1 % 8)
  let pd := low 7 (cmdAddr c)
  let t := gateCommand .mgmt g pd s
  (t, if gateRefuses s g .mgmt (gateDomain pd) then 5 else 0, gatestat t.gate)

/-- COMMIT (R262, R383). -/
def mgmtCommitFn (s : State) : State × Nat × Word :=
  let t := commit s
  (t, 0, epochRead t.epoch)

/-- KEYSET (R383, R384, R390): a session key is set as by a DIS KEY write, which ends ABSENT while PD12 is not ON. -/
def mgmtKeysetFn (c : List Byte) (s : State) : State × Nat × Word :=
  let i := cmdByte c 1
  let k := aesDecrypt s.mgt.mkey (slice c 20 16)
  if 16 < i then (s, 5, 0)
  else if i = 16 then ({ s with mgt := setMkey k s.mgt }, 0, 0)
  else if pdOn s 12 then (setKey i k s, 0, 0)
  else (s, 6, 0)

/-- CONTENT (R383, R384, R393-R395): RDATA is MGT_CSTAT. -/
def mgmtContentFn (c : List Byte) (s : State) : State × Nat × Word :=
  let t := contentOp (cmdByte c 1) (cmdAddr c) (cmdData c).toNat s
  (t.1, t.2, mgtRead t.1 0x40)

/-- LOGCLR (R391). -/
def mgmtLogclrFn (s : State) : State × Nat × Word := ({ s with mgt := clearLog s.mgt }, 0, 0)

/-! ## Evaluation (R384, R387) -/

/-- The response fields after a command with its result and RDATA (R387). -/
def Mgt.respond (m : Mgt) (c : List Byte) (res : Nat) (rdata : Word) : Mgt :=
  { m with rseq := cmdSeq c, rfn := BitVec.ofNat 8 (cmdFn c), rres := BitVec.ofNat 8 res, rdata := rdata }

/-- MGMT is raised for every evaluated function but NOP and READ (R387). -/
def mgmtRaise (fn : Nat) (s : State) : State := if 2 ≤ fn then raise .mgmt s else s

/-- The command is over. -/
def mgmtEnd (c : List Byte) (r : State × Nat × Word) : State :=
  mgmtRaise (cmdFn c) { r.1 with mgt := r.1.mgt.respond c r.2.1 r.2.2 }

/-- A command of the queue is evaluated as R384 says, `f` being its function's action: an auth function stores MSEQ
first. -/
def mgmtEval (f : List Byte → State → State × Nat × Word) (c : List Byte) (s : State) : State :=
  match cmdCheck s.mgt c with
  | some r => mgmtEnd c (s, r, 0)
  | none =>
    let t := if authFn s.mgt (cmdFn c) then { s with mgt := { s.mgt with mseq := cmdSeq c } } else s
    mgmtEnd c (f c t)

/-- The command at the head of the queue leaves it and is evaluated when its FN and SUB are of this row (R387). -/
def mgmtRow (row : List Byte → Bool) (f : List Byte → State → State × Nat × Word) (s : State) : State :=
  match s.mgt.queue with
  | [] => s
  | c :: rest => if chainRuns s && row c then mgmtEval f c { s with mgt := { s.mgt with queue := rest } } else s

/-- The row of function `fn`. -/
def mgmtFnRow (fn : Nat) (f : List Byte → State → State × Nat × Word) (s : State) : State :=
  mgmtRow (fun c => cmdFn c == fn) f s

/-- The access of command `c` waits (R76, R263); one that a check fails makes no access. -/
def cmdWaits (s : State) (c : List Byte) : Bool :=
  (cmdCheck s.mgt c).isNone && accessWaits s ((cmdAddr c).toNat / 4 * 4) (cmdFn c == 2)

/-- The row of READ (1) or WRITE (2): the command stays at the head of the queue while its access waits. -/
def mgmtAccessRow (fn : Nat) (f : List Byte → State → State × Nat × Word) (s : State) : State :=
  if s.mgt.queue.head?.any fun c => cmdFn c == fn && cmdWaits s c then s else mgmtFnRow fn f s

/-- The row of CONTENT sub-operation `sub`; the unlisted SUBs are refused by the first row. -/
def contentRow (sub : Nat) (host : Bool) (s : State) : State :=
  if host then (if hostUp s then writeCcmd sub s else s)
  else mgmtRow (fun c => cmdFn c == 7 && (cmdByte c 1 == sub || (sub == 1 && (cmdByte c 1 == 0 || decide (4 < cmdByte c 1)))))
    mgmtContentFn s

/-! ## The commands -/

/-- MGMT_NOP (R383); a reserved FN is evaluated here too, with BADFN (R384). -/
def execMgmtNop (s : State) : Host.Outcome State Fault Refusal :=
  .next (mgmtRow (fun c => cmdFn c == 0 || decide (9 ≤ cmdFn c)) (fun _ s => (s, 0, 0)) s)

/-- MGMT_READ (R386). -/
def execMgmtRead (s : State) : Host.Outcome State Fault Refusal := .next (mgmtAccessRow 1 mgmtReadFn s)

/-- MGMT_WRITE (R386). -/
def execMgmtWrite (s : State) : Host.Outcome State Fault Refusal := .next (mgmtAccessRow 2 mgmtWriteFn s)

/-- MGMT_MODE (R383). -/
def execMgmtMode (s : State) : Host.Outcome State Fault Refusal := .next (mgmtFnRow 3 mgmtModeFn s)

/-- MGMT_GATE (R383). -/
def execMgmtGate (s : State) : Host.Outcome State Fault Refusal := .next (mgmtFnRow 4 mgmtGateFn s)

/-- MGMT_COMMIT (R383). -/
def execMgmtCommit (s : State) : Host.Outcome State Fault Refusal := .next (mgmtFnRow 5 (fun _ => mgmtCommitFn) s)

/-- MGMT_KEYSET (R390). -/
def execMgmtKeyset (s : State) : Host.Outcome State Fault Refusal := .next (mgmtFnRow 6 mgmtKeysetFn s)

/-- CONTENT_BEGIN (R393). -/
def execContentBegin (host : Bool) (s : State) : Host.Outcome State Fault Refusal := .next (contentRow 1 host s)

/-- CONTENT_CHECK (R394). -/
def execContentCheck (host : Bool) (s : State) : Host.Outcome State Fault Refusal := .next (contentRow 2 host s)

/-- CONTENT_ACTIVATE (R395). -/
def execContentActivate (host : Bool) (s : State) : Host.Outcome State Fault Refusal := .next (contentRow 3 host s)

/-- CONTENT_ABORT (R395). -/
def execContentAbort (host : Bool) (s : State) : Host.Outcome State Fault Refusal := .next (contentRow 4 host s)

/-- FAULT_LOG_CLEAR (R391): a write of MGT_FLOGCLR, or LOGCLR. -/
def execFaultLogClear (host : Bool) (s : State) : Host.Outcome State Fault Refusal :=
  .next (if host then (if hostUp s then { s with mgt := clearLog s.mgt } else s) else mgmtFnRow 8 (fun _ => mgmtLogclrFn) s)

end Sys2Proof.Machine
end

