-- ==== Sys2Proof/Machine/Jtag.lean ====
section
/-! DEFINITION. The JTAG port (R166, R432, R433) and the end of an access across DLINK (R18). -/

namespace Sys2Proof.Machine

/-! ## Instructions (Table 17.15) -/

/-- The TAP's instruction becomes `i`; an access in progress goes on. -/
def setIr (i : JtagIr) (s : State) : State := { s with jtag := { s.jtag with ir := i } }

/-- The instruction of a 5-bit code (Table 17.15). -/
def JtagIr.ofCode : Nat → JtagIr
  | 0 => .extest | 1 => .sample | 2 => .idcode | 3 => .extestPulse | 4 => .extestTrain | 5 => .highz | 6 => .clamp
  | 8 => .kdebug | _ => .bypass

/-- EXTEST (R432). -/
def execExtest (s : State) : Host.Outcome State Fault Refusal := .next (setIr .extest s)

/-- SAMPLE/PRELOAD (R432). -/
def execSamplePreload (s : State) : Host.Outcome State Fault Refusal := .next (setIr .sample s)

/-- IDCODE (R432). -/
def execIdcode (s : State) : Host.Outcome State Fault Refusal := .next (setIr .idcode s)

/-- EXTEST_PULSE (R166, R432). -/
def execExtestPulse (s : State) : Host.Outcome State Fault Refusal := .next (setIr .extestPulse s)

/-- EXTEST_TRAIN (R166, R432). -/
def execExtestTrain (s : State) : Host.Outcome State Fault Refusal := .next (setIr .extestTrain s)

/-- HIGHZ (R432). -/
def execHighz (s : State) : Host.Outcome State Fault Refusal := .next (setIr .highz s)

/-- CLAMP (R432). -/
def execClamp (s : State) : Host.Outcome State Fault Refusal := .next (setIr .clamp s)

/-- KDEBUG (R433). -/
def execKdebug (s : State) : Host.Outcome State Fault Refusal := .next (setIr .kdebug s)

/-- BYPASS (R432). -/
def execBypass (s : State) : Host.Outcome State Fault Refusal := .next (setIr .bypass s)

/-! ## Data registers -/

/-- What Capture-DR loads into the data register of the present instruction (R432, R433): none for the boundary register,
whose cells the spec does not order. -/
def Jtag.capture (j : Jtag) : Option Nat :=
  match j.ir with
  | .idcode => some 0x151649CB
  | .kdebug => some (j.data.toNat + 2 ^ 32 * j.absent.toNat + 2 ^ 33 * j.acc.isSome.toNat)
  | .bypass | .highz | .clamp => some 0
  | _ => none

/-- KDEBUG_UPDATE (R433): one 32-bit access, or nothing while BUSY. -/
def execKdebugUpdate (dr : BitVec 65) (s : State) : Host.Outcome State Fault Refusal :=
  let addr : Word := (dr >>> 32).setWidth 32
  let write : Option Word := if bit dr 64 then some (dr.setWidth 32) else none
  let adm := admission s .jtag (addr.toNat / 4 * 4) write.isSome
  .next (if s.jtag.ir = .kdebug ∧ s.jtag.acc.isNone then
    { s with jtag := { s.jtag with acc := some { addr := addr, data := write, adm := adm } } } else s)

/-- The KDEBUG access has ended with data or ABSENT. -/
def kdebugDone (data : Word) (absent : Bool) (s : State) : State :=
  { s with jtag := { s.jtag with acc := none, data := data, absent := absent } }

/-- The access in progress ends (R433): with JTAGDBG = 0 it is not performed and ends ABSENT. -/
def kdebugEnd (s : State) : State :=
  match s.jtag.acc with
  | none => s
  | some x =>
    let a := x.addr.toNat / 4 * 4
    if !Config.jtagdbg then kdebugDone 0 true s
    else if accessWaits s a x.data.isSome then s
    else
      let r := replyOf x.adm a (winAsk x.data) s
      kdebugDone r.data (r.ending != .data) (effectOf x.adm .jtag a (winAsk x.data) s)

/-- KDEBUG_ACCESS_END (R433). -/
def execKdebugAccessEnd (s : State) : Host.Outcome State Fault Refusal := .next (kdebugEnd s)

/-! ## DLINK (R18) -/

/-- The address lies in the DRV block, behind DLINK (Table 1.3). -/
def inDrv (a : Nat) : Bool := a / 0x10000 == 0x15

/-- The oldest request of a kestrel on the DRV crossing ends: a store that has issued, else the load it waits for (R24). -/
def kestrelDrvEnd (k : KIdx) (s : State) : State :=
  let first := match (kes s k).crossed ++ (kes s k).sbuf with
    | e :: _ => e.adm.isSome && inDrv e.addr
    | [] => false
  if first then storeReply k s
  else match (kes s k).wait with
    | .load _ a _ _ (some _) => if inDrv a.toNat then loadReply k s else s
    | _ => s

/-- DRV_ACCESS_END (R18): the requester's access in progress across DLINK ends with data or ABSENT. -/
def execDrvAccessEnd (r : Requester) (s : State) : Host.Outcome State Fault Refusal :=
  .next (match r with
    | .window w => if (win s w).acc.any fun x => inDrv x.addr.toNat then windowReply w s else s
    | .kestrel k => kestrelDrvEnd k s
    | .jtag => if s.jtag.acc.any fun x => inDrv x.addr.toNat then kdebugEnd s else s
    | .mgmt | .mode => s)

end Sys2Proof.Machine
end

