-- ==== Sys2Proof/Machine/Dispatch.lean ====
section
/-! DEFINITION. One arm for each row of spec/opcode_table.json: what a command does to everything but the queue. -/

namespace Sys2Proof.Machine

/-- The effect of a command on everything but the queue. -/
def exec (i : Instr) (s : State) : Host.Outcome State Fault Refusal :=
  match i with
  | .registerWrite a => Sys2Proof.Machine.execRegisterWrite a s
  | .powerOnReset => Sys2Proof.Machine.execPowerOnReset s
  | .powerGood => Sys2Proof.Machine.execPowerGood s
  | .pinReset lowNs => Sys2Proof.Machine.execPinReset lowNs s
  | .softReset keep => Sys2Proof.Machine.execSoftReset keep s
  | .wakeHcs => Sys2Proof.Machine.execWakeHcs s
  | .wakeGp0 => Sys2Proof.Machine.execWakeGp0 s
  | .wakePowerGood => Sys2Proof.Machine.execWakePowerGood s
  | .fuseDone => Sys2Proof.Machine.execFuseDone s
  | .clockStepDone => Sys2Proof.Machine.execClockStepDone s
  | .clockStepFail => Sys2Proof.Machine.execClockStepFail s
  | .memtestDone banks kests addr => Sys2Proof.Machine.execMemtestDone banks kests addr s
  | .roostchkDone => Sys2Proof.Machine.execRoostchkDone s
  | .ringwaitEnd => Sys2Proof.Machine.execRingwaitEnd s
  | .requestDormant => Sys2Proof.Machine.execRequestDormant s
  | .requestBoot => Sys2Proof.Machine.execRequestBoot s
  | .requestMuster => Sys2Proof.Machine.execRequestMuster s
  | .requestRelay => Sys2Proof.Machine.execRequestRelay s
  | .requestShow => Sys2Proof.Machine.execRequestShow s
  | .requestSolo => Sys2Proof.Machine.execRequestSolo s
  | .requestService => Sys2Proof.Machine.execRequestService s
  | .requestRoost => Sys2Proof.Machine.execRequestRoost s
  | .modeRequestEval => Sys2Proof.Machine.execModeRequestEval s
  | .modeTransitionDone => Sys2Proof.Machine.execModeTransitionDone s
  | .showCondition => Sys2Proof.Machine.execShowCondition s
  | .sag => Sys2Proof.Machine.execSag s
  | .roostCaptureDone => Sys2Proof.Machine.execRoostCaptureDone s
  | .saveEnd powerGood rstLow => Sys2Proof.Machine.execSaveEnd powerGood rstLow s
  | .dlinkKeepalive => Sys2Proof.Machine.execDlinkKeepalive s
  | .dlinkLoss => Sys2Proof.Machine.execDlinkLoss s
  | .dlinkResume => Sys2Proof.Machine.execDlinkResume s
  | .dlinkReport => Sys2Proof.Machine.execDlinkReport s
  | .tempReport t => Sys2Proof.Machine.execTempReport t s
  | .drvAccessEnd r => Sys2Proof.Machine.execDrvAccessEnd r s
  | .xoqWindow count => Sys2Proof.Machine.execXoqWindow count s
  | .requal => Sys2Proof.Machine.execRequal s
  | .clockDead c => Sys2Proof.Machine.execClockDead c s
  | .clockLive c => Sys2Proof.Machine.execClockLive c s
  | .iclkWrite n v => Sys2Proof.Machine.execIclkWrite n v s
  | .clockDisengage n => Sys2Proof.Machine.execClockDisengage n s
  | .clockForced mux => Sys2Proof.Machine.execClockForced mux s
  | .clockEngage n => Sys2Proof.Machine.execClockEngage n s
  | .clockRampStep n => Sys2Proof.Machine.execClockRampStep n s
  | .refSelect sel => Sys2Proof.Machine.execRefSelect sel s
  | .refSwitchEngage forced => Sys2Proof.Machine.execRefSwitchEngage forced s
  | .pllLock p => Sys2Proof.Machine.execPllLock p s
  | .peripheralEnable v => Sys2Proof.Machine.execPeripheralEnable v s
  | .gateNop r pd => Sys2Proof.Machine.execGateNop r pd s
  | .gateDown r pd => Sys2Proof.Machine.execGateDown r pd s
  | .gateUp r pd => Sys2Proof.Machine.execGateUp r pd s
  | .gateReset r pd => Sys2Proof.Machine.execGateReset r pd s
  | .gateUpdate r pd => Sys2Proof.Machine.execGateUpdate r pd s
  | .gateReopen r pd => Sys2Proof.Machine.execGateReopen r pd s
  | .gateDrainEnd => Sys2Proof.Machine.execGateDrainEnd s
  | .gateOffDone => Sys2Proof.Machine.execGateOffDone s
  | .gatePowerupDone => Sys2Proof.Machine.execGatePowerupDone s
  | .gateResetRelease => Sys2Proof.Machine.execGateResetRelease s
  | .updateTimeout => Sys2Proof.Machine.execUpdateTimeout s
  | .aonHostAccess a => Sys2Proof.Machine.execAonHostAccess a s
  | .windowDataLoWrite w d => Sys2Proof.Machine.execWindowDataLoWrite w d s
  | .windowDataHiWrite w d => Sys2Proof.Machine.execWindowDataHiWrite w d s
  | .windowDataLoRead w => Sys2Proof.Machine.execWindowDataLoRead w s
  | .windowReply w => Sys2Proof.Machine.execWindowReply w s
  | .windowTimeout w => Sys2Proof.Machine.execWindowTimeout w s
  | .eventPostHalf d => Sys2Proof.Machine.execEventPostHalf d s
  | .eventStageClear => Sys2Proof.Machine.execEventStageClear s
  | .eventHandover => Sys2Proof.Machine.execEventHandover s
  | .doorbellRing m => Sys2Proof.Machine.execDoorbellRing m s
  | .owlKick kick => Sys2Proof.Machine.execOwlKick kick s
  | .owlConfig v => Sys2Proof.Machine.execOwlConfig v s
  | .owlExpiry => Sys2Proof.Machine.execOwlExpiry s
  | .owlHrdyExpiry => Sys2Proof.Machine.execOwlHrdyExpiry s
  | .roostSaveRequest => Sys2Proof.Machine.execRoostSaveRequest s
  | .lookRelease => Sys2Proof.Machine.execLookRelease s
  | .hostHood v => Sys2Proof.Machine.execHostHood v s
  | .epochCommit => Sys2Proof.Machine.execEpochCommit s
  | .epochSnapshotDone => Sys2Proof.Machine.execEpochSnapshotDone s
  | .epochMigrationDone => Sys2Proof.Machine.execEpochMigrationDone s
  | .laneLos p l => Sys2Proof.Machine.execLaneLos p l s
  | .laneCdrLock p l rate hopDly => Sys2Proof.Machine.execLaneCdrLock p l rate hopDly s
  | .laneLockLoss p l => Sys2Proof.Machine.execLaneLockLoss p l s
  | .laneConverged p l deskewed => Sys2Proof.Machine.execLaneConverged p l deskewed s
  | .laneRateTimeout p l => Sys2Proof.Machine.execLaneRateTimeout p l s
  | .moduleRemoved p => Sys2Proof.Machine.execModuleRemoved p s
  | .forceWrap p on => Sys2Proof.Machine.execForceWrap p on s
  | .turnEngage p => Sys2Proof.Machine.execTurnEngage p s
  | .portArmed p => Sys2Proof.Machine.execPortArmed p s
  | .portUp p => Sys2Proof.Machine.execPortUp p s
  | .msbGo p v => Sys2Proof.Machine.execMsbGo p v s
  | .msbDone p nack rdata => Sys2Proof.Machine.execMsbDone p nack rdata s
  | .msbTimeout p => Sys2Proof.Machine.execMsbTimeout p s
  | .frameReceived f => Sys2Proof.Machine.execFrameReceived f s
  | .frameMissing => Sys2Proof.Machine.execFrameMissing s
  | .frameBoundary => Sys2Proof.Machine.execFrameBoundary s
  | .tickBoundary => Sys2Proof.Machine.execTickBoundary s
  | .headFrameLaunch => Sys2Proof.Machine.execHeadFrameLaunch s
  | .headProbe => Sys2Proof.Machine.execHeadProbe s
  | .headRemuster => Sys2Proof.Machine.execHeadRemuster s
  | .headCandidateEnable v => Sys2Proof.Machine.execHeadCandidateEnable v s
  | .headCellQueue ring => Sys2Proof.Machine.execHeadCellQueue ring s
  | .ctsetLoad hi => Sys2Proof.Machine.execCtsetLoad hi s
  | .genlockEdge rising t => Sys2Proof.Machine.execGenlockEdge rising t s
  | .genlockLoss => Sys2Proof.Machine.execGenlockLoss s
  | .uplinkCell ring u c => Sys2Proof.Machine.execUplinkCell ring u c s
  | .streamCell c => Sys2Proof.Machine.execStreamCell c s
  | .strikeCell c => Sys2Proof.Machine.execStrikeCell c s
  | .paramCell c => Sys2Proof.Machine.execParamCell c s
  | .rangeAssign c => Sys2Proof.Machine.execRangeAssign c s
  | .eventAccept src ev => Sys2Proof.Machine.execEventAccept src ev s
  | .strike n ev => Sys2Proof.Machine.execStrike n ev s
  | .eventRelease n ev => Sys2Proof.Machine.execEventRelease n ev s
  | .kill n ev => Sys2Proof.Machine.execKill n ev s
  | .killall n ev => Sys2Proof.Machine.execKillall n ev s
  | .eventNop n ev => Sys2Proof.Machine.execEventNop n ev s
  | .claim c => Sys2Proof.Machine.execClaim c s
  | .claimRelease c => Sys2Proof.Machine.execClaimRelease c s
  | .sessionOpen n => Sys2Proof.Machine.execSessionOpen n s
  | .sessionFree n => Sys2Proof.Machine.execSessionFree n s
  | .sessionKeyWrite n w v => Sys2Proof.Machine.execSessionKeyWrite n w v s
  | .patchReadDone => Sys2Proof.Machine.execPatchReadDone s
  | .envSegmentEnd v e => Sys2Proof.Machine.execEnvSegmentEnd v e s
  | .wavetableReadReply v o => Sys2Proof.Machine.execWavetableReadReply v o s
  | .fholdExpiry v => Sys2Proof.Machine.execFholdExpiry v s
  | .stoopEnd v => Sys2Proof.Machine.execStoopEnd v s
  | .voxKill m => Sys2Proof.Machine.execVoxKill m s
  | .kAdd k => Sys2Proof.Machine.execKAdd k s
  | .kSub k => Sys2Proof.Machine.execKSub k s
  | .kAnd k => Sys2Proof.Machine.execKAnd k s
  | .kIor k => Sys2Proof.Machine.execKIor k s
  | .kEor k => Sys2Proof.Machine.execKEor k s
  | .kLsl k => Sys2Proof.Machine.execKLsl k s
  | .kLsr k => Sys2Proof.Machine.execKLsr k s
  | .kAsr k => Sys2Proof.Machine.execKAsr k s
  | .kClt k => Sys2Proof.Machine.execKClt k s
  | .kCltu k => Sys2Proof.Machine.execKCltu k s
  | .kMlo k => Sys2Proof.Machine.execKMlo k s
  | .kMhi k => Sys2Proof.Machine.execKMhi k s
  | .kMhiu k => Sys2Proof.Machine.execKMhiu k s
  | .kMin k => Sys2Proof.Machine.execKMin k s
  | .kMax k => Sys2Proof.Machine.execKMax k s
  | .kAddk k => Sys2Proof.Machine.execKAddk k s
  | .kAndk k => Sys2Proof.Machine.execKAndk k s
  | .kIork k => Sys2Proof.Machine.execKIork k s
  | .kEork k => Sys2Proof.Machine.execKEork k s
  | .kCltk k => Sys2Proof.Machine.execKCltk k s
  | .kCltuk k => Sys2Proof.Machine.execKCltuk k s
  | .kLslk k => Sys2Proof.Machine.execKLslk k s
  | .kLsrk k => Sys2Proof.Machine.execKLsrk k s
  | .kAsrk k => Sys2Proof.Machine.execKAsrk k s
  | .kKhi k => Sys2Proof.Machine.execKKhi k s
  | .kGo k => Sys2Proof.Machine.execKGo k s
  | .kCall k => Sys2Proof.Machine.execKCall k s
  | .kGor k => Sys2Proof.Machine.execKGor k s
  | .kCallr k => Sys2Proof.Machine.execKCallr k s
  | .kBrEq k => Sys2Proof.Machine.execKBrEq k s
  | .kBrNe k => Sys2Proof.Machine.execKBrNe k s
  | .kBrLt k => Sys2Proof.Machine.execKBrLt k s
  | .kBrGe k => Sys2Proof.Machine.execKBrGe k s
  | .kBrLtu k => Sys2Proof.Machine.execKBrLtu k s
  | .kBrGeu k => Sys2Proof.Machine.execKBrGeu k s
  | .kLdW k => Sys2Proof.Machine.execKLdW k s
  | .kLdH k => Sys2Proof.Machine.execKLdH k s
  | .kLdHu k => Sys2Proof.Machine.execKLdHu k s
  | .kLdB k => Sys2Proof.Machine.execKLdB k s
  | .kLdBu k => Sys2Proof.Machine.execKLdBu k s
  | .kStW k => Sys2Proof.Machine.execKStW k s
  | .kStH k => Sys2Proof.Machine.execKStH k s
  | .kStB k => Sys2Proof.Machine.execKStB k s
  | .kSwap k => Sys2Proof.Machine.execKSwap k s
  | .kCas k => Sys2Proof.Machine.execKCas k s
  | .kFence k => Sys2Proof.Machine.execKFence k s
  | .kSprRd k => Sys2Proof.Machine.execKSprRd k s
  | .kSprWr k => Sys2Proof.Machine.execKSprWr k s
  | .kSprSet k => Sys2Proof.Machine.execKSprSet k s
  | .kSprClr k => Sys2Proof.Machine.execKSprClr k s
  | .kPost k => Sys2Proof.Machine.execKPost k s
  | .kWait k => Sys2Proof.Machine.execKWait k s
  | .kRtt k => Sys2Proof.Machine.execKRtt k s
  | .kBrk k => Sys2Proof.Machine.execKBrk k s
  | .loadReply k => Sys2Proof.Machine.execLoadReply k s
  | .storeReply k => Sys2Proof.Machine.execStoreReply k s
  | .storeBufferRoom k => Sys2Proof.Machine.execStoreBufferRoom k s
  | .atomicReply k => Sys2Proof.Machine.execAtomicReply k s
  | .fenceDone k => Sys2Proof.Machine.execFenceDone k s
  | .waitDone k => Sys2Proof.Machine.execWaitDone k s
  | .timeTargetReached k => Sys2Proof.Machine.execTimeTargetReached k s
  | .kestrelStart k v => Sys2Proof.Machine.execKestrelStart k v s
  | .kestrelReset k v => Sys2Proof.Machine.execKestrelReset k v s
  | .haltRequest k => Sys2Proof.Machine.execHaltRequest k s
  | .kestrelResume k => Sys2Proof.Machine.execKestrelResume k s
  | .kestrelStep k => Sys2Proof.Machine.execKestrelStep k s
  | .breakpointHalt k => Sys2Proof.Machine.execBreakpointHalt k s
  | .mewsAccess q => Sys2Proof.Machine.execMewsAccess q s
  | .eccClearWord addr => Sys2Proof.Machine.execEccClearWord addr s
  | .scrub => Sys2Proof.Machine.execScrub s
  | .bucketLeak => Sys2Proof.Machine.execBucketLeak s
  | .flipArm v => Sys2Proof.Machine.execFlipArm v s
  | .streamLevelWrite r v => Sys2Proof.Machine.execStreamLevelWrite r v s
  | .activityTimeout n => Sys2Proof.Machine.execActivityTimeout n s
  | .missHoldExpiry => Sys2Proof.Machine.execMissHoldExpiry s
  | .missFadeEnd => Sys2Proof.Machine.execMissFadeEnd s
  | .emtWrap f => Sys2Proof.Machine.execEmtWrap f s
  | .shortTrip n => Sys2Proof.Machine.execShortTrip n s
  | .openTrip n => Sys2Proof.Machine.execOpenTrip n s
  | .hiccupExpiry n => Sys2Proof.Machine.execHiccupExpiry n s
  | .shortClear n => Sys2Proof.Machine.execShortClear n s
  | .openClear n => Sys2Proof.Machine.execOpenClear n s
  | .scanStart => Sys2Proof.Machine.execScanStart s
  | .scanChannel m => Sys2Proof.Machine.execScanChannel m s
  | .scanComplete => Sys2Proof.Machine.execScanComplete s
  | .runtimeTie n => Sys2Proof.Machine.execRuntimeTie n s
  | .tieAck hi m => Sys2Proof.Machine.execTieAck hi m s
  | .linkHoodRelease => Sys2Proof.Machine.execLinkHoodRelease s
  | .aoPeriod => Sys2Proof.Machine.execAoPeriod s
  | .aoQueueWrite n v => Sys2Proof.Machine.execAoQueueWrite n v s
  | .aoQueueClear n => Sys2Proof.Machine.execAoQueueClear n s
  | .aoStrobeFire => Sys2Proof.Machine.execAoStrobeFire s
  | .aoStrobeMark => Sys2Proof.Machine.execAoStrobeMark s
  | .aoStrobeLoad => Sys2Proof.Machine.execAoStrobeLoad s
  | .aoMarkLoad hi => Sys2Proof.Machine.execAoMarkLoad hi s
  | .aoStageChange n mode range => Sys2Proof.Machine.execAoStageChange n mode range s
  | .aoChangeoverEnd n => Sys2Proof.Machine.execAoChangeoverEnd n s
  | .aoContention n => Sys2Proof.Machine.execAoContention n s
  | .aoOvervoltage n => Sys2Proof.Machine.execAoOvervoltage n s
  | .aoReconnect n stillHigh => Sys2Proof.Machine.execAoReconnect n stillHigh s
  | .vaoLockout => Sys2Proof.Machine.execVaoLockout s
  | .vaoLockoutEnd => Sys2Proof.Machine.execVaoLockoutEnd s
  | .pixRefreshEnd p => Sys2Proof.Machine.execPixRefreshEnd p s
  | .pixGapEnd p => Sys2Proof.Machine.execPixGapEnd p s
  | .snsRun on => Sys2Proof.Machine.execSnsRun on s
  | .snsStart => Sys2Proof.Machine.execSnsStart s
  | .snsSample raw clip => Sys2Proof.Machine.execSnsSample raw clip s
  | .snsEntryWrite n v => Sys2Proof.Machine.execSnsEntryWrite n v s
  | .snsFifoPop => Sys2Proof.Machine.execSnsFifoPop s
  | .audioSample right len raw => Sys2Proof.Machine.execAudioSample right len raw s
  | .audioRateCheck cycles => Sys2Proof.Machine.execAudioRateCheck cycles s
  | .audioLrckLoss => Sys2Proof.Machine.execAudioLrckLoss s
  | .beatTrackMs => Sys2Proof.Machine.execBeatTrackMs s
  | .tempoUpdate => Sys2Proof.Machine.execTempoUpdate s
  | .gptMatch n => Sys2Proof.Machine.execGptMatch n s
  | .gptOverflow n => Sys2Proof.Machine.execGptOverflow n s
  | .gptCapture n rising cnt => Sys2Proof.Machine.execGptCapture n rising cnt s
  | .gptSwcap n cnt => Sys2Proof.Machine.execGptSwcap n cnt s
  | .gptCapRead n => Sys2Proof.Machine.execGptCapRead n s
  | .mgmtCommandQueue c => Sys2Proof.Machine.execMgmtCommandQueue c s
  | .mgmtNop => Sys2Proof.Machine.execMgmtNop s
  | .mgmtRead => Sys2Proof.Machine.execMgmtRead s
  | .mgmtWrite => Sys2Proof.Machine.execMgmtWrite s
  | .mgmtMode => Sys2Proof.Machine.execMgmtMode s
  | .mgmtGate => Sys2Proof.Machine.execMgmtGate s
  | .mgmtCommit => Sys2Proof.Machine.execMgmtCommit s
  | .mgmtKeyset => Sys2Proof.Machine.execMgmtKeyset s
  | .contentBegin host => Sys2Proof.Machine.execContentBegin host s
  | .contentCheck host => Sys2Proof.Machine.execContentCheck host s
  | .contentActivate host => Sys2Proof.Machine.execContentActivate host s
  | .contentAbort host => Sys2Proof.Machine.execContentAbort host s
  | .contentCheckDone => Sys2Proof.Machine.execContentCheckDone s
  | .contentActivateDone => Sys2Proof.Machine.execContentActivateDone s
  | .bulkCell c => Sys2Proof.Machine.execBulkCell c s
  | .faultLogClear host => Sys2Proof.Machine.execFaultLogClear host s
  | .mgmtKeyWrite v => Sys2Proof.Machine.execMgmtKeyWrite v s
  | .dmxPacketEnd p slots framingError => Sys2Proof.Machine.execDmxPacketEnd p slots framingError s
  | .dmxLost p => Sys2Proof.Machine.execDmxLost p s
  | .discUniqueBranch p q lo hi => Sys2Proof.Machine.execDiscUniqueBranch p q lo hi s
  | .discMute p q => Sys2Proof.Machine.execDiscMute p q s
  | .discUnMute p q => Sys2Proof.Machine.execDiscUnMute p q s
  | .supportedParameters p q => Sys2Proof.Machine.execSupportedParameters p q s
  | .deviceInfo p q => Sys2Proof.Machine.execDeviceInfo p q s
  | .deviceModelDescription p q => Sys2Proof.Machine.execDeviceModelDescription p q s
  | .manufacturerLabel p q => Sys2Proof.Machine.execManufacturerLabel p q s
  | .deviceLabelGet p q => Sys2Proof.Machine.execDeviceLabelGet p q s
  | .deviceLabelSet p q label => Sys2Proof.Machine.execDeviceLabelSet p q label s
  | .softwareVersionLabel p q => Sys2Proof.Machine.execSoftwareVersionLabel p q s
  | .dmxStartAddressGet p q => Sys2Proof.Machine.execDmxStartAddressGet p q s
  | .dmxStartAddressSet p q start => Sys2Proof.Machine.execDmxStartAddressSet p q start s
  | .identifyDeviceGet p q => Sys2Proof.Machine.execIdentifyDeviceGet p q s
  | .identifyDeviceSet p q on => Sys2Proof.Machine.execIdentifyDeviceSet p q on s
  | .resetDevice p q kind => Sys2Proof.Machine.execResetDevice p q kind s
  | .rdmForward p q req => Sys2Proof.Machine.execRdmForward p q req s
  | .rdmResponseGo len => Sys2Proof.Machine.execRdmResponseGo len s
  | .rdmForwardTimeout => Sys2Proof.Machine.execRdmForwardTimeout s
  | .extest => Sys2Proof.Machine.execExtest s
  | .samplePreload => Sys2Proof.Machine.execSamplePreload s
  | .idcode => Sys2Proof.Machine.execIdcode s
  | .extestPulse => Sys2Proof.Machine.execExtestPulse s
  | .extestTrain => Sys2Proof.Machine.execExtestTrain s
  | .highz => Sys2Proof.Machine.execHighz s
  | .clamp => Sys2Proof.Machine.execClamp s
  | .kdebug => Sys2Proof.Machine.execKdebug s
  | .bypass => Sys2Proof.Machine.execBypass s
  | .kdebugUpdate dr => Sys2Proof.Machine.execKdebugUpdate dr s
  | .kdebugAccessEnd => Sys2Proof.Machine.execKdebugAccessEnd s
  | .trainReceived p => Sys2Proof.Machine.execTrainReceived p s
  | .alignmentLoss p => Sys2Proof.Machine.execAlignmentLoss p s
  | .illegalInstruction k => Sys2Proof.Machine.execIllegalInstruction k s
  | .dmxTxPacketEnd p => Sys2Proof.Machine.execDmxTxPacketEnd p s
  | .vfieldPresent present => Sys2Proof.Machine.execVfieldPresent present s

end Sys2Proof.Machine
end

