-- ==== Sys2Proof/Machine/Idle.lean ====
section
/-! DEFINITION. What happens on an empty queue. The table has a row for every event of the block but the running of the
owl's count, which HB_OWLREM reads: it is what an idle step does (log entry 10). -/

namespace Sys2Proof.Machine

/-- One owl step of 0.125 ms (R135, R136): the count of an enabled owl runs down; at zero it stands for OWL_EXPIRY. -/
def idle (s : State) : State :=
  if owlRuns s then { s with owl := { s.owl with count := BitVec.ofNat 16 (s.owl.count.toNat - 1) } } else s

end Sys2Proof.Machine
end

