-- ==== Sys2Proof/Safety.lean ====
section
/-! DEFINITION. What counts as a safe run: every step of it answers a next state. -/

namespace Sys2Proof.Machine

/-- The outcome is a next state. -/
def Completes (o : Host.Outcome State Fault Refusal) : Prop := ∃ t, o = .next t

/-- A run of `k` steps from `s` neither faults nor is refused. -/
def SafeRun : Nat → State → Prop
  | 0, _ => True
  | k + 1, s => ∃ t, step s = .next t ∧ SafeRun k t

/-- The command completes, and what it leaves has property `P`. -/
def Gives (c : Instr) (s : State) (P : State → Prop) : Prop := ∃ t, exec c s = .next t ∧ P t

/-- The row that writes code `c` to HB_MODE_REQ. -/
def Mode.request : Mode → Instr
  | .dormant => .requestDormant | .boot => .requestBoot | .muster => .requestMuster | .relay => .requestRelay
  | .show => .requestShow | .solo => .requestSolo | .service => .requestService | .roost => .requestRoost

/-- The row of a gate command (Table 4.3). -/
def GateCmd.row (c : GateCmd) (r : Requester) (pd : BitVec 7) : Instr :=
  match c with
  | .nop => .gateNop r pd | .down => .gateDown r pd | .up => .gateUp r pd | .reset => .gateReset r pd
  | .update => .gateUpdate r pd | .reopen => .gateReopen r pd

/-- A gate command that R92 does not refuse. -/
def gateAccepts (s : State) (c : GateCmd) (r : Requester) (n : Fin 67) : Bool :=
  chainRuns s && !gateRule s c r n && !gateMode s r n && !s.gate.busy

/-- The ISR bit of a cause reads 1. -/
def raised (c : Cause) (s : State) : Bool := bit s.host.isr c.num

/-- PD0 is ON, and no gate command in progress names it (R87, R92); a command is in progress just when BUSY reads 1. -/
def Gate.aonOn (g : Gate) : Bool :=
  g.pd[0] == .on && (match g.run with | some (_, n, _) => n.val != 0 && g.busy | none => !g.busy)

/-- A host access to a register of PD1 is served with its normal effect: not in power-on reset, not by the AON, and not in
ROOST (R117, R118). A write that timed out before may be performed first (R128): the state that the access meets is
`lateTime s`. -/
def HostServed (s : State) : Prop :=
  s.mode.inPor = false ∧ aonAnswers (lateTime s) = false ∧ (lateTime s).mode.code ≠ .roost

/-- Kestrel `k` is about to execute instruction `i`: nothing holds it, no instruction is under way, no breakpoint matches, and
the word at PC is fetched without poison (R267, R290-R295). -/
def Executes (s : State) (k : KIdx) (i : KInstr) : Prop :=
  kIssues s k = true ∧ kDecode (fetched s k).1 = some i ∧ (fetched s k).2 = false

/-- Beside kestrel `k`, `t` differs from `s` only by what a fetch counts (ECC counters and causes), what a trap logs and what
a debug halt freezes (the timers). -/
def OnlyKestrel (k : KIdx) (s t : State) : Prop :=
  t = { s with kst := t.kst, ecc := t.ecc, host := t.host, mgt := t.mgt, gpt := t.gpt, free := t.free } ∧
    t.host.win = s.host.win ∧ (eccClass (rawWord s.mem (fetchAddr s k)) ≠ .corrected → t.ecc = s.ecc) ∧
    ∀ j : KIdx, j ≠ k → kes t j = kes s j

/-- What follows an instruction that left kestrel `k` as `c`: a park that waited for it acts, a pending HALTREQ or a STEP
halts it, and else it goes on (R292-R294). A halt freezes only the timers that it owns with FRZ = 1 (R381). -/
def GoesOn (k : KIdx) (c : Kestrel) (s t : State) : Prop :=
  let d : Kestrel := { c with parked := c.parked || c.parkReq, parkReq := false, skipBrk := false }
  (c.haltReq = false → c.stepping = false → kes t k = d ∧ t.gpt = s.gpt ∧ t.free = s.free) ∧
  (c.haltReq = true ∨ c.stepping = true → raised .khalt t = true ∧
    kes t k = { d with halted := true, hcause := if c.haltReq then 0 else 3, haltReq := false, stepping := false } ∧
    ∀ n : Fin 8, fld (gpt s n).cfg 25 2 ≠ k.val ∨ bit (gpt s n).cfg 27 = false → gpt t n = gpt s n)

/-- The entries of a store buffer, whatever their issue has settled. -/
def entries (es : List SbEntry) : List SbEntry := es.map (SbEntry.withAdm fun _ => none)

/-- Kestrel `k` completed an instruction that wrote `v` with marker `m` to `rd` (k0 discards it) and goes on at `pc`; its
store buffer holds what it held, and what could not issue before may issue now. -/
def Finished (k : KIdx) (rd : Fin 16) (v : Word) (m : Bool) (pc : BitVec 14) (s t : State) : Prop :=
  GoesOn k { kes s k with regs := (kes t k).regs, mark := (kes t k).mark, pc := pc, cyc := (kes t k).cyc, wait := .none,
                          sbuf := (kes t k).sbuf } s t ∧
    entries (kes t k).sbuf = entries (kes s k).sbuf ∧
    ∀ r : Fin 16, (kes t k).reg r = (if r = rd ∧ r ≠ 0 then v else (kes s k).reg r) ∧
      (kes t k).bad r = (if r = rd ∧ r ≠ 0 then m else (kes s k).bad r)

/-- Kestrel `k` executed an instruction of its registers alone, as `Finished` says. -/
def Wrote (k : KIdx) (rd : Fin 16) (v : Word) (m : Bool) (pc : BitVec 14) (s t : State) : Prop :=
  OnlyKestrel k s t ∧ t.mgt = s.mgt ∧ (kes t k).sbuf = (kes s k).sbuf ∧ Finished k rd v m pc s t

/-- Entry `e` went into the store buffer of kestrel `k` behind what it holds, and its instruction completed (R278). -/
def Buffered (k : KIdx) (e : SbEntry) (s t : State) : Prop :=
  OnlyKestrel k s t ∧ t.mgt = s.mgt ∧ entries (kes t k).sbuf = entries ((kes s k).sbuf ++ [e]) ∧
    ((kes s k).sbuf = [] → (kes t k).sbuf = [e.withAdm fun _ => some (admission s (.kestrel k) e.addr true)]) ∧
    GoesOn k { kes s k with pc := (kes s k).pc + 4, cyc := (kes t k).cyc, wait := .none, sbuf := (kes t k).sbuf } s t

/-- Kestrel `k` took a trap (R274). -/
def Trapped (k : KIdx) (cause : BitVec 4) (info : Word) (s t : State) : Prop :=
  OnlyKestrel k s t ∧ raised .ktrap t = true ∧
    GoesOn k { kes s k with tpc := (kes s k).pc, tcause := cause, tinfo := info, intrap := true, pc := (kes s k).tentry,
                            traps := satInc (kes s k).traps, wait := .none } s t

/-- Kestrel `k` met a trap inside a trap and stopped (R295). -/
def DoubleFaulted (k : KIdx) (s t : State) : Prop :=
  OnlyKestrel k s t ∧ raised .khalt t = true ∧ t.mgt = s.mgt ∧
    kes t k = { kes s k with dfault := true, halted := true, hcause := 4, haltReq := false, stepping := false, skipBrk := false,
                             wait := .none }

/-- Kestrel `k` met a trap: it takes it, or stops when it is in one (R274, R295). -/
def Traps (k : KIdx) (cause : BitVec 4) (info : Word) (s t : State) : Prop :=
  ((kes s k).intrap = false → Trapped k cause info s t) ∧ ((kes s k).intrap = true → DoubleFaulted k s t)

/-- Nothing has stopped or halted kestrel `k`: the instruction under way completes and the kestrel goes on. -/
def Going (s : State) (k : KIdx) : Prop := (kes s k).rst = false ∧ (kes s k).halted = false ∧ (kes s k).dfault = false

/-- The state in which the function of management command `c` acts once every check has passed: the command has left the
queue, and a function that is checked has stored its MSEQ (R384). -/
def Admitted (s : State) (c : List Byte) (rest : List (List Byte)) : State :=
  { s with mgt := { s.mgt with queue := rest, mseq := if authFn s.mgt (cmdFn c) then cmdSeq c else s.mgt.mseq } }

/-- The word of byte address `b` is what it was, but for the rewrite as poison by a read that finds it uncorrectable
(R303). -/
def SameWord (s t : State) (b : Nat) : Prop :=
  rawWord t.mem b = rawWord s.mem b ∨
    (eccClass (rawWord s.mem b) = .uncorrectable ∧ rawWord t.mem b = poisonCode (codeData (rawWord s.mem b)))

/-- Memory beside the word of `a`: unchanged, but for what an outstanding patch read rewrites as poison (R282, R303). -/
def OtherWords (s t : State) (a : Nat) : Prop :=
  (∀ b, b / 8 ≠ a / 8 → SameWord s t b) ∧ (s.dis.reads = [] → ∀ b, b / 8 ≠ a / 8 → rawWord t.mem b = rawWord s.mem b)

/-- The word of memory `m` at `a` that a write of `n` bytes at `a` leaves (R305, R313). -/
def mergedWord (s : State) (m a n : Nat) (v : Word) (p : Bool) : Code :=
  (if p || eccMarker (rawWord s.mem a) then poisonCode else cleanCode) (mergeBytes (eccData (rawWord s.mem a)) (a % 8) n v)
    ^^^ flipMask s.ecc m

end Sys2Proof.Machine
end

