-- ==== Sys2Proof/Certificates/Slice0/Obligations.lean ====
section
/-! DEFINITION. The statements for the provers. Each docstring names the rules that it formalises, or says that it is the
model's own choice. -/

open Sys2Proof Sys2Proof.Machine

/-- Asked of a block: a step takes the front command and runs it with the queue's rest. -/
def Obligations.StepRunsFrontCommand : Prop :=
  ∀ (c : Instr) (rest : List Instr) (s : State), s.pending = c :: rest → step s = exec c (s.setPending rest)

/-- The model's choice (log entry 10): on an empty queue only the owl's count runs. -/
def Obligations.EmptyQueueRunsOwlCountOnly : Prop :=
  ∀ s : State, s.pending = [] →
    ∃ t, step s = .next t ∧ t = { s with owl := { s.owl with count := t.owl.count } } ∧
      t.owl.count.toNat = if owlRuns s then s.owl.count.toNat - 1 else s.owl.count.toNat

/-- Every command completes in every state, and the queue of waiting commands is outside its reach: no command adds, drops or
reorders one. -/
def Obligations.CommandsLeaveQueueAlone : Prop :=
  ∀ (c : Instr) (s : State), Gives c s fun t => t.pending = s.pending

/-- Every step completes and keeps the canonical form of the memories: equal memories are equal data. -/
def Obligations.EveryStepKeepsMemoryForm : Prop :=
  ∀ s : State, s.mem.wf = true → ∃ t, step s = .next t ∧ t.mem.wf = true

/-- PD0 is never switched (R87): every step completes and keeps it ON, with no command in progress that names it. -/
def Obligations.EveryStepKeepsAonOn : Prop :=
  ∀ s : State, s.gate.aonOn = true → ∃ t, step s = .next t ∧ t.gate.aonOn = true

/-- The invariants of the three statements before hold after reset. -/
def Obligations.ResetHasInvariants : Prop :=
  State.reset.mem.wf = true ∧ State.reset.gate.aonOn = true ∧ State.reset.pending = []

/-- The Reset column: what the registers of Tables 1.8, 2.7, 2.10, 2.12, 3.11, 3.12, 4.7, 5.4, 5.9, 13.5 and 15.6 hold. -/
def Obligations.ResetColumnValues : Prop :=
  let s := State.reset
  s.mode.code = .boot ∧ s.mode.step = 0 ∧ s.mode.rstcause = 1 ∧ s.mode.bootcfg = 0x4C00 ∧ s.owl.cfg = 0x057D ∧
  s.gate.updtmo = 100 ∧ s.host.isr = 0 ∧ s.host.ier = 0 ∧ s.sys.absCount = 0 ∧ s.ckp.en = 0 ∧ s.chn.role = 0 ∧
  (∀ n : Fin 7, (s.ckp.icl n).cfg = 0x0400) ∧ (∀ n : Fin 67, s.gate.pd[n] = if n.val = 0 then .on else .off) ∧
  (∀ n : Fin 8, fld (gpt s n).cfg 16 3 = n.val ∧ (gpt s n).top = 0xFFFFFFFF)

/-- R43, R47: below the power-good threshold the device is in power-on reset, which clears HB_RSTCAUSE and sets POR.
The word memories read zero, and the board-level conditions and the debug port are kept. R43: BOOT begins when the
rails are good again; nothing else changes. R414: VFIELD's present condition is what the device watches; nothing else
changes. -/
def Obligations.PowerSupplyEventsReset : Prop :=
  (∀ s : State, Gives .powerOnReset s fun t =>
     t.mode.inPor = true ∧ t.mode.code = .boot ∧ t.mode.step = 0 ∧ t.mode.rstcause = 1 ∧ t.mode.bcause = 0 ∧
     (∀ a, rawWord t.mem a = 0) ∧ t.gate = ({} : Gate) ∧ t.host = { ({} : HostBus) with hd := s.host.hd } ∧ t.sys = {} ∧
     t.ckp = {} ∧ t.chn = {} ∧ t.kst = {} ∧ t.mgt = {} ∧ t.mrg = {} ∧ t.vox = {} ∧ t.dis = {} ∧ t.jtag = s.jtag ∧
     t.pins = s.pins ∧ t.pending = s.pending) ∧
  (∀ s : State, s.mode.inPor = true →
     exec .powerGood s = .next { s with mode := { s.mode with inPor := false } }) ∧
  (∀ (b : Bool) (s : State), exec (.vfieldPresent b) s = .next { s with pins := { s.pins with vfield := b } })

/-- R44, outside power-on reset and ROOST (R51). -/
def Obligations.PinResetByPulseWidth : Prop :=
  ∀ (lowNs : Nat) (s : State), s.mode.inPor = false → s.mode.code ≠ .roost →
    (lowNs < 100 → exec (.pinReset lowNs) s = .next s) ∧
    (1000 ≤ lowNs → exec (.pinReset lowNs) s = .next (resetState .pin 1 1 s)) ∧
    (100 ≤ lowNs → lowNs < 1000 → Gives (.pinReset lowNs) s fun t =>
      t = { s with free := s.free + 1 } ∨ t = resetState .pin 1 1 { s with free := s.free + 1 }) ∧
    (resetState .pin 1 1 s).mode.code = .boot ∧ (resetState .pin 1 1 s).mode.step = 0

/-- R47: each reset sets its own bit of HB_RSTCAUSE and leaves the others, but for power-on reset; BCAUSE records the
reset or wake that began this BOOT, and the pin reset that replaces an end-of-ROOST reset. The host clears causes. -/
def Obligations.ResetsRecordTheirCause : Prop :=
  (∀ s, Gives .powerOnReset s fun t => t.mode.rstcause = 1 ∧ t.mode.bcause = 0) ∧
  (∀ (lowNs : Nat) (s : State), s.mode.inPor = false → s.mode.code ≠ .roost → 1000 ≤ lowNs →
    Gives (.pinReset lowNs) s fun t => t.mode.rstcause = setBit s.mode.rstcause 1 true ∧ t.mode.bcause = 1) ∧
  (∀ (keep : Bool) (s : State), s.mode.inPor = false → (lateTime s).mode.inPor = false → (lateTime s).mode.code ≠ .roost →
    (lateTime s).mode.code ≠ .dormant → Gives (.softReset keep) s fun t =>
      t.mode.rstcause = setBit (lateTime s).mode.rstcause 2 true ∧ t.mode.bcause = 2) ∧
  (∀ s : State, owlRuns s = true → fld s.owl.cfg 13 2 = 2 ∨ (fld s.owl.cfg 13 2 = 3 ∧ s.owl.strike = true) →
    Gives .owlExpiry s fun t => t.mode.rstcause = setBit s.mode.rstcause 3 true ∧ t.mode.bcause = 3) ∧
  (∀ s : State, s.mode.code = .roost → s.mode.captured = true →
    (∀ pg, Gives (.saveEnd pg true) s fun t => t.mode.rstcause = setBit s.mode.rstcause 1 true ∧ t.mode.bcause = 1) ∧
    (Gives (.saveEnd true false) s fun t => t.mode.rstcause = setBit s.mode.rstcause 4 true ∧ t.mode.bcause = 4)) ∧
  (∀ s : State, s.mode.code = .dormant → s.mode.busy = false → s.mode.inPor = false →
    ∀ x ∈ [(Instr.wakeHcs, true), (.wakeGp0, bit s.mode.bootcfg 9), (.wakePowerGood, s.mode.roostSleep)],
      x.2 = true → Gives x.1 s fun t => t.mode.rstcause = setBit s.mode.rstcause 5 true ∧ t.mode.bcause = 5) ∧
  (∀ (v : Half) (s : State), HostServed s → Gives (.registerWrite (.host (.write 5 v))) s fun t =>
    t.mode.rstcause = (lateTime s).mode.rstcause &&& ~~~(v.setWidth 7))

/-- R45, R49, Table 2.5: a soft reset begins BOOT with every output hooded; the repeat path, the position and the word
memories are kept, as are HB_BOOTCFG and the roost store. -/
def Obligations.SoftResetKeepsRepeatPath : Prop :=
  ∀ (keep : Bool) (s : State), s.mode.inPor = false → (lateTime s).mode.inPor = false → (lateTime s).mode.code ≠ .roost →
    (lateTime s).mode.code ≠ .dormant → Gives (.softReset keep) s fun t =>
      let u := lateTime s
      t.mode.code = .boot ∧ t.mode.step = 0 ∧ t.mode.keepBoot = keep ∧ t.mode.bootcfg = u.mode.bootcfg ∧
      t.drv.modeHood = true ∧ t.drv.lhood = true ∧ t.mem = u.mem ∧ t.ros.store = u.ros.store ∧ t.chn.pos = u.chn.pos ∧
      t.chn.mepoch = u.chn.mepoch ∧ t.pending = s.pending ∧
      ∀ p : PortIdx, (lport t p).repeating = (lport u p).repeating ∧ (lport t p).state = (lport u p).state

/-- R42, R53, Table 2.2: each wake condition takes the device from DORMANT to BOOT, and the owl starts its period; GP0 wakes at
the level of WAKEPOL with WAKEEN = 1, which its pin then has. MODE is raised, with SRC = DEVICE; the registers that DORMANT keeps are untouched. -/
def Obligations.WakeLeavesDormant : Prop :=
  ∀ s : State, s.mode.code = .dormant → s.mode.busy = false → s.mode.inPor = false →
    (∀ x ∈ [(Instr.wakeHcs, true), (.wakeGp0, bit s.mode.bootcfg 9), (.wakePowerGood, s.mode.roostSleep)],
      x.2 = true → Gives x.1 s fun t =>
        t.mode.code = .boot ∧ t.mode.step = 0 ∧ t.mode.done = false ∧ t.mode.bcause = 5 ∧ t.mode.src = .device ∧
        t.mode.bootcfg = s.mode.bootcfg ∧ t.owl.count.toNat = fld s.owl.cfg 0 7 * 64 ∧ raised .mode t = true ∧
        t = { s with mode := t.mode, owl := { s.owl with count := t.owl.count },
                     host := { s.host with hd := t.host.hd, isr := t.host.isr }, pins := t.pins } ∧
        t.pins = { s.pins with gp0 := if x.1 = .wakeGp0 then bit s.mode.bootcfg 8 else s.pins.gp0 }) ∧
    (bit s.mode.bootcfg 9 = false → exec .wakeGp0 s = .next s)

/-- R54, R55, R65, R68, R311, R312, R340: what ends each step of BOOT and the step that follows. A boot after a soft reset
with KEEP = 1 skips MEMTEST and leaves a memory's domain that MEMTEST failed OFF; with VFIELD low WIRESCAN is skipped; after
CLKFAIL only a reset leaves the CLOCK step. -/
def Obligations.BootStepsFollowInOrder : Prop :=
  (∀ s : State, inStep s 0 = true → Gives .fuseDone s fun t =>
    t.mode = { s.mode with step := 1 } ∧ t.mgt.mkey = Config.mkey ∧ t.pending = s.pending ∧
    (∀ n : Fin 67, n.val ≠ 0 → modeDomain n = false → s.mode.keepBoot = false ∨ failedDomain s n = false →
      t.gate.pd[n] = .on) ∧
    (s.mode.keepBoot = true → ∀ n : Fin 67, failedDomain s n = true → t.gate.pd[n] = s.gate.pd[n])) ∧
  (∀ s : State, inStep s 1 = true → s.ckp.xoq = true → bit s.ckp.lock 2 = true → bit s.ckp.lock 3 = true →
    (s.mode.clkfail = true → exec .clockStepDone s = .next s) ∧
    (s.mode.clkfail = false → Gives .clockStepDone s fun t =>
      t.ckp = { s.ckp with
        iclk := t.ckp.iclk, refNow := t.ckp.refNow, refNext := t.ckp.refNext, holdover := t.ckp.holdover } ∧
      (t.ckp.icl 1).act = 0 ∧ (t.ckp.icl 1).step = 0 ∧ (t.ckp.icl 1).sw = none ∧
      (∀ n : Fin 7, n.val ≠ 1 → n.val < 5 ∨ (n.val = 5 ∧ bit s.ckp.en 3 = true) →
        (t.ckp.icl n).act.toNat = (s.ckp.icl n).src ∧ (t.ckp.icl n).step.toNat = (s.ckp.icl n).div) ∧
      t.mode.kept = (s.mode.keepBoot || s.mode.kept) ∧
      t.mode.step = (if s.mode.keepBoot then (if s.pins.vfield then 3 else 4) else 2) ∧
      t = { s with mode := t.mode, ckp := t.ckp, drv := t.drv, host := t.host, mgt := t.mgt })) ∧
  (∀ s : State, inStep s 1 = true → s.ckp.xoq = false →
    exec .clockStepFail s = .next { s with mode := { s.mode with clkfail := true } }) ∧
  (∀ (banks : BitVec 8) (kests : BitVec 4) (addr : Word) (s : State), inStep s 2 = true →
    Gives (.memtestDone banks kests addr) s fun t =>
      (∀ a, rawWord t.mem a = 0) ∧ t.ecc.fail = banks ∧ t.ecc.kfail = kests ∧
      t.ecc.bistaddr = (if (banks != 0 || kests != 0) then addr else 0) ∧
      t.mode.memfail = (banks != 0 || kests != 0) ∧ t.mode.step = (if s.pins.vfield then 3 else 4) ∧
      (∀ m : Fin 8, bit banks m = true → t.gate.pd[46 + m.val]? = some .off) ∧
      (∀ k : Fin 4, bit kests k = true → t.gate.pd[54 + k.val]? = some .off)) ∧
  (∀ s : State, inStep s 3 = true → s.drv.scanBusy = true → s.drv.scanPos = 64 →
    Gives .scanComplete s fun t => t.mode = { s.mode with step := 4 } ∧ t.drv.scanBusy = false) ∧
  (∀ s : State, inStep s 4 = true → Gives .roostchkDone s fun t => t = leaveBoot (toStep 5 (roostCheck s))) ∧
  (∀ s : State, inStep s 5 = true → fld s.mode.bootcfg 12 4 ≠ 15 → Gives .ringwaitEnd s fun t =>
    t.mode.code = (if s.chn.framesNow || candidate? s then .muster else .solo) ∧ t.mode.busy = true)

/-- R56: the order in which the device chooses the mode to leave BOOT for; with nothing to choose it waits in RINGWAIT. -/
def Obligations.LeavingBootChoosesMode : Prop :=
  ∀ s : State, s.mode.code = .boot →
    (s.mode.pend = true → (leaveBoot s).mode.code = Mode.ofNum s.mode.pcode.toNat ∧ (leaveBoot s).mode.result = 1) ∧
    (s.mode.pend = false → (s.chn.framesNow || candidate? s) = true → (leaveBoot s).mode.code = .muster) ∧
    (s.mode.pend = false → (s.chn.framesNow || candidate? s) = false → s.ros.look = true →
      (leaveBoot s).mode.code = .solo) ∧
    (s.mode.pend = false → (s.chn.framesNow || candidate? s) = false → s.ros.look = false → leaveBoot s = s)

/-- R38 with R42 and R57: a write to HB_MODE_REQ while the device is not in power-on reset, DORMANT or ROOST. R140:
HB_ROOST.SAVE acts as a write of code 7. -/
def Obligations.ModeRequestIsStored : Prop :=
  (∀ (c : Mode) (s : State), s.mode.inPor = false → (lateTime s).mode.code ≠ .roost → (lateTime s).mode.code ≠ .dormant →
     (lateTime s).mode.inPor = false →
     let u := lateTime s
     ((u.mode.code ≠ .boot ∨ c = .solo ∨ c = .service) → Gives c.request s fun t =>
       t.mode = { u.mode with pend := true, pcode := BitVec.ofNat 3 c.num, result := if u.mode.pend then 3 else u.mode.result } ∧
       (u.mode.pend = false → t = { u with mode := t.mode, owl := t.owl }) ∧
       (u.mode.pend = true → t = { u with mode := t.mode, owl := t.owl, host := t.host } ∧
         (u.mode.result ≠ 3 → raised .mode t = true))) ∧
     ((u.mode.code = .boot ∧ c ≠ .solo ∧ c ≠ .service) → Gives c.request s fun t =>
       t.mode.pend = false ∧ t.mode.result = 2 ∧ t.mode.code = .boot ∧ t = { u with mode := t.mode, owl := t.owl, host := t.host } ∧
       (u.mode.result ≠ 2 → raised .mode t = true))) ∧
  (∀ s : State, HostServed s → exec .roostSaveRequest s = exec .requestRoost s)

/-- R39, R40, R42, R57: while BUSY is 0, in MUSTER, RELAY, SHOW, SOLO and SERVICE, a management request is evaluated, which
displaces a pending host request (SUPERSEDED), else the host request: evaluation clears it, sets RESULT, raises MODE when
RESULT changes, and starts the transition of an accepted request for another mode at once. In RINGWAIT a host request is
accepted; a request that cannot be evaluated yet waits. -/
def Obligations.PendingRequestIsEvaluated : Prop :=
  (∀ (c : Mode) (src : ModeSrc) (s : State), s.mode.code.running = true → s.mode.busy = false → s.mode.inPor = false →
    (src = .mgmt ∧ s.mode.mgmtReq = some (BitVec.ofNat 3 c.num)) ∨
      (src = .host ∧ s.mode.mgmtReq = none ∧ s.mode.pend = true ∧ s.mode.pcode = BitVec.ofNat 3 c.num) →
    Gives .modeRequestEval s fun t =>
      t.mode.pend = false ∧ t.mode.mgmtReq = none ∧ t.mode.result = (if admits s c then 1 else 2) ∧
      (t.mode.result ≠ s.mode.result ∨ (src = .mgmt ∧ s.mode.pend = true) → raised .mode t = true) ∧
      (admits s c = true → c ≠ s.mode.code → t.mode.code = c ∧ t.mode.busy = true ∧ t.mode.from_ = s.mode.code ∧
        t.mode.tsrc = src) ∧
      (admits s c = false ∨ c = s.mode.code → t.mode.code = s.mode.code ∧ t.mode.busy = false ∧
        t = { s with mode := t.mode, host := t.host })) ∧
  (∀ s : State, s.mode.pend = false → s.mode.mgmtReq = none → exec .modeRequestEval s = .next s) ∧
  (∀ s : State, s.mode.busy = true ∨ s.mode.code = .dormant ∨ s.mode.code = .roost →
    exec .modeRequestEval s = .next s) ∧
  (∀ s : State, s.mode.code = .boot → s.mode.busy = false → s.mode.inPor = false →
    (s.mode.step ≠ 5 → exec .modeRequestEval s = .next s) ∧
    (s.mode.step = 5 → s.mode.pend = true → Gives .modeRequestEval s fun t => t.mode.pend = false ∧ t.mode.result = 1 ∧
      t.mode.code = Mode.ofNum s.mode.pcode.toNat ∧ t.mode.busy = true))

/-- R31, R37, R42, Tables 2.1 and 2.4: a transition ends when its actions are done: the mode domains are then as the entry
wants them, SHOW and SOLO drive their outputs, BUSY clears, SRC records the source and MODE is raised. R35, R39: a trigger that
waited for BUSY then acts. R36, Table 2.2: MUSTER is left when the SHOW condition holds, for SHOW or, with AUTOSHOW = 0, for
RELAY. -/
def Obligations.TransitionsEndAndLeaveMuster : Prop :=
  (∀ s : State, s.mode.busy = true → entryWaits s = false → Gives .modeTransitionDone s fun t =>
     raised .mode t = true ∧ t.mode.src = s.mode.tsrc ∧ t.pending = s.pending ∧ t.mem = s.mem ∧
     (s.mode.code = .show ∨ s.mode.code = .solo ∨ s.mode.code = .service → s.mode.from_.active = false →
       ∀ n : Fin 67, modeDomain n = true → s.gate.pd[n] = .on) ∧
     (s.mode.code = .muster ∨ s.mode.code = .relay → s.mode.from_.active = true →
       ∀ n : Fin 67, modeDomain n = true → s.gate.pd[n] = .off) ∧
     (s.mode.code = .dormant → ∀ n : Fin 67, n.val ≠ 0 → s.gate.pd[n] = .off) ∧
     (s.mode.held = [] → t.mode = { s.mode with busy := false, src := s.mode.tsrc } ∧ t.gate = s.gate ∧
       t.drv = { s.drv with modeHood := s.drv.modeHood && s.mode.code != .show && s.mode.code != .solo } ∧
       (s.epoch.held = false ∨ s.epoch.mig = true →
         t = { s with mode := t.mode, drv := t.drv, host := t.host })) ∧
     (∀ x ∈ [(Trigger.lost, Mode.muster, Mode.relay), (.lost, .show, .relay), (.remuster, .relay, .muster),
         (.remuster, .show, .muster)],
       s.mode.held = [x.1] → s.mode.code = x.2.1 → t.mode.code = x.2.2 ∧ t.mode.busy = true ∧ t.mode.tsrc = .ring) ∧
     (s.mode.held = [.candidate] → s.mode.code = .solo → bit s.mode.bootcfg 10 = true →
       t.mode.code = .muster ∧ t.mode.busy = true)) ∧
  (∀ s : State, s.mode.busy = true → entryWaits s = true → exec .modeTransitionDone s = .next s) ∧
  (∀ s : State, s.mode.code = .muster → s.mode.busy = false → s.chn.held = true → s.chn.fixed = true →
     s.chn.framesNow = true → s.chn.lock = true → Gives .showCondition s fun t =>
       t.mode.code = (if bit s.mode.bootcfg 11 then .show else .relay) ∧ t.mode.busy = true ∧ t.mode.tsrc = .ring ∧
       t.mode.from_ = .muster)

/-- R41, R58, R94, R266, R402: a sag enters ROOST at once from a running mode, with a transition in progress abandoned, a
pending request REFUSED and a migration stopped; domains and voices stay as they are, but for an eyrie that waits for the
migration with its close. In BOOT it only sets HB_RSTCAUSE.SAGBOOT. R404, R46, R51: the capture of a save is marked once; at
its end the slot is programmed and the device resets, by a pin reset when RST_N is low, and with no power-good it goes to
DORMANT instead. -/
def Obligations.SagSavesInRoost : Prop :=
  ((∀ s : State, s.mode.inPor = false → s.mode.code.running = true → Gives .sag s fun t =>
     t.mode.code = .roost ∧ t.mode.busy = true ∧ t.mode.pend = false ∧ t.mode.mgmtReq = none ∧ t.mode.held = [] ∧
     t.mode.captured = false ∧ t.mode.saveFrom = s.mode.code ∧ t.mode.saveTime = s.chn.ctime ∧ t.mode.saveReq = false ∧
     (s.mode.pend = true ∨ s.mode.mgmtReq ≠ none → t.mode.result = 2) ∧ t.epoch.mig = false ∧
     t.mem = s.mem ∧ t.pending = s.pending ∧ (s.gate.phase ≠ 1 → t.gate = s.gate ∧ t.vox = s.vox)) ∧
   (∀ s : State, s.mode.inPor = false → s.mode.code = .boot →
     exec .sag s = .next { s with mode := { s.mode with rstcause := setBit s.mode.rstcause 6 true } })) ∧
  ((∀ s : State, s.mode.code = .roost → s.mode.busy = false → s.mode.captured = false →
     Gives .roostCaptureDone s fun t => t.mode = { s.mode with captured := true } ∧ t.pending = s.pending ∧
       t.ros.look = s.ros.look ∧ modeSource t = true ∧ t.ros.store = s.ros.store) ∧
   (∀ (pg rst : Bool) (s : State), s.mode.code = .roost → s.mode.captured = true →
     Gives (.saveEnd pg rst) s fun t =>
       t.ros.store = (programSlot s.ros).store ∧
       t.mode.code = (if rst || pg then .boot else .dormant) ∧
       (rst = true → t.mode.bcause = 1) ∧ (rst = false → pg = true → t.mode.bcause = 4) ∧
       (rst = false → pg = false → t.mode.roostSleep = true ∧ t.mode.busy = true)))

/-- R64, R66: what one window of the comparator does, whether or not the XO is live. A passing window counts; the fourth sets
XOQ, and the next run, whose reference is CRW if live, else CRE if live, else the RCO, counts from 1. A failing one starts a
new run; the second in a row of a qualified XO clears XOQ, sets XOLOST and raises CLK. A REQUAL starts a new run, and XOQ
stays. Before the CLOCK step the comparator does not run. Beside that only the reference is decided again (R79). -/
def Obligations.QualificationWindows : Prop :=
  let newRef (s : State) : QualRef := if s.ckp.isLive .crw then .crw else if s.ckp.isLive .cre then .cre else .rco
  (∀ (count : BitVec 24) (s : State), (comparatorRuns s = false → exec (.xoqWindow count) s = .next s) ∧
    (comparatorRuns s = true → Gives (.xoqWindow count) s fun t =>
      let pass := s.ckp.windowPasses s.ckp.runRef count.toNat
      let lost := !pass && s.ckp.xoq && decide (1 ≤ s.ckp.fails)
      t = { s with ckp := t.ckp, host := t.host, mgt := t.mgt, kst := t.kst } ∧
      t.ckp = { s.ckp with
        xocnt := count, xocntRec := s.ckp.runRef != .rco
        run := if pass then (if 4 ≤ s.ckp.run.toNat then 1 else s.ckp.run + 1) else 0
        fails := if pass || lost then 0 else s.ckp.fails + 1
        runRef := if pass = true ∧ s.ckp.run ≠ 3 then s.ckp.runRef else newRef s
        xoq := if pass then s.ckp.xoq || s.ckp.run == 3 else s.ckp.xoq && !lost
        xolost := s.ckp.xolost || lost
        refNow := t.ckp.refNow, refNext := t.ckp.refNext, holdover := t.ckp.holdover } ∧
      (lost = true → raised .clk t = true) ∧ (lost = false → t.ckp.holdover = s.ckp.holdover → t.host = s.host))) ∧
  (∀ s : State, (comparatorRuns s = false → exec .requal s = .next s) ∧
    (comparatorRuns s = true → exec .requal s = .next { s with ckp := { s.ckp with run := 0, fails := 0, runRef := newRef s } }))

/-- R63, R66, R77, R78: a clock declared dead. A dead XO clears XOQ, sets XOLOST and starts a new run (the last is the model's
choice, log entry 76); an island that runs on the clock, or whose switch to it has left the old source, fails over to the RCO
with SRC kept, which for VOX, MEWS and PWM hoods the outputs, and CLK is raised; an island that neither runs on the clock nor
switches to it is left as it is. R61, R63, R74: a clock declared live starts the switches that waited for it; a recovered
clock needs a lane of its port in CDR lock. R62: a PLL that has been started locks, and the monitor's view of its outputs is
unchanged. With PD1 down the monitor's view alone changes. -/
def Obligations.ClocksDieAndComeBack : Prop :=
  (∀ (c : Clk) (s : State), (s.ckp.isLive c = false → exec (.clockDead c) s = .next s) ∧
     (s.ckp.isLive c = true → Gives (.clockDead c) s fun t =>
       t.ckp.isLive c = false ∧ (∀ d, d ≠ c → t.ckp.isLive d = s.ckp.isLive d) ∧
       t = { s with ckp := t.ckp, host := t.host, mgt := t.mgt, kst := t.kst } ∧
       (pd1Up s = false → t = { s with ckp := { s.ckp with live := t.ckp.live } }) ∧
       (pd1Up s = true →
         (if c = .xo then t.ckp.xoq = false ∧ t.ckp.xolost = true ∧ raised .clk t = true ∧ t.ckp.run = 0 ∧ t.ckp.fails = 0
          else t.ckp.xoq = s.ckp.xoq ∧ t.ckp.xolost = s.ckp.xolost ∧ t.ckp.run = s.ckp.run ∧ t.ckp.fails = s.ckp.fails) ∧
         t.ckp = { s.ckp with live := t.ckp.live, iclk := t.ckp.iclk, failover := t.ckp.failover, hood := t.ckp.hood,
                              xoq := t.ckp.xoq, xolost := t.ckp.xolost, run := t.ckp.run, fails := t.ckp.fails,
                              runRef := t.ckp.runRef, refNow := t.ckp.refNow, refNext := t.ckp.refNext,
                              holdover := t.ckp.holdover } ∧
         ∀ n : Fin 7, (t.ckp.icl n).cfg = (s.ckp.icl n).cfg ∧
           ((match (s.ckp.icl n).sw with
             | none => sourceClk n (s.ckp.icl n).act.toNat = some c
             | some w => w.stopped = true ∧ sourceClk n w.dst.toNat = some c) →
             (t.ckp.icl n).act = 2 ∧ (t.ckp.icl n).failed = true ∧ (t.ckp.icl n).step = (s.ckp.icl n).step ∧
             (t.ckp.icl n).sw.any (fun w => w.dst == 2 && !w.engaged && w.failover) = true ∧
             t.ckp.failover = true ∧ raised .clk t = true ∧ (n = 0 ∨ n = 2 ∨ n = 4 → t.ckp.hood = true)) ∧
           ((match (s.ckp.icl n).sw with
             | none => sourceClk n (s.ckp.icl n).act.toNat ≠ some c
             | some w => sourceClk n w.dst.toNat ≠ some c) → t.ckp.icl n = s.ckp.icl n)))) ∧
  (∀ (c : Clk) (s : State), (recoveredLocked c s = false ∨ s.ckp.isLive c = true → exec (.clockLive c) s = .next s) ∧
     (recoveredLocked c s = true → s.ckp.isLive c = false → Gives (.clockLive c) s fun t =>
       t.ckp.isLive c = true ∧ (∀ d, d ≠ c → t.ckp.isLive d = s.ckp.isLive d) ∧
       t = { s with ckp := t.ckp, host := t.host, mgt := t.mgt, kst := t.kst } ∧
       (pd1Up s = false → t = { s with ckp := { s.ckp with live := t.ckp.live } }) ∧
       (pd1Up s = true →
         t.ckp = { s.ckp with live := t.ckp.live, iclk := t.ckp.iclk, refNow := t.ckp.refNow, refNext := t.ckp.refNext,
                              holdover := t.ckp.holdover } ∧
         ∀ n : Fin 7, t.ckp.icl n =
           if (s.ckp.icl n).waitsrc = true ∧ sourceClk n (s.ckp.icl n).src = some c ∧ (s.ckp.icl n).sw = none then
             { s.ckp.icl n with
               waitsrc := false
               sw := some { dst := BitVec.ofNat 2 (s.ckp.icl n).src, div := BitVec.ofNat 3 (s.ckp.icl n).div,
                            stopped := false, engaged := false, failover := false } }
           else s.ckp.icl n))) ∧
  (∀ (p : Pll) (s : State), (pd1Up s = false ∨ pllStarted p s = false → exec (.pllLock p) s = .next s) ∧
     (pd1Up s = true → pllStarted p s = true → Gives (.pllLock p) s fun t =>
       t.ckp.lock = setBit s.ckp.lock (pllIdx p) true ∧ t = { s with ckp := { s.ckp with lock := t.ckp.lock, iclk := t.ckp.iclk } } ∧
       (p ≠ .aud → t.ckp.iclk = s.ckp.iclk) ∧
       ∀ n : Fin 7, (n ≠ 6 ∨ (s.ckp.icl n).act ≠ 3 → t.ckp.icl n = s.ckp.icl n) ∧
         (p = .aud → n = 6 → (s.ckp.icl n).act = 3 → (t.ckp.icl n).cfg = (s.ckp.icl n).cfg ∧
           (t.ckp.icl n).act.toNat = (s.ckp.icl n).src ∧ (t.ckp.icl n).step.toNat = (s.ckp.icl n).div)))

/-- R67, R68, R71-R74: a write of CKP_ICLKn is stored; while a switch of the island runs it is held, and while the island
stands it is only stored. A changed SRC starts a switch, or waits for its source with WAITSRC = 1; a lower DIV alone ramps
down, a higher one takes effect at once, and a write that changes neither starts nothing. R71, Table 3.5, R77: the steps of a
switch of island n: the old source stops, the new one engages at divider 32 (or goes on from its step after a source that
died in the ramp), each dwell halves the divider, and at the divider asked for the switch ends, which clears FAILED but for a
failover. No other island changes. -/
def Obligations.IslandSwitchesInSteps : Prop :=
  let only (n : Fin 7) (s t : State) : Prop :=
    t = { s with ckp := { s.ckp with iclk := t.ckp.iclk } } ∧ ∀ m : Fin 7, m ≠ n → t.ckp.icl m = s.ckp.icl m
  let fin (i : Iclk) (w : Switch) (act : BitVec 2) : Iclk :=
    { i with act := act, step := w.div, sw := none, failed := w.failover && i.failed }
  (∀ (n : Fin 7) (v : Word) (s : State), (pd1Up s = false → exec (.iclkWrite n v) s = .next s) ∧
     (pd1Up s = true → Gives (.iclkWrite n v) s fun t =>
       let i := s.ckp.icl n
       let c := applyWrite iclkFields i.cfg v
       let j : Iclk := { i with cfg := c }
       only n s t ∧
       (i.sw ≠ none → t.ckp.icl n = { j with held := some (i.held.getD i.cfg) }) ∧
       (i.sw = none → coreStarted s = false ∨ i.act = 3 → t.ckp.icl n = j) ∧
       (i.sw = none → coreStarted s = true → i.act ≠ 3 →
         (i.waitsrc = true ∨ fld c 0 2 ≠ fld i.cfg 0 2 →
           t.ckp.icl n = (if s.ckp.srcLive n (fld c 0 2) then
             { j with waitsrc := false
                      sw := some { dst := BitVec.ofNat 2 (fld c 0 2), div := BitVec.ofNat 3 (fld c 4 3), stopped := false,
                                   engaged := false, failover := false } }
             else { j with waitsrc := true })) ∧
         (i.waitsrc = false → fld c 0 2 = fld i.cfg 0 2 →
           (fld c 4 3 = fld i.cfg 4 3 → t.ckp.icl n = j) ∧
           (fld c 4 3 ≠ fld i.cfg 4 3 → fld c 4 3 < i.step.toNat →
             t.ckp.icl n = { j with sw := some { dst := i.act, div := BitVec.ofNat 3 (fld c 4 3), stopped := true,
                                                 engaged := true, failover := false } }) ∧
           (fld c 4 3 ≠ fld i.cfg 4 3 → i.step.toNat ≤ fld c 4 3 →
             t.ckp.icl n = { j with step := BitVec.ofNat 3 (fld c 4 3) }))))) ∧
  (∀ (n : Fin 7) (s : State), (s.ckp.icl n).sw = none →
     exec (.clockEngage n) s = .next s ∧
     (Gives (.clockDisengage n) s fun t => only n s t ∧ t.ckp.icl n = s.ckp.icl n) ∧
     Gives (.clockRampStep n) s fun t => only n s t ∧ t.ckp.icl n = s.ckp.icl n) ∧
  (∀ (n : Fin 7) (w : Switch) (s : State), (s.ckp.icl n).sw = some w →
     let i := s.ckp.icl n
     (Gives (.clockDisengage n) s fun t => only n s t ∧
       t.ckp.icl n = { i with sw := some (if w.engaged then w else { w with stopped := true }) }) ∧
     (w.stopped = false ∨ w.engaged = true → exec (.clockEngage n) s = .next s) ∧
     (w.stopped = true → w.engaged = false → Gives (.clockEngage n) s fun t => only n s t ∧
       let st : BitVec 3 := if w.cont then i.step else 5
       (w.div.toNat < st.toNat →
         t.ckp.icl n = { i with act := w.dst, step := st, sw := some { w with stopped := true, engaged := true } }) ∧
       (st.toNat ≤ w.div.toNat → (t.ckp.icl n).act = w.dst ∧ (t.ckp.icl n).cfg = i.cfg ∧
         (i.held = none → i.waitsrc = false → t.ckp.icl n = fin i w w.dst))) ∧
     (Gives (.clockRampStep n) s fun t => only n s t ∧
       (w.engaged = false ∨ i.step.toNat ≤ w.div.toNat → t.ckp.icl n = i) ∧
       (w.engaged = true → w.div.toNat + 1 < i.step.toNat → t.ckp.icl n = { i with step := i.step - 1 }) ∧
       (w.engaged = true → w.div.toNat + 1 = i.step.toNat → (t.ckp.icl n).act = i.act ∧ (t.ckp.icl n).cfg = i.cfg ∧
         (i.held = none → i.waitsrc = false → t.ckp.icl n = fin i w i.act))))

/-- R75: an island whose old source shows no falling edge is engaged on the new source anyway, and FORCED and FMUX
record the mux; for the reference mux it is mux 7 (R80). R79, R80, R81: SEL is stored and the reference decided; a
decided input engages with REFSW set, and holdover ends. -/
def Obligations.ForcedAndReferenceSwitches : Prop :=
  ((∀ (n : Fin 7) (w : Switch) (s : State), (s.ckp.icl n).sw = some w → w.stopped = false → w.engaged = false →
     Gives (.clockForced (n.castLE (by decide))) s fun t =>
       (t.ckp.icl n).act = w.dst ∧ t.ckp.forced = true ∧ t.ckp.fmux.toNat = n.val ∧ raised .clk t = true ∧
       t = { s with ckp := t.ckp, host := t.host, mgt := t.mgt, kst := t.kst } ∧
       ∀ m : Fin 7, m ≠ n → t.ckp.icl m = s.ckp.icl m) ∧
   (∀ (n : Fin 7) (s : State), (s.ckp.icl n).sw = none ∨ (∃ w, (s.ckp.icl n).sw = some w ∧ (w.stopped || w.engaged) = true) →
     exec (.clockForced (n.castLE (by decide))) s = .next s) ∧
   (∀ s : State, s.ckp.refNext = none → exec (.clockForced 7) s = .next s) ∧
   (∀ (r : BitVec 2) (s : State), s.ckp.refNext = some r → Gives (.clockForced 7) s fun t =>
       t.ckp.refNow = r ∧ t.ckp.forced = true ∧ t.ckp.fmux = 7 ∧ t.ckp.refsw = true ∧ raised .clk t = true)) ∧
  ((∀ (sel : BitVec 2) (s : State), (pd1Up s = false → exec (.refSelect sel) s = .next s) ∧
     (pd1Up s = true → coreStarted s = false → exec (.refSelect sel) s = .next { s with ckp := { s.ckp with refSel := sel } }) ∧
     (pd1Up s = true → coreStarted s = true → Gives (.refSelect sel) s fun t =>
     t.ckp.refSel = sel ∧ t = { s with ckp := t.ckp, host := t.host, mgt := t.mgt, kst := t.kst } ∧
     (∀ r, refWanted s { s.ckp with refSel := sel } = some r → t.ckp.refNext = if r = s.ckp.refNow then none else some r) ∧
     (refWanted s { s.ckp with refSel := sel } = none → t.ckp.refNow = 3 ∧ t.ckp.holdover = true))) ∧
   (∀ (forced : Bool) (s : State), s.ckp.refNext = none → exec (.refSwitchEngage forced) s = .next s) ∧
   (∀ (forced : Bool) (r : BitVec 2) (s : State), s.ckp.refNext = some r → Gives (.refSwitchEngage forced) s fun t =>
     t.ckp = { s.ckp with refNow := r, refNext := none, holdover := false, refsw := true, forced := s.ckp.forced || forced,
                          fmux := if forced then 7 else s.ckp.fmux } ∧
     raised .clk t = true ∧ t = { s with ckp := t.ckp, host := t.host, mgt := t.mgt, kst := t.kst }))

/-- R68, R83, R84: a write of CKP_EN sets the enables and keeps the registers of every peripheral. The ANA island stops and
starts with SNS, the AUD island stops with its bit, and no other island changes. -/
def Obligations.PeripheralEnableKeepsRegisters : Prop :=
  ∀ (v : BitVec 6) (s : State), (hostUp s = false → exec (.peripheralEnable v) s = .next s) ∧
    (hostUp s = true → Gives (.peripheralEnable v) s fun t =>
    t.ckp.en = v ∧ t.gpt = s.gpt ∧ t.aou = s.aou ∧ t.sns = s.sns ∧ t.aud = s.aud ∧ t.emt = s.emt ∧
    (∀ p : Fin 4, (t.pix.port[p]).cfg = (s.pix.port[p]).cfg) ∧ (∀ p : Fin 2, (t.dmx.port[p]).cfg = (s.dmx.port[p]).cfg) ∧
    t = { s with ckp := { s.ckp with en := v, iclk := t.ckp.iclk }, pix := t.pix, dmx := t.dmx } ∧
    (bit v 2 = true → t.pix = s.pix) ∧ (bit v 5 = true → t.dmx = s.dmx) ∧
    (∀ n : Fin 7, n.val < 5 → t.ckp.icl n = s.ckp.icl n) ∧
    (bit v 3 = false → (t.ckp.icl 5).act = 3) ∧ (bit v 4 = false → (t.ckp.icl 6).act = 3) ∧
    (bit v 3 = true → coreStarted s = true → (s.ckp.icl 5).act = 3 → (t.ckp.icl 5).act.toNat = (s.ckp.icl 5).src) ∧
    (bit v 3 = true → (s.ckp.icl 5).act ≠ 3 → t.ckp.icl 5 = s.ckp.icl 5))

/-- R19, R109, R337, R342: DLINK traffic counts for the link-loss flag of HB_STATUS, delivers every waiting report and
keeps the hood that a loss left; the first traffic after a D-die reset lifts the hood of that reset (log entry 23). -/
def Obligations.LinkTrafficDelivers : Prop :=
  (∀ s : State, (pd1Up s = false → exec .dlinkKeepalive s = .next s) ∧ (pd1Up s = true → Gives .dlinkKeepalive s fun t =>
    t.sys = { s.sys with dlink := true } ∧
    t.drv = { s.drv with reports := [], lhood := s.drv.lhood && s.drv.linkloss } ∧
    (∀ n, DrvReport.fault n ∈ s.drv.reports → raised .emfault t = true) ∧
    t = { s with sys := t.sys, drv := t.drv, host := t.host, mgt := t.mgt, kst := t.kst })) ∧
  (∀ s : State, (pd1Up s = false ∨ s.sys.dlink = true → exec .dlinkResume s = .next s) ∧
    (pd1Up s = true → s.sys.dlink = false → Gives .dlinkResume s fun t =>
    t.sys = { s.sys with dlink := true } ∧
    t.drv = { s.drv with reports := [], lhood := s.drv.lhood && s.drv.linkloss } ∧
    raised .dlink t = true ∧ t = { s with sys := t.sys, drv := t.drv, host := t.host, mgt := t.mgt, kst := t.kst })) ∧
  (∀ s : State, (pd1Up s = false ∨ s.sys.dlink = false → exec .dlinkReport s = .next s) ∧
    (pd1Up s = true → s.sys.dlink = true → Gives .dlinkReport s fun t =>
    t.drv = { s.drv with reports := [] } ∧
    (∀ n, DrvReport.fault n ∈ s.drv.reports → raised .emfault t = true) ∧
    (∀ n, DrvReport.tie n ∈ s.drv.reports → raised .tie t = true) ∧
    (∀ n, DrvReport.analog n ∈ s.drv.reports → raised .aofault t = true) ∧
    t = { s with drv := t.drv, host := t.host, mgt := t.mgt, kst := t.kst })) ∧
  (∀ (b : BitVec 9) (s : State), (s.sys.dlink = false ∨ pdOn s 58 = false → exec (.tempReport b) s = .next s) ∧
    (s.sys.dlink = true → pdOn s 58 = true →
    exec (.tempReport b) s = .next { s with mrg := { s.mrg with tdie := b, newT := true } }))

/-- R108: 64 us without traffic hoods every output, keeps the D-die registers and sets the link-loss flag; the host
sees DLINK raised. R18: a DRV access in progress ends, with data while the link stands and ABSENT without it; the end of a
window's is the reply that its bus cycle waits for, the end of the debug port's its KDEBUG reply. -/
def Obligations.LinkLossHoodsAndDrvAccessEnds : Prop :=
  (∀ s : State, Gives .dlinkLoss s fun t =>
     t.drv = { s.drv with linkloss := true, lhood := true } ∧ t.sys = { s.sys with dlink := false } ∧
     (pd1Up s = true → raised .dlink t = true ∧ bit t.host.hoodst 2 = true) ∧ t.kst = s.kst ∧
     t = { s with drv := t.drv, sys := t.sys, host := t.host, mgt := t.mgt, kst := t.kst }) ∧
  (∀ (w : WIdx) (x : Access) (s : State), (win s w).acc = some x → inDrv x.addr.toNat = true →
     Gives (.drvAccessEnd (.window w)) s fun t => (win t w).acc = none ∧ exec (.windowReply w) s = .next t ∧
       ((lateTime s).sys.dlink = false → x.adm = .data → (win s w).late = [] → (win s (1 - w)).late = [] →
         (win t w).abs = true ∧ t.sys.absCount = satInc s.sys.absCount ∧ t.sys.lastAbs = x.addr)) ∧
  (∀ (x : Access) (s : State), s.jtag.acc = some x → inDrv x.addr.toNat = true →
     Gives (.drvAccessEnd .jtag) s fun t => t.jtag.acc = none ∧ exec .kdebugAccessEnd s = .next t ∧
       (s.sys.dlink = false → t.jtag.absent = true)) ∧
  (∀ (r : Requester) (s : State),
     (match r with
      | .window w => ∀ x, (win s w).acc = some x → inDrv x.addr.toNat = false
      | .jtag => ∀ x, s.jtag.acc = some x → inDrv x.addr.toNat = false
      | .kestrel _ => False
      | .mgmt | .mode => True) → exec (.drvAccessEnd r) s = .next s)

/-- R91, R92, R114: a refused command sets RESULT (3 RULE, 4 MODE, 2 BUSY) with the command and its domain in
SYS_GATESTAT, raises GATE and changes nothing else. With PD1 down or FUSE not ended SYS_GATECMD cannot be written. A domain number of 67 or more names PD0 (Table 4.6). R92: what
RULE and MODE are. -/
def Obligations.GateRefusals : Prop :=
  (∀ (c : GateCmd) (r : Requester) (pd : BitVec 7) (s : State), chainRuns s = false → exec (c.row r pd) s = .next s) ∧
  (∀ (c : GateCmd) (r : Requester) (pd : BitVec 7) (n : Fin 67) (s : State), chainRuns s = true → c ≠ .nop →
     gateDomain pd = n →
     (gateRule s c r n || gateMode s r n || s.gate.busy) = true → Gives (c.row r pd) s fun t =>
       t.gate.result = (if gateRule s c r n then 3 else if gateMode s r n then 4 else 2) ∧
       t.gate.cmd.toNat = c.code ∧ t.gate.pdReg.toNat = n.val ∧ (r ≠ .jtag → t.free = s.free) ∧ raised .gate t = true ∧
       t = { s with gate := { s.gate with result := t.gate.result, src := t.gate.src, cmd := t.gate.cmd, pdReg := t.gate.pdReg },
                    host := t.host, mgt := t.mgt, kst := t.kst, free := t.free }) ∧
  (∀ (c : GateCmd) (r : Requester) (n : Fin 67) (s : State),
     (gateRule s c r n = true ↔
       n.val = 0 ∨ (n.val = 1 ∧ (c = .down ∨ c = .update)) ∨ (n.val = 66 ∧ c = .update) ∨
       (c = .update ∧ ∃ k : KIdx, r = .kestrel k ∧ n.val = 54 + k.val) ∨
       (s.gate.pd[n] = .off ∧ (c = .reset ∨ c = .reopen))) ∧
     (r ≠ .mode → (gateMode s r n = true ↔
       s.mode.busy = true ∨ s.mode.code = .roost ∨ s.mode.code = .dormant ∨ s.mode.code = .boot ∨
       ((s.mode.code = .muster ∨ s.mode.code = .relay) ∧ 13 ≤ n.val ∧ n.val ≤ 45))))

/-- Table 4.3, R95: an accepted command by the state of its domain; NOP has no effect. The close of an eyrie waits for a
migration (PHASE 1), then for its voices (PHASE 2); any other domain drains at once (PHASE 3). -/
def Obligations.GateCommandsActAsTable : Prop :=
  (∀ (r : Requester) (pd : BitVec 7) (s : State), exec (.gateNop r pd) s = .next s) ∧
  ∀ (c : GateCmd) (r : Requester) (pd : BitVec 7) (n : Fin 67) (s : State), c ≠ .nop → gateDomain pd = n →
    gateAccepts s c r n = true →
    (s.gate.pd[n] = .on → c = .down ∨ c = .reset ∨ c = .update → Gives (c.row r pd) s fun t =>
      t.gate.pd[n] = .transit ∧ t.gate.busy = true ∧ t.gate.run = some (c, n, r) ∧ t.mem = s.mem ∧ t.mode = s.mode ∧
      t.epoch = s.epoch ∧ (∀ m : Fin 67, m ≠ n → t.gate.pd[m] = s.gate.pd[m]) ∧
      t.gate.phase = (if 13 ≤ n.val ∧ n.val ≤ 44 then
        (if s.epoch.mig then 1 else if eyrieSounding s.vox (n.val - 13) then 2 else 3) else 3)) ∧
    (s.gate.pd[n] = .off → c = .up ∨ c = .update → Gives (c.row r pd) s fun t =>
      t.gate.pd[n] = .transit ∧ t.gate.busy = true ∧ t.gate.phase = 5 ∧ t.gate.run = some (c, n, r) ∧
      (∀ m : Fin 67, m ≠ n → t.gate.pd[m] = s.gate.pd[m]) ∧ t = { s with gate := t.gate }) ∧
    (s.gate.pd[n] = .closed → c = .down ∨ c = .reset → Gives (c.row r pd) s fun t =>
      t.gate.pd[n] = .transit ∧ t.gate.busy = true ∧ t.gate.phase = 4 ∧ t.gate.run = some (c, n, r) ∧ t.mem = s.mem ∧
      (∀ u ∈ t.gate.updater, u.1 ≠ n.val)) ∧
    (s.gate.pd[n] = .closed → c = .up ∨ c = .reopen → Gives (c.row r pd) s fun t =>
      t.gate.pd[n] = .on ∧ t.gate.busy = false ∧ t.gate.result = 1 ∧ raised .gate t = true ∧ t.mem = s.mem ∧
      ∀ u ∈ t.gate.updater, u.1 ≠ n.val) ∧
    ((s.gate.pd[n] = .on ∧ (c = .up ∨ c = .reopen)) ∨ (s.gate.pd[n] = .off ∧ c = .down) ∨
      (s.gate.pd[n] = .closed ∧ c = .update) → Gives (c.row r pd) s fun t =>
      t.gate.pd = s.gate.pd ∧ t.gate.result = 1 ∧ t.gate.busy = s.gate.busy ∧ raised .gate t = true ∧
      t = { s with gate := t.gate, host := t.host, mgt := t.mgt, kst := t.kst, free := t.free })

/-- R95, R98, R88: the steps of a command in progress up to its end state, where RESULT is DONE, BUSY clears and GATE
is raised; a mode entry in progress then goes on with its next domain (R90). A power-up zeroes the domain's memory words; a
reset keeps every memory word. R112: the domain that has been CLOSED longest opens without reset, with RESULT = UPDTMO. A
step that no command waits for changes nothing. -/
def Obligations.GateStepsReachEndState : Prop :=
  let ends (n : Fin 67) (st : PdState) (s t : State) : Prop :=
    t.gate.result = 1 ∧ raised .gate t = true ∧
    (s.mode.busy = false → t.gate.pd[n] = st ∧ t.gate.busy = false ∧ t.gate.run = none ∧
      ∀ m : Fin 67, m ≠ n → t.gate.pd[m] = s.gate.pd[m]) ∧
    (s.mode.busy = true → t.gate.busy = false ∨ ∃ c m, t.gate.run = some (c, m, .mode))
  (∀ (c : GateCmd) (n : Fin 67) (r : Requester) (s : State), s.gate.run = some (c, n, r) → s.gate.busy = true →
     s.gate.pd[n] = .transit →
     (s.gate.phase = 3 → c = .down ∨ c = .reset → Gives .gateDrainEnd s fun t =>
       t.gate.phase = 4 ∧ t.gate.busy = true ∧ t.gate.pd[n] = .transit ∧ t.gate.run = some (c, n, r) ∧ t.mem = s.mem) ∧
     (s.gate.phase = 3 → c = .update → Gives .gateDrainEnd s fun t =>
       ends n .closed s t ∧ (s.mode.busy = false → (n.val, r) ∈ t.gate.updater) ∧ t.mem = s.mem) ∧
     (s.gate.phase = 4 → c = .down → Gives .gateOffDone s fun t => ends n .off s t) ∧
     (s.gate.phase = 4 → c = .reset → Gives .gateResetRelease s fun t => ends n .on s t ∧ t.mem = s.mem) ∧
     (s.gate.phase = 5 → Gives .gatePowerupDone s fun t =>
       ends n (if c = .update then .closed else .on) s t ∧
       ∀ (a m : Nat), memOf a = some m →
         rawWord t.mem a = if memDomain m = n.val then 0 else rawWord s.mem a)) ∧
  (∀ s : State, s.gate.run = none →
     exec .gateDrainEnd s = .next s ∧ exec .gateOffDone s = .next s ∧ exec .gateResetRelease s = .next s ∧
     exec .gatePowerupDone s = .next s) ∧
  (∀ s : State, (s.gate.phase ≠ 3 → exec .gateDrainEnd s = .next s) ∧ (s.gate.phase ≠ 5 → exec .gatePowerupDone s = .next s) ∧
     (s.gate.phase ≠ 4 → exec .gateOffDone s = .next s ∧ exec .gateResetRelease s = .next s)) ∧
  (∀ s : State, s.gate.updater = [] ∨ s.gate.busy = true → exec .updateTimeout s = .next s) ∧
  (∀ (n : Fin 67) (r : Requester) (rest : List (Nat × Requester)) (s : State), s.gate.updater = (n.val, r) :: rest →
     s.gate.busy = false → Gives .updateTimeout s fun t =>
       t.gate.pd[n] = .on ∧ t.gate.result = 5 ∧ t.gate.updater = rest ∧ raised .gate t = true ∧ t.mem = s.mem ∧
       t = { s with gate := t.gate, host := t.host, mgt := t.mgt, kst := t.kst, lanes := t.lanes, ckp := t.ckp,
                    vox := t.vox, free := t.free })

/-- R10, R11, R13, R117, R129: host writes of the PD0 registers: HB_ISR is write 1 to clear, HB_IER and HB_BOOTCFG
store what is written (Table 2.12's reserved bits keep reading 0), HB_RSTCAUSE is write 1 to clear, and a reserved
offset ignores the write. R141, R408: HB_HOOD is stored, and a release ends a restored look; nothing else changes
outside SERVICE but the owl, which may take the access as a kick (R135). R118: in ROOST every write but the ISR clears and
the window data writes is discarded. -/
def Obligations.HostWritesOfAonRegisters : Prop :=
  (∀ (v : Half) (s : State), HostServed s →
     let u := lateTime s
     (Gives (.registerWrite (.host (.write 8 v))) s fun t => t.host.isr = u.host.isr &&& ~~~(v.setWidth 32) ∧
       t = { u with host := { u.host with isr := t.host.isr }, owl := t.owl }) ∧
     (Gives (.registerWrite (.host (.write 10 v))) s fun t => t.host.isr = u.host.isr &&& ~~~(v.setWidth 32 <<< 16) ∧
       t = { u with host := { u.host with isr := t.host.isr }, owl := t.owl }) ∧
     (Gives (.registerWrite (.host (.write 9 v))) s fun t => t.host.ier.setWidth 16 = v ∧
       t.host.ier >>> 16 = u.host.ier >>> 16 ∧ t = { u with host := { u.host with ier := t.host.ier }, owl := t.owl }) ∧
     (Gives (.registerWrite (.host (.write 11 v))) s fun t => t.host.ier >>> 16 = v.setWidth 32 ∧
       t.host.ier.setWidth 16 = u.host.ier.setWidth 16 ∧ t = { u with host := { u.host with ier := t.host.ier }, owl := t.owl }) ∧
     (Gives (.registerWrite (.host (.write 7 v))) s fun t => t.mode.bootcfg.extractLsb' 8 8 = v.extractLsb' 8 8 ∧
       t.mode.bootcfg.setWidth 8 = u.mode.bootcfg.setWidth 8 ∧
       t = { u with mode := { u.mode with bootcfg := t.mode.bootcfg }, owl := t.owl }) ∧
     (Gives (.registerWrite (.host (.write 5 v))) s fun t => t.mode.rstcause = u.mode.rstcause &&& ~~~(v.setWidth 7) ∧
       t = { u with mode := { u.mode with rstcause := t.mode.rstcause }, owl := t.owl }) ∧
     (∀ off ∈ [(0x16 : Fin 64), 0x17, 0x1E, 0x1F, 0x30, 0x3F],
       Gives (.registerWrite (.host (.write off v))) s fun t => t = { u with owl := t.owl }) ∧
     (Gives (.hostHood v) s fun t =>
       t.host.hood = v &&& 0x01F1 ∧ t = { u with host := { u.host with hood := t.host.hood }, drv := t.drv, owl := t.owl } ∧
       (u.mode.code ≠ .service → t.drv = u.drv)) ∧
     (Gives .lookRelease s fun t => t = { u with ros := { u.ros with look := false, rhood := false }, owl := t.owl })) ∧
  (∀ (off : Fin 64) (v : Half) (s : State), s.mode.inPor = false → aonAnswers (lateTime s) = false →
     (lateTime s).mode.code = .roost → off ∉ [(8 : Fin 64), 10, 0x13, 0x1B] →
     exec (.registerWrite (.host (.write off v))) s =
       .next { lateTime s with owl := { (lateTime s).owl with lastKick := false } })

/-- R23, R25, R26, R27, R28, R83: an internal write that ends ABSENT changes nothing at its target; SYS_ABSENT and
SYS_LASTABS record it when its requester is a window or a kestrel, and a window's ABS is set; one that ends as a bus error
sets BERR beside it and raises BERR, and traps a kestrel with cause BERR. Writes to the roost-store range, whatever its
domain, and to a reserved range are ignored and end with DATA. A write to an island whose clock stands waits (R76). R10,
R15, Tables 1.8 and 4.8: an internal write of SYS_GPIO drives OUT and OE (GP1 and GP2 have no OE), and one of SYS_GATECFG
stores the nearest of 1 to 1000; the word written is whole. -/
def Obligations.InternalWritesStoreOrAbsent : Prop :=
  (∀ (r : Requester) (addr v : Word) (s : State), accessWaits s addr.toNat true = true →
     exec (.registerWrite (.internal r addr v)) s = .next s) ∧
  (∀ (r : Requester) (addr v : Word) (s : State), accessWaits s addr.toNat true = false →
     (ending s r addr.toNat (.write 4 v false) = .absent →
       (∀ w, r = .window w → Gives (.registerWrite (.internal r addr v)) s fun t =>
         t = { s with sys := { s.sys with absCount := satInc s.sys.absCount, lastAbs := addr },
                      host := { s.host with win := t.host.win } } ∧
         win t w = { win s w with abs := true } ∧ win t (1 - w) = win s (1 - w)) ∧
       (∀ k, r = .kestrel k → exec (.registerWrite (.internal r addr v)) s =
         .next { s with sys := { s.sys with absCount := satInc s.sys.absCount, lastAbs := addr } }) ∧
       (r = .mgmt ∨ r = .mode ∨ r = .jtag → exec (.registerWrite (.internal r addr v)) s = .next s)) ∧
     (ending s r addr.toNat (.write 4 v false) = .berr →
       (∀ w, r = .window w → Gives (.registerWrite (.internal r addr v)) s fun t =>
         t = { s with sys := { s.sys with absCount := satInc s.sys.absCount, lastAbs := addr }, host := t.host,
                      mgt := t.mgt, kst := t.kst } ∧
         win t w = { win s w with abs := true, berr := true } ∧ raised .berr t = true) ∧
       (∀ k, r = .kestrel k → (kes s k).rst = false → (kes s k).intrap = false →
         Gives (.registerWrite (.internal r addr v)) s fun t =>
           (kes t k).tcause = 3 ∧ (kes t k).tinfo = addr ∧ (kes t k).tpc = (kes s k).pc ∧ (kes t k).intrap = true ∧
           t.sys.lastAbs = addr ∧ t.sys.absCount = satInc s.sys.absCount ∧ t.mem = s.mem) ∧
       (r = .mgmt ∨ r = .mode ∨ r = .jtag → exec (.registerWrite (.internal r addr v)) s = .next s))) ∧
  (∀ (r : Requester) (addr v : Word) (s : State),
     (0x02000000 ≤ addr.toNat ∧ addr.toNat < 0x02040000) ∨
       (0x00160000 ≤ addr.toNat ∧ addr.toNat < 0x00700000) ∨ (0x00714000 ≤ addr.toNat ∧ addr.toNat < 0x01000000) ∨
       0x02040000 ≤ addr.toNat →
     exec (.registerWrite (.internal r addr v)) s = .next { s with free := if r = .jtag then s.free + 1 else s.free }) ∧
  (∀ (w : WIdx) (v : Word) (s : State), pdOn s 1 = true → s.ckp.frozen 1 = false →
     (Gives (.registerWrite (.internal (.window w) 0x200 v)) s fun t =>
       t.sys.gpioOut = v.setWidth 8 ∧ t.sys.gpioOe = (v >>> 8).setWidth 8 &&& 0xF9 ∧
       t = { s with sys := { s.sys with gpioOut := t.sys.gpioOut, gpioOe := t.sys.gpioOe } }) ∧
     (Gives (.registerWrite (.internal (.window w) 0x108 v)) s fun t =>
       t.gate.updtmo.toNat = min (max (v.toNat % 1024) 1) 1000 ∧
       t = { s with gate := { s.gate with updtmo := t.gate.updtmo } }))

/-- R115, R117: before FUSE ends and while PD1 is not ON the AON answers: a read outside the PD0 offsets returns 0 and a
write there is discarded, and a PD0 register is read and written; an access with both strobes low is a read. In DORMANT
every access returns 0 and wakes the device; while DORMANT is still being entered it wakes nothing (the model's choice, log
entries 73 and 80). An access that the AON does not answer is no row of this one. -/
def Obligations.AonAnswersForHostBus : Prop :=
  (∀ (a : HostAccess) (s : State), s.mode.inPor = true ∨ aonAnswers s = false → exec (.aonHostAccess a) s = .next s) ∧
  (∀ (off : Fin 64) (s : State), s.mode.inPor = false → aonAnswers s = true → s.mode.code ≠ .dormant →
    (off.val < 2 ∨ 16 ≤ off.val →
      exec (.aonHostAccess (.read off)) s =
        .next { s with host := { s.host with hd := 0 }, owl := { s.owl with lastKick := false } } ∧
      ∀ v, exec (.aonHostAccess (.write off v)) s = .next { s with owl := { s.owl with lastKick := false } }) ∧
    (2 ≤ off.val → off.val < 16 →
      (Gives (.aonHostAccess (.read off)) s fun t => t.host.hd = aonRead s off.val ∧
        t = { s with host := { s.host with hd := t.host.hd }, owl := t.owl }) ∧
      ∀ v, Gives (.aonHostAccess (.write off v)) s fun t => t = { aonWrite off.val v s with owl := t.owl }) ∧
    ∀ v, exec (.aonHostAccess (.both off v)) s = exec (.aonHostAccess (.read off)) s) ∧
  (∀ (a : HostAccess) (s : State), s.mode.code = .dormant → s.mode.inPor = false → Gives (.aonHostAccess a) s fun t =>
    (isRead a = true → t.host.hd = 0) ∧ (isRead a = false → t.host.hd = s.host.hd) ∧
    (s.mode.busy = false → t.mode.code = .boot ∧ t.mode.step = 0 ∧ t.mode.bcause = 5 ∧ raised .mode t = true) ∧
    (s.mode.busy = true → t = { s with host := t.host, owl := { s.owl with lastKick := false } } ∧ t.host.isr = s.host.isr))

/-- R121, R122, R125: the window accesses: one that finds none in progress issues, and one that finds one ends ABSENT at once.
R122, R123, R126, R127: an access in progress ends with its reply: a read's low half goes to the pins and its high half to
the latch, ADDR advances by 4 with INC = 1 (0xFFFF_FFFC to 0), and ABSENT sets ABS. The data is that of the access as it
stands, and a write has its effect once. A reply to an island whose clock stands waits (R76). R124, R128: an access without
a reply ends ABSENT by timeout with TMO set and a bus error; a write so ended that its target had accepted is performed there
later or not, and the host cannot tell; before an access to its island is performed it is. -/
def Obligations.WindowAccesses : Prop :=
  (∀ (w : WIdx) (d : Half) (s : State), HostServed s →
     let u := lateTime s
     (Gives (.windowDataLoWrite w d) s fun t =>
       win t w = { win u w with staging := d, staged := true } ∧ win t (1 - w) = win u (1 - w) ∧
       t = { u with host := { u.host with win := t.host.win }, owl := t.owl }) ∧
     ((win u w).acc = none →
       (Gives (.windowDataHiWrite w d) s fun t =>
         win t w = { win u w with
           staged := false
           acc := some { addr := (win u w).addr, data := some (d ++ (win u w).staging),
                         adm := admission u (.window w) (win u w).addr.toNat true } } ∧ win t (1 - w) = win u (1 - w) ∧
         t = { u with host := { u.host with win := t.host.win }, owl := { u.owl with lastKick := false } }) ∧
       (Gives (.windowDataLoRead w) s fun t =>
         win t w = { win u w with
           acc := some { addr := (win u w).addr, data := none, adm := admission u (.window w) (win u w).addr.toNat false } } ∧
         win t (1 - w) = win u (1 - w) ∧
         t = { u with host := { u.host with win := t.host.win }, owl := { u.owl with lastKick := false } })) ∧
     ((win u w).acc ≠ none → ∀ c ∈ [(Instr.windowDataHiWrite w d, u.host.hd), (.windowDataLoRead w, 0)], Gives c.1 s fun t =>
         (win t w).abs = true ∧ (win t w).acc = (win u w).acc ∧ t.host.hd = c.2 ∧
         t.sys = { u.sys with absCount := satInc u.sys.absCount, lastAbs := (win u w).addr } ∧
         t = { u with host := t.host, sys := t.sys, owl := { u.owl with lastKick := false } })) ∧
  ((∀ (w : WIdx) (s : State), (win s w).acc = none → exec (.windowReply w) s = .next s ∧ exec (.windowTimeout w) s = .next s) ∧
   (∀ (w : WIdx) (x : Access) (s : State), (win s w).acc = some x → accessWaits s x.addr.toNat x.data.isSome = true →
     exec (.windowReply w) s = .next s) ∧
   (∀ (w : WIdx) (x : Access) (s : State), (win s w).acc = some x → accessWaits s x.addr.toNat x.data.isSome = false →
     let v := lateSettle x.addr.toNat (lateTime s)
     let e := effectOf x.adm (.window w) x.addr.toNat (winAsk x.data) v
     let r := replyOf x.adm x.addr.toNat (winAsk x.data) v
     Gives (.windowReply w) s fun t =>
       t = { e with host := t.host, sys := t.sys, owl := t.owl, mgt := t.mgt, kst := t.kst } ∧
       (win t w).acc = none ∧ (win t w).inc = (win e w).inc ∧
       (win t w).addr = (if (win e w).inc then (win e w).addr + 4 else (win e w).addr) ∧
       (x.data = none → t.host.hd = r.data.setWidth 16 ∧ (win t w).latch = (r.data >>> 16).setWidth 16) ∧
       (r.ending = .absent → e = v ∧ (win t w).abs = true ∧
         t.sys = { v.sys with absCount := satInc v.sys.absCount, lastAbs := x.addr }) ∧
       (r.ending = .berr → e = v ∧ (win t w).abs = true ∧ (win t w).berr = true ∧ raised .berr t = true ∧
         t.sys = { v.sys with absCount := satInc v.sys.absCount, lastAbs := x.addr }) ∧
       (r.ending = .data → t.sys = e.sys ∧
         (x.data = none → r.data = (mapRead v x.addr.toNat).1 ∧
           ((mapRead v x.addr.toNat).2 = true → t.host.poison = true ∧ t.host.pwin = (w == 1) ∧ raised .poison t = true))))) ∧
  (∀ (w : WIdx) (x : Access) (s : State), (win s w).acc = some x → Gives (.windowTimeout w) s fun t =>
       (win t w).acc = none ∧ (win t w).tmo = true ∧ (win t w).abs = true ∧ raised .berr t = true ∧
       (win t w).addr = (if (win s w).inc then (win s w).addr + 4 else (win s w).addr) ∧
       t = { s with host := t.host, mgt := t.mgt, kst := t.kst, free := t.free,
                    sys := { s.sys with absCount := satInc s.sys.absCount, lastAbs := x.addr } } ∧
       (x.data = none → t.host.hd = 0 ∧ (win t w).late = (win s w).late) ∧
       (x.adm ≠ .data → (win t w).late = (win s w).late) ∧
       (∀ v, x.data = some v → (win t w).late = (win s w).late ∨ (win t w).late = (win s w).late ++ [(x.addr, v)])) ∧
  (∀ s : State, (∀ w, (win s w).late = []) → lateTime s = s ∧ ∀ a, lateSettle a s = s)

/-- R131, R132, R133, R134: posting, clearing the stage, handing over and ringing. -/
def Obligations.PostFifoAndDoorbells : Prop :=
  (∀ (d : Half) (s : State), HostServed s →
    let u := lateTime s
    Gives (.eventPostHalf d) s fun t =>
    t = { u with host := { u.host with evStage := t.host.evStage, evFifo := t.host.evFifo, evdrop := t.host.evdrop }, owl := t.owl } ∧
    (u.host.evStage.length < 7 → t.host.evStage = u.host.evStage ++ [d] ∧ t.host.evFifo = u.host.evFifo ∧
      t.host.evdrop = u.host.evdrop) ∧
    (7 ≤ u.host.evStage.length → t.host.evStage = [] ∧
      (u.host.evFifo.length < 16 → t.host.evFifo = u.host.evFifo ++ [eventOf (u.host.evStage ++ [d])] ∧
        t.host.evdrop = u.host.evdrop) ∧
      (16 ≤ u.host.evFifo.length → t.host.evFifo = u.host.evFifo ∧ t.host.evdrop = satInc u.host.evdrop))) ∧
  (∀ s : State, HostServed s → Gives .eventStageClear s fun t =>
    t = { lateTime s with host := { (lateTime s).host with evStage := [] }, owl := t.owl }) ∧
  (∀ s : State, s.host.evFifo = [] → exec .eventHandover s = .next s) ∧
  (∀ (e : EvBytes) (es : List EvBytes) (s : State), s.host.evFifo = e :: es →
    (pdOn s 12 = false → Gives .eventHandover s fun t =>
      t.host.evFifo = es ∧ t.host.evdrop = satInc s.host.evdrop ∧ t.dis = s.dis) ∧
    (pdOn s 12 = true → Gives .eventHandover s fun t => t.host.evFifo = es ∧ t.host.evdrop = s.host.evdrop ∧
      t.dis = (acceptEvent .house e { s with host := { s.host with evFifo := es } }).dis) ∧
    (16 - es.length = s.host.lowat.toNat → Gives .eventHandover s fun t => raised .evspace t = true)) ∧
  (∀ (m : BitVec 4) (s : State), HostServed s → Gives (.doorbellRing m) s fun t =>
    t = { lateTime s with host := { (lateTime s).host with dbk := (lateTime s).host.dbk ||| m }, owl := t.owl })

/-- R135, R138, R139: a kick with the key reloads the count of an enabled owl and lifts the owl hood; a wrong key only
sets BADKICK. With ANY = 1 an access with its normal effect is a kick, but for a window data access, which is one when it
ends; with ANY = 0 it ends the chance to write HB_OWLCFG. While EN = 1 HB_OWLCFG is written only right after a kick. R136,
R137, Table 5.5: an expiry sets EXP, raises OWL and reloads the count; ACT = 1 hoods, ACT = 2 resets, ACT = 3 hoods at the
first expiry and resets at the next without a kick between. An access that holds HRDY too long is an expiry with HRDYEN = 1,
whether or not the owl counts. -/
def Obligations.OwlKicksAndExpiries : Prop :=
  (∀ (s : State), s.mode.inPor = false → (lateTime s).mode.code ≠ .roost → (lateTime s).mode.code ≠ .dormant →
     let u := lateTime s
     (Gives (.owlKick (.key 0x6F77)) s fun t =>
       t = { u with owl := { u.owl with count := t.owl.count, lastKick := true, strike := false, hooded := false } } ∧
       t.owl.count.toNat = if u.owl.on then fld u.owl.cfg 0 7 * 64 else u.owl.count.toNat) ∧
     (∀ v ≠ 0x6F77, exec (.owlKick (.key v)) s = .next { u with owl := { u.owl with badkick := true, lastKick := false } }) ∧
     (u.owl.on = true → bit u.owl.cfg 12 = true → exec (.owlKick .access) s = .next { u with owl := u.owl.kick }) ∧
     (u.owl.on = false ∨ bit u.owl.cfg 12 = false →
       exec (.owlKick .access) s = .next { u with owl := { u.owl with lastKick := false } }) ∧
     (∀ v, u.owl.on = true → u.owl.lastKick = false → Gives (.owlConfig v) s fun t =>
       t.owl.cfg = u.owl.cfg ∧ t = { u with owl := t.owl }) ∧
     (∀ v, u.owl.on = false ∨ u.owl.lastKick = true → Gives (.owlConfig v) s fun t =>
       t.owl.cfg = applyWrite owlcfgFields u.owl.cfg v ∧ t = { u with owl := t.owl } ∧
       t.owl.count.toNat = if bit t.owl.cfg 15 then fld t.owl.cfg 0 7 * 64 else 0)) ∧
  (∀ (off : Fin 64) (s : State), HostServed s → Gives (.registerWrite (.host (.read off))) s fun t =>
     t.owl = if (lateTime s).owl.on && bit (lateTime s).owl.cfg 12 && off != 0x12 && off != 0x1A then (lateTime s).owl.kick
             else { (lateTime s).owl with lastKick := false }) ∧
  (∀ s : State, (owlRuns s = false → exec .owlExpiry s = .next s) ∧ (owlRuns s = true →
     (fld s.owl.cfg 13 2 = 0 → Gives .owlExpiry s fun t => t.owl = s.owl.expired false ∧ raised .owl t = true ∧
       t = { s with owl := t.owl, host := t.host }) ∧
     (fld s.owl.cfg 13 2 = 1 → Gives .owlExpiry s fun t => t.owl = { s.owl.expired false with hooded := true } ∧
       raised .owl t = true ∧ t = { s with owl := t.owl, host := t.host }) ∧
     (fld s.owl.cfg 13 2 = 2 ∨ (fld s.owl.cfg 13 2 = 3 ∧ s.owl.strike = true) → Gives .owlExpiry s fun t =>
       t.mode.code = .boot ∧ t.mode.bcause = 3 ∧ t.mode.keepBoot = false) ∧
     (fld s.owl.cfg 13 2 = 3 → s.owl.strike = false → Gives .owlExpiry s fun t =>
       t.owl = { s.owl.expired false with hooded := true, strike := true } ∧ raised .owl t = true ∧
       t = { s with owl := t.owl, host := t.host }))) ∧
  (∀ s : State, (bit s.owl.cfg 11 = false ∨ (∀ w, (win s w).acc = none) → exec .owlHrdyExpiry s = .next s) ∧
     (bit s.owl.cfg 11 = true → (∃ w, (win s w).acc ≠ none) →
       (fld s.owl.cfg 13 2 = 0 → Gives .owlHrdyExpiry s fun t => t.owl = s.owl.expired true ∧ raised .owl t = true) ∧
       (fld s.owl.cfg 13 2 = 1 → Gives .owlHrdyExpiry s fun t =>
         t.owl = { s.owl.expired true with hooded := true } ∧ raised .owl t = true) ∧
       (fld s.owl.cfg 13 2 = 2 ∨ (fld s.owl.cfg 13 2 = 3 ∧ s.owl.strike = true) → Gives .owlHrdyExpiry s fun t =>
         t.mode.code = .boot ∧ t.mode.bcause = 3) ∧
       (fld s.owl.cfg 13 2 = 3 → s.owl.strike = false → Gives .owlHrdyExpiry s fun t =>
         t.owl = { s.owl.expired true with hooded := true, strike := true } ∧ raised .owl t = true)))

/-- R262, Table 10.7: a commit, by the host's write of HB_EPOCH.COMMIT or by an internal write of VOX_EPOCH.COMMIT that ends with
data, is accepted, held while a migration runs or BUSY is set, or dropped while one is held; in ROOST it is discarded. R263,
R264: the snapshot ends with SNAP 0; the migration ends with CUR changed over, NUM counted and EPOCH raised, and a held commit
is then accepted. -/
def Obligations.EpochCommitsAndMigrations : Prop :=
  let commits (c : Instr) (s u : State) : Prop :=
    (u.mode.code = .roost → exec c s = .next u) ∧
    (u.mode.code ≠ .roost → u.epoch.held = true → Gives c s fun t =>
      t.epoch = { u.epoch with commitDrop := true } ∧ raised .comdrop t = true ∧
      t = { u with epoch := t.epoch, host := t.host, mgt := t.mgt, owl := t.owl }) ∧
    (u.mode.code ≠ .roost → u.epoch.held = false → (u.epoch.mig || u.mode.busy) = true →
      Gives c s fun t => t = { u with epoch := { u.epoch with held := true }, owl := t.owl }) ∧
    (u.mode.code ≠ .roost → u.epoch.held = false → (u.epoch.mig || u.mode.busy) = false →
      Gives c s fun t => t = { u with epoch := t.epoch, owl := t.owl } ∧
        t.epoch = { u.epoch with snap := true, mig := true, stepNo := none, set0 := t.epoch.set0, set1 := t.epoch.set1 } ∧
        (u.epoch.cur = false → t.epoch.set1 = u.epoch.stage ∧ t.epoch.set0 = u.epoch.set0) ∧
        (u.epoch.cur = true → t.epoch.set0 = u.epoch.stage ∧ t.epoch.set1 = u.epoch.set1))
  (∀ s : State, HostServed s → commits .epochCommit s (lateTime s)) ∧
  (∀ (r : Requester) (s : State), accessWaits s 0x00050010 true = false →
    ending s r 0x00050010 (.write 4 0x80000000 false) = .data →
    commits (.registerWrite (.internal r 0x00050010 0x80000000)) s (if r = .jtag then { s with free := s.free + 1 } else s)) ∧
  ((∀ s : State, exec .epochSnapshotDone s = .next { s with epoch := { s.epoch with snap := false } }) ∧
   (∀ s : State, s.epoch.mig = false ∨ s.epoch.stepNo ≠ some 32 → exec .epochMigrationDone s = .next s) ∧
   (∀ s : State, s.epoch.mig = true → s.epoch.stepNo = some 32 → Gives .epochMigrationDone s fun t =>
     t.epoch.mig = (s.epoch.held && !s.mode.busy) ∧ t.epoch.cur = (!s.epoch.cur) ∧ t.epoch.num = s.epoch.num + 1 ∧ raised .epoch t = true ∧
     (s.epoch.held = true → s.mode.busy = false → t.epoch.held = false ∧ t.epoch.snap = true) ∧ (s.gate.vacating = none → t.vox = s.vox) ∧
     t.mem = s.mem))

/-- R145, R149, R151, R155: a lane in HUNT that reaches CDR lock at the rate it is trying, which is the other lane's where that
one holds lock, starts the repeat, reports the hop latency and, on a relock, counts it and sets HOPCHG; the port's recovered
clock is live (R61) and the other port is untouched. In HUNT the rates are tried from RATEMAX downward, then again from
RATEMAX (R150). R149, R153: a lane converges to READY; when both lanes are READY and deskewed the port is aligned and RATE is
set. -/
def Obligations.LanesTrain : Prop :=
  ((∀ (p : PortIdx) (l : Fin 2) (rate : BitVec 2) (d : Half) (s : State),
     let r := (lport s p).lane l
     let o := (lport s p).lane (1 - l)
     (r.st = .hunt → rate = r.rate → rate ≠ 3 → (o.locked? = true → o.rate = rate) → laneOn s (rxDomain p l) = true →
       Gives (.laneCdrLock p l rate d) s fun t =>
         (lport t p).lane l = { r with st := .adapt, los := false, rate := rate, locked := true } ∧ (lport t p).lane (1 - l) = o ∧
         lport t p = { lport s p with rx := (lport t p).rx, repeating := true, hopdly := d,
                                      hopchg := (lport s p).hopchg || r.locked, prs := true, moduleDef := false,
                                      relock := if r.locked then satInc (lport s p).relock else (lport s p).relock } ∧
         t.ckp.isLive (recovered p) = true ∧ lport t (otherPort p) = lport s (otherPort p) ∧
         t = { s with lanes := { s.lanes with port := t.lanes.port }, ckp := t.ckp, host := t.host, mgt := t.mgt, kst := t.kst }) ∧
     (r.st ≠ .hunt ∨ rate ≠ r.rate ∨ rate = 3 ∨ (o.locked? = true ∧ o.rate ≠ rate) ∨ laneOn s (rxDomain p l) = false →
       exec (.laneCdrLock p l rate d) s = .next s)) ∧
   (∀ (p : PortIdx) (l : Fin 2) (s : State), Gives (.laneRateTimeout p l) s fun t =>
       (((lport s p).lane l).st ≠ .hunt → t = s) ∧
       (((lport s p).lane l).st = .hunt → (lport t p).lane l = { (lport s p).lane l with
         rate := if ((lport s p).lane l).rate.toNat < 2 ∧ (lport s p).ratemax.toNat ≤ ((lport s p).lane l).rate.toNat then
           ((lport s p).lane l).rate + 1 else (lport s p).ratemax }) ∧
       (lport t p).lane (1 - l) = (lport s p).lane (1 - l) ∧ lport t (otherPort p) = lport s (otherPort p) ∧
       t = { s with lanes := { s.lanes with port := t.lanes.port } })) ∧
  (∀ (p : PortIdx) (l : Fin 2) (s : State),
     let r := (lport s p).lane l
     let o := (lport s p).lane (1 - l)
     (r.st = .adapt ∨ (r.st = .ready ∧ (lport s p).aligned = false) →
       (o.st = .ready → Gives (.laneConverged p l true) s fun t =>
         (lport t p).lane l = { r with st := .ready } ∧ (lport t p).aligned = true ∧ (lport t p).rate = r.rate ∧
         (lport t p).alignDef = false ∧ t = { s with lanes := { s.lanes with port := t.lanes.port } }) ∧
       (o.st = .ready → Gives (.laneConverged p l false) s fun t =>
         (lport t p).lane l = { r with st := .ready } ∧ (lport t p).aligned = false ∧ (lport t p).alignDef = true ∧
         t = { s with lanes := { s.lanes with port := t.lanes.port }, host := t.host, mgt := t.mgt, kst := t.kst }) ∧
       (o.st ≠ .ready → ∀ d, Gives (.laneConverged p l d) s fun t =>
         (lport t p).lane l = { r with st := .ready } ∧ (lport t p).aligned = (lport s p).aligned ∧
         t = { s with lanes := { s.lanes with port := t.lanes.port } })) ∧
     (r.st ≠ .adapt → (r.st = .ready → (lport s p).aligned = true) → ∀ d, exec (.laneConverged p l d) s = .next s))

/-- R149, R160, R164, R63: loss of signal sends the lane to HUNT, counts, raises LOS and kills the port's recovered
clock; a loss of lock sends it to HUNT; each takes an UP port to WRAPPED or ISOLATED with the cause recorded. A port dark
since reset records CAUSE 1 (log entry 24). R160, R161, R164: the other defects of a port that is UP: a removed module,
received TRAIN, lost alignment and a forced wrap. The port goes to WRAPPED, or to ISOLATED when the other port has a defect
too. A port in another state records the condition too; TRAIN is a defect of an UP port only. -/
def Obligations.DefectsWrapPorts : Prop :=
  (∀ (p : PortIdx) (l : Fin 2) (s : State),
     (((lport s p).lane l).st = .off → exec (.laneLos p l) s = .next s) ∧
     (((lport s p).lane l).los = true → ((lport s p).lane l).st ≠ .off → (lport s p).cause = 0 → Gives (.laneLos p l) s fun t =>
       (lport t p).cause = 1 ∧ (lport t p).rx = (lport s p).rx ∧ (lport t p).loscnt = (lport s p).loscnt ∧
       ((lport t p).state = .wrapped ∨ (lport t p).state = .isolated) ∧
       t = { s with lanes := { s.lanes with port := t.lanes.port }, host := t.host, mgt := t.mgt, kst := t.kst }) ∧
     (((lport s p).lane l).los = false → ((lport s p).lane l).st ≠ .off → Gives (.laneLos p l) s fun t =>
       ((lport t p).lane l).st = .hunt ∧ ((lport t p).lane l).los = true ∧ ((lport t p).lane l).rate = (lport s p).ratemax ∧
       (lport t p).aligned = false ∧
       (lport t p).loscnt = satInc (lport s p).loscnt ∧ raised .los t = true ∧ t.ckp.isLive (recovered p) = false ∧
       t = { s with lanes := { s.lanes with port := t.lanes.port }, ckp := t.ckp, host := t.host, mgt := t.mgt, kst := t.kst } ∧
       ((lport s p).state = .up → (lport t p).cause = 1 ∧ raised .wrap t = true ∧
         ((lport t p).state = .wrapped ∨ (lport t p).state = .isolated))) ∧
     (((lport s p).lane l).locked? = false → exec (.laneLockLoss p l) s = .next s) ∧
     (((lport s p).lane l).locked? = true → Gives (.laneLockLoss p l) s fun t =>
       ((lport t p).lane l).st = .hunt ∧ ((lport t p).lane l).rate = (lport s p).ratemax ∧ (lport t p).aligned = false ∧
       t = { s with lanes := { s.lanes with port := t.lanes.port }, host := t.host, mgt := t.mgt, kst := t.kst } ∧
       ((lport s p).state = .up → (lport t p).cause = 2 ∧ raised .wrap t = true ∧
         ((lport t p).state = .wrapped ∨ (lport t p).state = .isolated)))) ∧
  (∀ (p : PortIdx) (s : State),
     ∀ x ∈ [(Instr.moduleRemoved p, (5 : BitVec 3)), (.trainReceived p, 4), (.alignmentLoss p, 3), (.forceWrap p true, 7)],
       (x.2 = 7 → pdOn s (2 + p.val) = true) → (x.2 = 4 → (lport s p).state = .up) → Gives x.1 s fun t =>
         (x.2 = 5 → (lport t p).moduleDef = true ∧ (lport t p).prs = false) ∧ (x.2 = 4 → (lport t p).trainDef = true) ∧
         (x.2 = 3 → (lport t p).alignDef = true ∧ (lport t p).aligned = false ∧ (lport t p).tap = false) ∧
         (x.2 = 7 → bit (lport t p).wrapcfg 0 = true ∧ ((lport t p).state = .wrapped ∨ (lport t p).state = .isolated)) ∧
         t = { s with lanes := { s.lanes with port := t.lanes.port }, host := t.host, mgt := t.mgt, kst := t.kst } ∧
         ((lport s p).state = .up →
           (lport t p).state = (if hasDefect s (otherPort p) then .isolated else .wrapped) ∧ (lport t p).cause = x.2 ∧
           (lport t p).wrapcnt = satInc (lport s p).wrapcnt ∧ raised .wrap t = true)) ∧
  (∀ (p : PortIdx) (s : State),
     ((lport s p).state ≠ .up → exec (.trainReceived p) s = .next s) ∧
     (pdOn s (2 + p.val) = false → ∀ on, exec (.forceWrap p on) s = .next s) ∧
     (pdOn s (2 + p.val) = true → Gives (.forceWrap p false) s fun t =>
       lport t p = { lport s p with wrapcfg := setBit (lport s p).wrapcfg 0 false } ∧
       lport t (otherPort p) = lport s (otherPort p) ∧ t = { s with lanes := { s.lanes with port := t.lanes.port } }))

/-- R161, R163, R164: a port without a defect and aligned arms from WRAPPED or ISOLATED, which takes an ISOLATED other port to
WRAPPED, and comes up from ARMED with LOCKOUT = 0; a turn engages for the ring that leaves through the other port's break.
Each move counts and raises WRAP. In any other case nothing happens. -/
def Obligations.PortArmsTurnsAndComesUp : Prop :=
  ∀ (p : PortIdx) (s : State),
    let q := otherPort p
    (hardDefect s p = false → (lport s p).aligned = true → (lport s p).state = .wrapped ∨ (lport s p).state = .isolated →
      Gives (.portArmed p) s fun t =>
      (lport t p).state = .armed ∧ (lport t p).wrapcnt = satInc (lport s p).wrapcnt ∧ raised .wrap t = true ∧
      ((lport s q).state ≠ .isolated → lport t q = lport s q) ∧
      ((lport s q).state = .isolated → lport t q = { lport s q with state := .wrapped, wrapcnt := satInc (lport s q).wrapcnt }) ∧
      t = { s with lanes := { s.lanes with port := t.lanes.port }, host := t.host, mgt := t.mgt, kst := t.kst }) ∧
    (hardDefect s p = true ∨ (lport s p).aligned = false ∨ (lport s p).state = .up ∨ (lport s p).state = .armed →
      exec (.portArmed p) s = .next s) ∧
    ((lport s p).state = .armed → bit (lport s p).wrapcfg 1 = false → Gives (.portUp p) s fun t =>
      (lport t p).state = .up ∧ (lport t p).wrapcnt = satInc (lport s p).wrapcnt ∧ (lport t p).trainDef = false ∧
      lport t q = lport s q ∧ raised .wrap t = true ∧
      t = { s with lanes := { s.lanes with port := t.lanes.port }, host := t.host, mgt := t.mgt, kst := t.kst }) ∧
    ((lport s p).state ≠ .armed ∨ bit (lport s p).wrapcfg 1 = true → exec (.portUp p) s = .next s) ∧
    ((lport s q).state = .wrapped ∨ (lport s q).state = .armed → (lport s q).cause ≠ 0 ∨ hasDefect s q = true →
      hardDefect s p = false → (lport s p).state ≠ .isolated → s.chn.role ≠ 1 →
      Gives (.turnEngage p) s fun t => lport t p = { lport s p with turned := true } ∧ lport t q = lport s q ∧
        t = { s with lanes := { s.lanes with port := t.lanes.port } }) ∧
    (((lport s q).state ≠ .wrapped ∧ (lport s q).state ≠ .armed) ∨ ((lport s q).cause = 0 ∧ hasDefect s q = false) ∨
      hardDefect s p = true ∨ (lport s p).state = .isolated ∨ s.chn.role = 1 → exec (.turnEngage p) s = .next s)

/-- R165: the module sideband: a write of CHx_MSBCMD is stored, and GO starts one transaction unless one runs, which ends with
an acknowledge (a read gives RDATA), a NACK or a timeout. -/
def Obligations.SidebandTransactions : Prop :=
  ∀ (p : PortIdx) (s : State),
    let x := lport s p
    let only (t : State) : Prop :=
      lport t (otherPort p) = lport s (otherPort p) ∧ t = { s with lanes := { s.lanes with port := t.lanes.port } }
    (∀ v : Word, pdOn s (2 + p.val) = false → exec (.msbGo p v) s = .next s) ∧
    (∀ v : Word, pdOn s (2 + p.val) = true → Gives (.msbGo p v) s fun t => only t ∧
      (x.msbBusy = false → bit v 31 = true → lport t p = { x with
        msbCmd := applyWrite msbFields x.msbCmd v, msbBusy := true, msbNack := false, msbTmo := false, msbRd := bit v 24 }) ∧
      (x.msbBusy = true ∨ bit v 31 = false → lport t p = { x with msbCmd := applyWrite msbFields x.msbCmd v })) ∧
    (∀ (nack : Bool) (rdata : Byte), Gives (.msbDone p nack rdata) s fun t => only t ∧
      lport t p = if x.msbBusy then
        { x with msbBusy := false, msbNack := nack, msbRdata := if x.msbRd && !nack then rdata else x.msbRdata } else x) ∧
    (Gives (.msbTimeout p) s fun t => only t ∧
      lport t p = if x.msbBusy then { x with msbBusy := false, msbTmo := true } else x)

/-- R29, R76, R181, R189, R404: a tick boundary moves chain time on by one tick and sets PEND.TICK of every kestrel; in ROOST
only chain time moves, and a vacate that a sag found under way (log entry 82). A frame boundary starts the next frame,
composes the uplink cells and sets PEND.FRAME. While the SYS island's clock stands, none comes. When no valid frame arrives
the device is in FREERUN, with FRAMES raised once. -/
def Obligations.TickAndFrameBoundaries : Prop :=
  ∀ s : State,
    (chainCounts s = false → exec .tickBoundary s = .next s ∧ exec .frameBoundary s = .next s) ∧
    (chainCounts s = true → s.mode.code = .roost → exec .tickBoundary s = .next (vacateTick (reachTick (s.chn.tick + 1) s)) ∧
      (s.gate.vacating = none → Gives .tickBoundary s fun t =>
        t = { s with chn := { s.chn with tick := s.chn.tick + 1, ticks := s.chn.ticks + 1, ctime := t.chn.ctime } } ∧
        t.chn.ctime = ctimeAt s.chn.ctime (tickTime (s.chn.tick + 1)))) ∧
    (chainCounts s = true → s.mode.code ≠ .roost → Gives .tickBoundary s fun t =>
      t.chn.tick = s.chn.tick + 1 ∧ t.chn.ticks = s.chn.ticks + 1 ∧ t.mode = s.mode ∧
      t.chn.ctime = ctimeAt s.chn.ctime (tickTime (s.chn.tick + 1)) ∧ ∀ k : KIdx, bit (t.kst.core[k]).pend 2 = true) ∧
    (chainCounts s = true → (isHead s && s.head.ctsetGo) = false → Gives .frameBoundary s fun t =>
      t.chn.tick + 1 = (s.chn.tick / 6 + 1) * 6 ∧ t.mode = s.mode ∧ t.chn.fecNew = 0 ∧ t.chn.ticks = s.chn.ticks ∧
      (s.drv.liftAtFrame = true → t.drv.modeHood = false ∧ t.ros.look = false) ∧
      ∀ k : KIdx, bit (t.kst.core[k]).pend 3 = true) ∧
    (chainCounts s = true → isHead s = true → s.head.ctsetGo = true → Gives .frameBoundary s fun t =>
      t.head.ctsetGo = false ∧
      t.chn.ctime = BitVec.ofNat 64 ((s.head.ctsetHi.toNat * 4294967296 + s.head.ctsetLo.toNat) * frameUnits)) ∧
    (pd1Up s = true → s.chn.freerun = false → Gives .frameMissing s fun t =>
      t.chn = { s.chn with freerun := true, miss := true, framesNow := false, lockRun := 0, lock := originates s,
                           last := t.chn.last } ∧
      (∀ (p : PortIdx) (r : RingFrame), vget t.chn.last p none = some r → r.valid = false) ∧
      raised .frames t = true ∧ t = { s with chn := t.chn, host := t.host, mgt := t.mgt, kst := t.kst }) ∧
    (pd1Up s = false ∨ s.chn.freerun = true → exec .frameMissing s = .next s)

/-- R169, R172, R173, R182, R184, R186, R189, R193: a frame is descrambled, sent on and decoded by the tap; one without a good
header, or from a head above the elected one, changes nothing of chain time but that its ring is not valid; a good one ends
FREERUN and is remembered for its ring. What a lane that sends the ring on forwards is the frame with ACC rewritten. CHN does
not hear a port whose domain is not ON. The servo: an error above 1 us steps CTIME and clears LOCK, a smaller one slews, and
LOCK is set by the eighth frame within 5 ns. -/
def Obligations.FramesReachChainTime : Prop :=
  let spoilt (s t : State) : Prop :=
    t = { s with chn := t.chn, lanes := t.lanes, ckp := t.ckp, host := t.host, mgt := t.mgt, kst := t.kst } ∧
    t.chn = { s.chn with sent := t.chn.sent, fecNew := t.chn.fecNew, last := t.chn.last, frozen := t.chn.frozen,
                         tring := t.chn.tring }
  (∀ (f : FrameRx) (s : State), goodHeader s (clearFrame f) = none ∨ chnHears s (ringPort f.ring) = false →
    Gives (.frameReceived f) s fun t => spoilt s t ∧
      (chnHears s (ringPort f.ring) = false ∨ s.chn.role = 1 → t.chn.last = s.chn.last ∧ t.ckp = s.ckp)) ∧
  (∀ (f : FrameRx) (h : Header) (s : State), goodHeader s (clearFrame f) = some h → chnHears s (ringPort f.ring) = true →
    s.chn.role ≠ 1 →
    (s.chn.huid ≠ 0 → s.chn.huid < h.headuid → Gives (.frameReceived f) s fun t => spoilt s t) ∧
    (h.headuid = s.chn.huid → Gives (.frameReceived f) s fun t =>
      t.chn.framesNow = true ∧ t.chn.freerun = false ∧
      vget t.chn.last f.ring.toNat none = some (ringFrame (clearFrame f) h (usableAcc (clearFrame f)))) ∧
    (h.headuid = s.chn.huid → ∀ l : Fin 2,
      let p := ringPort f.ring
      let u := endTurn p s
      sendsOn u p l = true → uplinkSent u p = [] → regenerates u p = false → Gives (.frameReceived f) s fun t =>
        (if l = 0 then (t.chn.sent[p]).1 else (t.chn.sent[p]).2) =
          scrambleLane (putUplink ((lport u p).lane l).rate l.val u.chn.pos.toNat []
            (hopHalf (addend u p h) (lport u p).turned (frHalf (clearFrame f) l) ++ frRest (clearFrame f) l)))) ∧
  (∀ (now : Quad) (target : Int) (c : Chn),
    (servo now target true c).err = BitVec.ofInt 32 ((now.toNat : Int) - target) ∧
    ((134217 < ((now.toNat : Int) - target).natAbs) →
      (servo now target true c).step = true ∧ (servo now target true c).lock = false ∧
      (servo now target true c).tick = tickOf (servo now target true c).ctime.toNat) ∧
    (((now.toNat : Int) - target).natAbs ≤ 134217 →
      (servo now target true c).step = c.step ∧ (servo now target true c).tick = c.tick ∧
      (servo now target true c).lock = (c.lock || (decide (((now.toNat : Int) - target).natAbs ≤ 671) && decide (7 ≤ c.lockRun)))))

/-- R191, R194, R195, R180: what a head does: it launches a frame with its header and its queued cells on both rings, probes
when one is due, starts a re-muster, queues cells (one more than 64 sets HTXDROP), loads the count, compares genlock edges,
takes HELLOs and counts an uplink cell whose CRC fails. Without the role none of these acts. R35, R39: a trigger that comes
while BUSY = 1 waits for its end. -/
def Obligations.HeadActsInItsRole : Prop :=
  ∀ s : State,
    (originates s = false → exec .headFrameLaunch s = .next s ∧ ∀ r u c, exec (.uplinkCell r u c) s = .next s) ∧
    (originates s = true →
      let cells := placeCells (bit s.head.cfg 14) s.chn.tring 0 0 s.head.queue
      let probe := !s.head.counting && (s.head.probing || probeDue s)
      ∃ t, exec .headFrameLaunch s = .next (ownDelivery cells t) ∧
        t.head.queue = [] ∧ t.head.txCells = cells ∧ t.chn.lock = true ∧ t.head.probing = false ∧
        t = { s with chn := t.chn, head := t.head } ∧
        ∀ (r : PortIdx) (l : Fin 2), (if l = 0 then (t.chn.sent[r]).1 else (t.chn.sent[r]).2) =
          if s.jtag.ir.testing || !laneOn s (txDomain (otherPort r) l) || sendsTrain s (otherPort r) then []
          else scrambleLane (laneFrame (lport s r).ratemax (headHalf (headFields s (r == 1) probe))
            (laneCells l.val (downCells (bit s.head.cfg 14) (r == 1) (lport s r).ratemax cells)) (laneCells l.val (upCells s r)))) ∧
    (exec .headProbe s = .next { s with head := { s.head with probing := s.head.probing || probeDue s } }) ∧
    ((pd1Up s = false ∨ s.chn.role ≠ 1 → exec .headRemuster s = .next s) ∧
     (pd1Up s = true → s.chn.role = 1 →
      (s.mode.code = .muster ∨ s.mode.code = .service → Gives .headRemuster s fun t =>
        t.chn.mepoch = s.chn.mepoch + 1 ∧ t.head.counting = true ∧ t.head.cmd = 1 ∧ t.mode = s.mode ∧
        t = { s with chn := t.chn, head := t.head }) ∧
      (s.mode.code = .relay ∨ s.mode.code = .show → s.mode.busy = true → exec .headRemuster s =
        .next { s with mode := { s.mode with held := s.mode.held ++ [.remuster] } }) ∧
      (s.mode.code = .relay ∨ s.mode.code = .show → s.mode.busy = false → Gives .headRemuster s fun t =>
        t.mode.code = .muster ∧ t.mode.busy = true ∧
        (candidate? s = true → t.chn.mepoch = s.chn.mepoch + 1 ∧ t.head.counting = true)))) ∧
    ((∀ v : Word, chainRuns s = false → exec (.headCandidateEnable v) s = .next s) ∧
     ∀ v : Word, chainRuns s = true → bit v 31 = false →
      (candidate? s = true ∨ (s.mode.busy = false ∧ (s.mode.code = .solo → bit s.mode.bootcfg 10 = false) ∧
          ¬(s.mode.code = .boot ∧ s.mode.step = 5)) → Gives (.headCandidateEnable v) s fun t =>
        bit t.head.cfg 15 = true ∧ t = { s with head := { s.head with cfg := t.head.cfg } }) ∧
      (candidate? s = false → s.mode.code = .solo → s.mode.busy = true → Gives (.headCandidateEnable v) s fun t =>
        t = { s with head := { s.head with cfg := t.head.cfg }, mode := { s.mode with held := s.mode.held ++ [.candidate] } }) ∧
      (candidate? s = false → s.mode.code = .solo → bit s.mode.bootcfg 10 = true → s.mode.busy = false → s.chn.role ≠ 2 →
        Gives (.headCandidateEnable v) s fun t =>
          t.mode.code = .muster ∧ t.mode.busy = true ∧ t.chn.role = 1 ∧ t.chn.huid = Config.uid ∧ t.chn.held = true ∧
          t.chn.pos = 0)) ∧
    (∀ r : BitVec 2, (chainRuns s = false → exec (.headCellQueue r) s = .next s) ∧
     (chainRuns s = true → Gives (.headCellQueue r) s fun t =>
      t = { s with head := { s.head with queue := t.head.queue, htxRing := t.head.htxRing, htxdrop := t.head.htxdrop } } ∧
      (s.head.queue.length < 64 → t.head.queue = s.head.queue ++ [((List.range 68).map fun i => cget zeroCell s.head.htxbuf i,
        if r = 3 then 0 else r)] ∧ t.head.htxdrop = s.head.htxdrop) ∧
      (64 ≤ s.head.queue.length → t.head.queue = s.head.queue ∧ t.head.htxdrop = true))) ∧
    (∀ hi : Byte, (chainRuns s = false → exec (.ctsetLoad hi) s = .next s) ∧
      (chainRuns s = true → exec (.ctsetLoad hi) s = .next { s with head :=
        { s.head with ctsetHi := hi, ctsetGo := s.head.ctsetGo || isHead s } })) ∧
    (genlockOn s = false → exec .genlockLoss s = .next s ∧ ∀ r t0, exec (.genlockEdge r t0) s = .next s) ∧
    (∀ (r : Bool) (t0 : Quad), genlockOn s = true →
      (r = bit s.head.gen 30 → exec (.genlockEdge r t0) s = .next s) ∧
      (r = (!bit s.head.gen 30) → Gives (.genlockEdge r t0) s fun t =>
      t = { s with head := t.head, free := t.free } ∧
      (s.head.genEdges + 1 < fld s.head.gen 16 8 → t.head = { s.head with genEdges := s.head.genEdges + 1 }) ∧
      (fld s.head.gen 16 8 ≤ s.head.genEdges + 1 → t.head.genEdges = 0 ∧ -100000 ≤ t.head.trim ∧ t.head.trim ≤ 100000 ∧
        (-8388608 ≤ genlockError s.head.gen t0 → genlockError s.head.gen t0 < 8388608 →
          t.head.pherr.toInt = genlockError s.head.gen t0)))) ∧
    (genlockOn s = true → exec .genlockLoss s =
      .next { s with head := { s.head with genlk := false, genRun := 0, genEdges := 0 } }) ∧
    (∀ (r : Bool) (u : Fin 1024) (c : CellBytes), originates s = true →
      (cellCrcOk c = false → exec (.uplinkCell r u c) s = .next { s with chn := { s.chn with uperr := satInc s.chn.uperr } }) ∧
      (cellCrcOk c = true → cellType c = 6 → cellAux c % 16 = 2 →
        Gives (.uplinkCell r u c) s fun t => u.val ∈ t.head.hellos ∧
          t = { s with head := t.head, chn := t.chn, lanes := t.lanes } ∧
          (s.head.counting = false → t = { s with head := { s.head with hellos := t.head.hellos } })) ∧
      (cellCrcOk c = true → ¬(cellType c = 6 ∧ cellAux c % 16 = 2) → (cellType c ≠ 5 ∨ 2 ≤ cellAux c / 256 ∨ bit s.mgt.cfg 1 = false) →
        exec (.uplinkCell r u c) s = .next s))

/-- R107, R153, R174, R176, R190, R192, R201, R206, R218: a tap that is not ON, aligned and in step delivers no cell; one that
fails its code or CRC counts CELLERR, and one that is not addressed here or was delivered before has no effect. A delivered
STREAM cell of a FREE session or of a source that is not permitted, and a PARAM or STRIKE in MUSTER or RELAY, count DROP; an
ASSIGN gives a late position; a claim is logged. -/
def Obligations.CellsAreTakenOnce : Prop :=
  (∀ (c : CellRx) (s : State), tapRuns s (ringPort c.ring) = true →
    ∀ i ∈ [Instr.streamCell c, .strikeCell c, .paramCell c, .rangeAssign c, .mgmtCommandQueue c, .bulkCell c],
      ((c.ok && cellCrcOk c.bytes) = false → exec i s = .next { s with chn := { s.chn with cellerr := satInc s.chn.cellerr } }) ∧
      ((c.ok && cellCrcOk c.bytes) = true → (addressedHere s c.bytes && !cellSeen s c) = false → exec i s = .next s)) ∧
  (∀ (c : CellRx) (s : State), tapRuns s (ringPort c.ring) = false →
    ∀ i ∈ [Instr.streamCell c, .strikeCell c, .paramCell c, .rangeAssign c, .claim c, .claimRelease c, .mgmtCommandQueue c,
      .bulkCell c], exec i s = .next s) ∧
  (∀ (c : CellRx) (s : State), tapRuns s (ringPort c.ring) = true → (c.ok && cellCrcOk c.bytes) = true →
    (addressedHere s c.bytes && !cellSeen s c) = true → pdOn s 12 = true →
    (cellType c.bytes = 1 → ringInput s = true →
      (sess s (cellSess c.bytes)).cur.state = .free ∨ cellSess c.bytes = 0 ∨ (cellSess c.bytes = 15 ∧ dmxInput s = true) →
      payNum c.bytes 2 1 = 1 →
      Gives (.streamCell c) s fun t => t.mrg = s.mrg ∧ t.vox = s.vox ∧
        (sess t (cellSess c.bytes)).drop = satInc (sess s (cellSess c.bytes)).drop) ∧
    (cellType c.bytes = 1 → ringInput s = true → (sess s (cellSess c.bytes)).cur.state ≠ .free → 1 ≤ cellSess c.bytes →
      dmxInput s = false → payNum c.bytes 2 1 = 1 →
      (inRanges (sess s (cellSess c.bytes)).cur.ranges (payNum c.bytes 0 2) = false → Gives (.streamCell c) s fun t =>
        t.mrg = s.mrg ∧ (sess t (cellSess c.bytes)).outrange = satInc (sess s (cellSess c.bytes)).outrange) ∧
      (inRanges (sess s (cellSess c.bytes)).cur.ranges (payNum c.bytes 0 2) = true → pdOn s 58 = true →
        Gives (.streamCell c) s fun t => ∃ l, t.mrg.wait = s.mrg.wait ++ [l] ∧ l.sess.val = cellSess c.bytes ∧
          l.target.toNat = payNum c.bytes 0 2 ∧ l.level.toNat = payNum c.bytes 4 2 ∧ l.tick = (c.frame.toNat + 2) * 6)) ∧
    (cellType c.bytes = 2 → s.mode.code = .relay → cellAux c.bytes % 16 = 0 → Gives (.strikeCell c) s fun t =>
      t.dis = s.dis ∧ t.vox = s.vox) ∧
    (cellType c.bytes = 2 → s.mode.code = .relay → cellAux c.bytes % 16 = 1 →
      evOp (Vector.ofFn fun b => payByte c.bytes b.val) ≠ .nop → Gives (.strikeCell c) s fun t =>
        (sess t (cellSess c.bytes)).drop = satInc (sess s (cellSess c.bytes)).drop ∧ t.vox = s.vox) ∧
    (cellType c.bytes = 3 → s.mode.code = .relay → Gives (.paramCell c) s fun t =>
      t.dis.params = s.dis.params ∧ (sess t (cellSess c.bytes)).drop = satInc (sess s (cellSess c.bytes)).drop) ∧
    (cellType c.bytes = 3 → s.mode.code = .show ∨ s.mode.code = .service → (sess s (cellSess c.bytes)).cur.state ≠ .free →
      1 ≤ cellSess c.bytes → dmxInput s = false → Gives (.paramCell c) s fun t => ∃ ps, t.dis.params = s.dis.params ++ ps ∧
        ps.length = (paramEntries c.bytes).length ∧ ∀ p ∈ ps, p.1.val = cellSess c.bytes ∧ p.2 ∈ paramEntries c.bytes) ∧
    (cellType c.bytes = 6 → cellAux c.bytes % 16 = 1 → payNum c.bytes 0 6 = Config.uid.toNat →
      payNum c.bytes 8 2 = s.chn.mepoch.toNat → BitVec.ofNat 10 (payNum c.bytes 6 2) ≠ (0 : BitVec 10) → s.chn.role ≠ 1 →
      Gives (.rangeAssign c) s fun t => t.chn.pos = BitVec.ofNat 10 (payNum c.bytes 6 2) ∧ t.chn.held = true ∧
        t.chn.late = true ∧ raised .ring t = true) ∧
    (cellType c.bytes = 4 → ringInput s = true →
      ∀ x ∈ [(Instr.claim c, true), (Instr.claimRelease c, false)], (payByte c.bytes 0 ≠ 2 ↔ x.2 = true) →
        Gives x.1 s fun t => t.dis.clRes = (claimResult s (cellSess c.bytes) c.bytes).code ∧
          t.dis.clSess.toNat = cellSess c.bytes % 16 ∧ raised .claim t = true ∧
          (claimResult s (cellSess c.bytes) c.bytes ≠ .accepted → t.dis.sess = s.dis.sess ∧ t.mrg = s.mrg) ∧
          (claimResult s (cellSess c.bytes) c.bytes = .accepted →
            (sess t (cellSess c.bytes)).seq = BitVec.ofNat 32 (payNum c.bytes 30 4) ∧
            (payByte c.bytes 0 = 1 → (sess t (cellSess c.bytes)).nxt = claimEntry c.bytes) ∧
            (payByte c.bytes 0 = 2 → (sess t (cellSess c.bytes)).nxt.state = .free ∧
              (sess t (cellSess c.bytes)).freeing = true))))

/-- R197, R198, R203, R205, R210, R211, R214, R215, R216, R218, Table 8.4: how dispatch takes an event: NOP is discarded
uncounted, a refused one counts DROP, a full queue counts QOVF and keeps what it holds, any other is queued for the boundary
that its launch time gives, LATE when it is past. The session table rows store what they write. -/
def Obligations.DispatchTakesEvents : Prop :=
  (∀ (src : EvSource) (e : EvBytes) (s : State), pdOn s 12 = false → exec (.eventAccept src e) s = .next s) ∧
  (∀ (n : SIdx) (w : Fin 4) (v : Word) (s : State), pdOn s 12 = false →
    exec (.sessionOpen n) s = .next s ∧ exec (.sessionFree n) s = .next s ∧ exec (.sessionKeyWrite n w v) s = .next s) ∧
  (∀ (src : EvSource) (e : EvBytes) (s : State), pdOn s 12 = true →
    (evOp e = .nop → exec (.eventAccept src e) s = .next s) ∧
    (evOp e ≠ .nop → (sess s (sourceSession s src).1).cur.state = .free ∨ (sourceSession s src).2 = false ∨
      s.mode.code = .muster ∨ s.mode.code = .relay → Gives (.eventAccept src e) s fun t =>
        (sess t (sourceSession s src).1).drop = satInc (sess s (sourceSession s src).1).drop ∧
        (∀ m : Fin 16, m.val ≠ (sourceSession s src).1 → sess t m = sess s m) ∧
        t = { s with dis := { s.dis with sess := t.dis.sess } }) ∧
    (evOp e ≠ .nop → (sess s (sourceSession s src).1).cur.state ≠ .free → (sourceSession s src).2 = true →
      s.mode.code ≠ .muster → s.mode.code ≠ .relay →
      (256 ≤ (sess s (sourceSession s src).1).queue.length → Gives (.eventAccept src e) s fun t =>
        (sess t (sourceSession s src).1).qovf = satInc (sess s (sourceSession s src).1).qovf ∧
        (sess t (sourceSession s src).1).queue = (sess s (sourceSession s src).1).queue ∧ raised .qovf t = true) ∧
      ((sess s (sourceSession s src).1).queue.length < 256 → Gives (.eventAccept src e) s fun t =>
        (sess t (sourceSession s src).1).queue.length = (sess s (sourceSession s src).1).queue.length + 1 ∧
        ({ no := s.dis.arrivals + 1, ev := e, play := (classify (s.chn.tick + 1) e).1 } : QEntry) ∈ (sess t (sourceSession s src).1).queue ∧
        t.vox = s.vox ∧ t.mem = s.mem ∧
        ((classify (s.chn.tick + 1) e).2 = true → raised .late t = true ∧
          (sess t (sourceSession s src).1).late = satInc (sess s (sourceSession s src).1).late)))) ∧
  (∀ (b : Nat) (e : EvBytes),
    (evImm e = true → classify b e = (b, false)) ∧
    (evImm e = false → 8000 < (evLframe e - BitVec.ofNat 32 (b / 6)).toInt →
      classify b e = ((b / 6 + 8000) * 6 + evTick e, false)) ∧
    (evImm e = false → (evLframe e - BitVec.ofNat 32 (b / 6)).toInt ≤ 8000 →
      (((b / 6 : Nat) : Int) + (evLframe e - BitVec.ofNat 32 (b / 6)).toInt) * 6 + evTick e < b → classify b e = (b, true))) ∧
  (∀ (n : SIdx) (e : EvBytes) (s : State), exec (.eventNop n e) s = .next s) ∧
  (∀ (n : SIdx) (s : State), pdOn s 12 = true →
    (Gives (.sessionOpen n) s fun t => (sess t n).nxt = { (sess s n).nxt with state := .open_ } ∧
      (sess t n).cur = (sess s n).cur ∧ (∀ m : SIdx, m ≠ n → sess t m = sess s m) ∧
      t = { s with dis := { s.dis with sess := t.dis.sess } }) ∧
    (n = 0 → exec (.sessionFree n) s = .next s) ∧
    (n ≠ 0 → (sess s n).nxt.state = .free → Gives (.sessionFree n) s fun t => t = s) ∧
    (n ≠ 0 → (sess s n).nxt.state ≠ .free → Gives (.sessionFree n) s fun t =>
      sess t n = { sess s n with nxt := { (sess s n).nxt with state := .free, owner := 0 }, freeing := true } ∧
      (∀ m : SIdx, m ≠ n → sess t m = sess s m) ∧
      t = { s with dis := { s.dis with sess := t.dis.sess } }) ∧
    (∀ (w : Fin 4) (v : Word), Gives (.sessionKeyWrite n w v) s fun t =>
      (sess t n).seq = 0 ∧ fld (sess t n).key (96 - 32 * w.val) 32 = v.toNat ∧ (sess t n).cur = (sess s n).cur ∧
      t = { s with dis := { s.dis with sess := t.dis.sess } }))

/-- R212, R213, R218, R222, R223, R224, R255, R258, R259, R260: what a launched event does. A STRIKE outside its session's
ranges counts OUTRANGE; one whose record cannot be read counts DROP; one that is allocated a voice starts it with its own
tag, patch, velocity, key and priority, and counts a slip when the record was not prefetched; one that steals a voice waits
for its stoop, or starts at once where the voice's patch has none; one that gets none counts NOVOICE. RELEASE, KILL and
KILLALL reach the voices of their session, and the pending events of stooping voices. A prefetch that completes gives its
event the record, or drops and counts it. -/
def Obligations.LaunchedEventsAct : Prop :=
  (∀ (n : SIdx) (e : EvBytes) (s : State), pdOn s 12 = false → ∀ i ∈ [Instr.strike n e, .eventRelease n e, .kill n e, .killall n e],
    exec i s = .next s) ∧
  (∀ (n : SIdx) (e : EvBytes) (s : State), pdOn s 12 = true →
    let hit (v : Voice) : Bool := v.active && v.sess == n && tagMatches (evTag e) v.tag.toNat
    ((windowWithin (sess s n).cur.ranges (evTbase e) (evTlast e) = false → Gives (.strike n e) s fun t =>
        (sess t n).outrange = satInc (sess s n).outrange) ∧
      (readRecord s (recordAddr s (evPatch e)) = none → Gives (.strike n e) s fun t =>
        (sess t n).drop = satInc (sess s n).drop ∧ t.vox = s.vox) ∧
      (∀ p : Patch, readRecord s (recordAddr s (evPatch e)) = some p →
        (∀ i : VIdx, allocate s n = .use i → Gives (.strike n e) s fun t =>
          (vox t i).state = .sounding ∧ (vox t i).sess = n ∧ (vox t i).tag.toNat = evTag e ∧ (vox t i).vel.toNat = evVel e ∧
          (vox t i).key.toNat = evKey e ∧ (vox t i).prio.toNat = evPrio e ∧ (vox t i).patch.toNat = evPatch e ∧
          (vox t i).copy = p.legal ∧ t.vox.slip = satInc s.vox.slip ∧ ∀ j : VIdx, j ≠ i → vox t j = vox s j) ∧
        (∀ i : VIdx, allocate s n = .steal i → Gives (.strike n e) s fun t =>
          let v := vox s i
          let again := v.state == .stooping
          let len := if again then v.stoopT else 6 * v.copy.num 0x0E 1
          vget t.vox.steals v.sess 0 = satInc (vget s.vox.steals v.sess 0) ∧ (vox t i).stolen = true ∧
          (∀ j : VIdx, j ≠ i → vox t j = vox s j) ∧
          (len = 0 → (vox t i).state = .sounding ∧ (vox t i).sess = n ∧ (vox t i).tag.toNat = evTag e) ∧
          (len ≠ 0 → (vox t i).state = .stooping ∧ (vox t i).stoopT = len ∧ (vox t i).stoopK = 0 ∧ (vox t i).sess = v.sess ∧
            (vox t i).pend.any (fun q => q.sess == n && q.ev == e) = true)) ∧
        (allocate s n = .nothing → Gives (.strike n e) s fun t =>
          vget t.vox.novoice n 0 = satInc (vget s.vox.novoice n 0) ∧ t.vox.voice = s.vox.voice))) ∧
    (Gives (.eventRelease n e) s fun t => t = { s with vox := { s.vox with voice := t.vox.voice } } ∧
      ∀ i : VIdx, vox t i = if (vox s i).sess = n ∧ tagMatches (evTag e) (vox s i).tag.toNat = true then (vox s i).release
        else vox s i) ∧
    (Gives (.kill n e) s fun t => t = { s with vox := { s.vox with voice := t.vox.voice } } ∧
      ∀ i : VIdx,
        ((vox s i).state ≠ .stooping ∨ (vox s i).pend = none →
          vox t i = if hit (vox s i) then (vox s i).ended else vox s i) ∧
        (∀ p, (vox s i).state = .stooping → (vox s i).pend = some p →
          let new := p.sess == n && tagMatches (evTag e) (evTag p.ev)
          vox t i = if hit (vox s i) then
              (if new then (vox s i).ended
               else { startVoice p.sess p.ev p.play (s.chn.ticks + 1) p.ranges p.copy with stolen := (vox s i).stolen })
            else if new then { vox s i with pend := none } else vox s i)) ∧
    (Gives (.killall n e) s fun t => (sess t n).queue = [] ∧ (∀ m : SIdx, m ≠ n → sess t m = sess s m) ∧
      (∀ c ∈ t.mrg.vac, c.1 ≠ n) ∧ t.mrg.lvls = s.mrg.lvls ∧ t.mem = s.mem ∧
      ∀ i : VIdx, (vox s i).state ≠ .stooping → vox t i =
        if (vox s i).active = true ∧ (vox s i).sess = n then (vox s i).ended else vox s i)) ∧
  (∀ s : State, s.dis.reads = [] → exec .patchReadDone s = .next s) ∧
  (∀ (r : PatchRead) (rs : List PatchRead) (s : State), s.dis.reads = r :: rs → Gives .patchReadDone s fun t =>
    t.dis.reads = rs ∧ t.vox = s.vox ∧ (∀ m : SIdx, m ≠ r.sess → sess t m = sess s m) ∧
    (pdOn s 12 = false ∨ (∀ q ∈ (sess s r.sess).queue, q.no ≠ r.no) → sess t r.sess = sess s r.sess) ∧
    (pdOn s 12 = true → (∃ q ∈ (sess s r.sess).queue, q.no = r.no) →
      (∀ p : Patch, (r.advance r.left s).record = some p → sess t r.sess = { sess s r.sess with
        queue := (sess s r.sess).queue.map fun q => if q.no = r.no then { q with copy := some p } else q }) ∧
      ((r.advance r.left s).record = none → sess t r.sess = { sess s r.sess with
        queue := (sess s r.sess).queue.filter fun q => q.no != r.no, drop := satInc (sess s r.sess).drop })))

/-- R229, R231, R232, R233, R242, R243, R244, R258, R260, R266: a voice inside a tick. An envelope at the end of its segment
holds at SUS, loops from LEND to LSTART, completes at the last segment or goes on; a wavetable read of a bank that is not ON
counts ABSSMP and one already answered has no effect; a FAULTED voice ends; a stoop ends in the pending note or in silence. -/
def Obligations.VoicesInsideATick : Prop :=
  (∀ (v : VIdx) (e : Fin 3) (s : State), Gives (.envSegmentEnd v e) s fun t =>
    t = { s with vox := { s.vox with voice := t.vox.voice } } ∧ (∀ j : VIdx, j ≠ v → vox t j = vox s j) ∧
    vox t v = if (vox s v).inTick s.chn.ticks then (vox s v).endEnv e.val else vox s v) ∧
  (∀ (v : Voice) (e : Fin 3) (g : Nat), vget v.finish e false = false → vget v.hold e false = false →
    vget v.done e false = false → (vget v.k e 0).toNat = v.copy.segTicks e (vget v.seg e 0).toNat →
    g = (vget v.seg e 0).toNat →
    (v.reld = false → g = v.copy.sus e → vget (v.endEnv e).hold e false = true) ∧
    (v.reld = false → g ≠ v.copy.sus e → v.copy.lstart e ≤ v.copy.lend e → g = v.copy.lend e →
      v.endEnv e = v.beginSeg e (v.copy.lstart e)) ∧
    (v.reld = true → g + 1 = v.copy.nseg e → vget (v.endEnv e).done e false = true) ∧
    (v.reld = true → g + 1 ≠ v.copy.nseg e → v.endEnv e = v.beginSeg e (g + 1))) ∧
  (∀ (v : VIdx) (o : Fin 2) (s : State),
    (vget (vox s v).wt o none ≠ none ∨ (vox s v).inTick s.chn.ticks = false ∨ (vox s v).usesWt o = false →
      exec (.wavetableReadReply v o) s = .next s) ∧
    ((vox s v).inTick s.chn.ticks = true → (vox s v).usesWt o = true → vget (vox s v).wt o none = none →
      wtReply s (vox s v) o = .absent → Gives (.wavetableReadReply v o) s fun t =>
        vget (vox t v).wt o none = some .absent ∧ t.vox.abssmp = satInc s.vox.abssmp ∧ t = { s with vox := t.vox }) ∧
    ((vox s v).inTick s.chn.ticks = true → (vox s v).usesWt o = true → vget (vox s v).wt o none = none →
      wtReply s (vox s v) o ≠ .absent → Gives (.wavetableReadReply v o) s fun t =>
        vget (vox t v).wt o none = some (wtReply s (vox s v) o) ∧ t.vox.abssmp = s.vox.abssmp ∧
        ∀ j : VIdx, j ≠ v → vox t j = vox s j)) ∧
  (∀ (v : VIdx) (s : State),
    (Gives (.fholdExpiry v) s fun t => t = { s with vox := { s.vox with voice := t.vox.voice } } ∧
      (∀ j : VIdx, j ≠ v → vox t j = vox s j) ∧
      vox t v = if (vox s v).state = .faulted then (vox s v).ended else vox s v) ∧
    ((vox s v).state ≠ .stooping → exec (.stoopEnd v) s = .next s) ∧
    ((vox s v).state = .stooping → Gives (.stoopEnd v) s fun t =>
      t = { s with vox := { s.vox with voice := t.vox.voice } } ∧ (∀ j : VIdx, j ≠ v → vox t j = vox s j) ∧
      ((vox s v).pend = none → vox t v = (vox s v).ended) ∧
      (∀ p, (vox s v).pend = some p → vox t v =
        { startVoice p.sess p.ev p.play (s.chn.ticks + 1) p.ranges p.copy with stolen := (vox s v).stolen }))) ∧
  (∀ (m : Half) (s : State), exec (.voxKill m) s = .next { s with vox := { s.vox with kill := s.vox.kill ||| m } })

/-- R201, R317, R319, R322, R324, R325, R326, R327: a stream level waits for the next boundary unless its session is FREE
(DROP) or its target is outside the ranges (OUTRANGE); the write is activity of its session in each case. An idle session
loses its levels and sets ATO; the ends of the missing-frame hold and fade. Sums clamp at full scale, and the slew limiter
moves by at most RATE x 256. -/
def Obligations.MergeTakesLevels : Prop :=
  (∀ (r : Requester) (v : Word) (s : State), pdOn s 58 = true →
    let n := levelSession s r
    let m := { s.mrg with ato := setBit s.mrg.ato n false }
    ((sess s n).cur.state = .free → Gives (.streamLevelWrite r v) s fun t =>
      sess t n = { sess s n with drop := satInc (sess s n).drop, active := s.chn.ticks } ∧ t.mrg = m ∧
      t = { s with dis := { s.dis with sess := t.dis.sess }, mrg := m }) ∧
    ((sess s n).cur.state ≠ .free → inRanges (sess s n).cur.ranges (fld v 16 16) = false →
      Gives (.streamLevelWrite r v) s fun t =>
        sess t n = { sess s n with outrange := satInc (sess s n).outrange, active := s.chn.ticks } ∧
        t = { s with dis := { s.dis with sess := t.dis.sess }, mrg := m }) ∧
    ((sess s n).cur.state ≠ .free → inRanges (sess s n).cur.ranges (fld v 16 16) = true →
      Gives (.streamLevelWrite r v) s fun t =>
        sess t n = { sess s n with active := s.chn.ticks } ∧
        t = { s with dis := { s.dis with sess := t.dis.sess }, mrg := { m with
          wait := s.mrg.wait ++ [⟨n, BitVec.ofNat 16 (fld v 16 16), BitVec.ofNat 16 (fld v 0 16), none, 0, false⟩],
          ato := t.mrg.ato } } ∧ bit t.mrg.ato n = false)) ∧
  (∀ (r : Requester) (v : Word) (s : State), pdOn s 58 = false → exec (.streamLevelWrite r v) s = .next s) ∧
  (∀ (n : SIdx) (s : State), (sess s n).cur.acttmo = 0 → exec (.activityTimeout n) s = .next s) ∧
  (∀ (n : SIdx) (s : State), (sess s n).cur.acttmo ≠ 0 → Gives (.activityTimeout n) s fun t =>
    bit t.mrg.ato n = true ∧ (∀ l ∈ t.mrg.lvls, l.sess ≠ n) ∧ (∀ l ∈ s.mrg.lvls, l.sess ≠ n → l ∈ t.mrg.lvls) ∧
    t = { s with mrg := { s.mrg with lvls := t.mrg.lvls, wait := t.mrg.wait, ato := t.mrg.ato } }) ∧
  (∀ s : State,
    (s.mrg.mhold = false → exec .missHoldExpiry s = .next s) ∧
    (s.mrg.mhold = true → Gives .missHoldExpiry s fun t => t.mrg.mact = true ∧
      t.mrg.missTick + longestHold s.epoch ≤ s.chn.ticks ∧
      t = { s with mrg := { s.mrg with mact := true, missTick := t.mrg.missTick } }) ∧
    (s.mrg.mhold = false ∨ s.mrg.mact = false → exec .missFadeEnd s = .next s) ∧
    (s.mrg.mhold = true → s.mrg.mact = true → Gives .missFadeEnd s fun t =>
      t.mrg.missTick + longestHold s.epoch + (fld s.mrg.cfg 0 8 * 4800 : Nat) ≤ s.chn.ticks ∧
      t = { s with mrg := { s.mrg with missTick := t.mrg.missTick } })) ∧
  (∀ ls : List Nat, combine true ls = min ls.sum 16777215) ∧
  (∀ rate prev x : Nat, (rate = 0 → slewTo rate prev x = x) ∧
    (0 < rate → slewTo rate prev x ≤ prev + rate * 256 ∧ prev ≤ slewTo rate prev x + rate * 256 ∧
      (prev ≤ x → prev ≤ slewTo rate prev x ∧ slewTo rate prev x ≤ x)))

/-- R267, R268, R272, R276, Table 11.2: each arithmetic and logic instruction writes its result to rd, whose marker clears,
and goes on at PC + 4; nothing else changes. A move keeps the marker of its source; any other use of a poisoned operand
traps with POISON. -/
def Obligations.KestrelArithmetic : Prop :=
  ∀ (k : KIdx) (rd ra rb : Fin 16) (v : BitVec 18) (s : State),
    ((kes s k).bad ra = false → (kes s k).bad rb = false →
      ∀ x ∈ [(Instr.kAdd k, Alu.add, (kes s k).reg ra + (kes s k).reg rb), (.kSub k, .sub, (kes s k).reg ra - (kes s k).reg rb),
        (.kAnd k, .and, (kes s k).reg ra &&& (kes s k).reg rb), (.kIor k, .ior, (kes s k).reg ra ||| (kes s k).reg rb),
        (.kEor k, .eor, (kes s k).reg ra ^^^ (kes s k).reg rb),
        (.kLsl k, .lsl, (kes s k).reg ra <<< fld ((kes s k).reg rb) 0 5),
        (.kLsr k, .lsr, (kes s k).reg ra >>> fld ((kes s k).reg rb) 0 5),
        (.kAsr k, .asr, ((kes s k).reg ra).sshiftRight (fld ((kes s k).reg rb) 0 5)),
        (.kClt k, .clt, if ((kes s k).reg ra).toInt < ((kes s k).reg rb).toInt then 1 else 0),
        (.kCltu k, .cltu, if ((kes s k).reg ra).toNat < ((kes s k).reg rb).toNat then 1 else 0),
        (.kMlo k, .mlo, (kes s k).reg ra * (kes s k).reg rb),
        (.kMhi k, .mhi, BitVec.ofInt 32 (((kes s k).reg ra).toInt * ((kes s k).reg rb).toInt / 2 ^ 32)),
        (.kMhiu k, .mhiu, BitVec.ofNat 32 (((kes s k).reg ra).toNat * ((kes s k).reg rb).toNat / 2 ^ 32)),
        (.kMin k, .min, if ((kes s k).reg ra).toInt < ((kes s k).reg rb).toInt then (kes s k).reg ra else (kes s k).reg rb),
        (.kMax k, .max, if ((kes s k).reg ra).toInt < ((kes s k).reg rb).toInt then (kes s k).reg rb else (kes s k).reg ra)],
        Executes s k (.alu x.2.1 rd ra rb) → Gives x.1 s (Wrote k rd x.2.2 false ((kes s k).pc + 4) s)) ∧
    ((kes s k).bad ra = false →
      ∀ x ∈ [(Instr.kAddk k, AluK.addk, (kes s k).reg ra + v.signExtend 32), (.kAndk k, .andk, (kes s k).reg ra &&& v.setWidth 32),
        (.kIork k, .iork, (kes s k).reg ra ||| v.setWidth 32), (.kEork k, .eork, (kes s k).reg ra ^^^ v.setWidth 32),
        (.kCltk k, .cltk, if ((kes s k).reg ra).toInt < v.toInt then 1 else 0),
        (.kCltuk k, .cltuk, if ((kes s k).reg ra).toNat < (v.signExtend 32).toNat then 1 else 0),
        (.kLslk k, .lslk, (kes s k).reg ra <<< fld v 0 5), (.kLsrk k, .lsrk, (kes s k).reg ra >>> fld v 0 5),
        (.kAsrk k, .asrk, ((kes s k).reg ra).sshiftRight (fld v 0 5))],
        Executes s k (.aluk x.2.1 rd ra v) → Gives x.1 s (Wrote k rd x.2.2 false ((kes s k).pc + 4) s)) ∧
    (∀ h : BitVec 22, Executes s k (.khi rd h) →
      Gives (.kKhi k) s (Wrote k rd (h.setWidth 32 <<< 10) false ((kes s k).pc + 4) s)) ∧
    (∀ x ∈ [(Instr.kAdd k, Alu.add), (.kIor k, .ior), (.kEor k, .eor)], Executes s k (.alu x.2 rd ra 0) →
      Gives x.1 s (Wrote k rd ((kes s k).reg ra) ((kes s k).bad ra) ((kes s k).pc + 4) s)) ∧
    (∀ x ∈ [(Instr.kAddk k, AluK.addk), (.kIork k, .iork), (.kEork k, .eork)], Executes s k (.aluk x.2 rd ra 0) →
      Gives x.1 s (Wrote k rd ((kes s k).reg ra) ((kes s k).bad ra) ((kes s k).pc + 4) s)) ∧
    (∀ x ∈ [(Instr.kAdd k, Alu.add), (.kSub k, .sub), (.kAnd k, .and), (.kIor k, .ior), (.kEor k, .eor), (.kLsl k, .lsl),
        (.kLsr k, .lsr), (.kAsr k, .asr), (.kClt k, .clt), (.kCltu k, .cltu), (.kMlo k, .mlo), (.kMhi k, .mhi),
        (.kMhiu k, .mhiu), (.kMin k, .min), (.kMax k, .max)],
      (kes s k).bad rb = true ∨ ((kes s k).bad ra = true ∧ (rb ≠ 0 ∨ (x.2 ≠ .add ∧ x.2 ≠ .ior ∧ x.2 ≠ .eor))) →
        Executes s k (.alu x.2 rd ra rb) → Gives x.1 s (Traps k 4 (fetched s k).1 s)) ∧
    (∀ x ∈ [(Instr.kAddk k, AluK.addk), (.kAndk k, .andk), (.kIork k, .iork), (.kEork k, .eork), (.kCltk k, .cltk),
        (.kCltuk k, .cltuk), (.kLslk k, .lslk), (.kLsrk k, .lsrk), (.kAsrk k, .asrk)],
      (kes s k).bad ra = true → v ≠ 0 ∨ (x.2 ≠ .addk ∧ x.2 ≠ .iork ∧ x.2 ≠ .eork) →
        Executes s k (.aluk x.2 rd ra v) → Gives x.1 s (Traps k 4 (fetched s k).1 s))

/-- R268, R272, R274, R276, R293, R295, Tables 11.2 and 11.3: jumps, calls, branches and RTT set the PC and, for the calls,
k15; BRK halts or traps by BRKH; a poisoned operand traps with POISON and an undecodable word with ILLEGAL, and a trap inside
a trap is DFAULT. -/
def Obligations.KestrelControlFlow : Prop :=
  ∀ (k : KIdx) (ra rb : Fin 16) (s : State),
    (∀ d : BitVec 25,
      (Executes s k (.go false d) → Gives (.kGo k) s (Wrote k 0 0 false (pcOf ((kes s k).pcWord + d.signExtend 32 * 4)) s)) ∧
      (Executes s k (.go true d) → Gives (.kCall k) s
        (Wrote k 15 ((kes s k).pcWord + 4) false (pcOf ((kes s k).pcWord + d.signExtend 32 * 4)) s))) ∧
    (∀ v : BitVec 18, (kes s k).bad ra = false →
      (Executes s k (.gor ra v) → Gives (.kGor k) s (Wrote k 0 0 false (pcOf ((kes s k).reg ra + v.signExtend 32)) s)) ∧
      (Executes s k (.callr ra v) → Gives (.kCallr k) s
        (Wrote k 15 ((kes s k).pcWord + 4) false (pcOf ((kes s k).reg ra + v.signExtend 32)) s))) ∧
    (∀ d : BitVec 15, (kes s k).bad ra = false → (kes s k).bad rb = false →
      ∀ x ∈ [(Instr.kBrEq k, Cond.eq, decide ((kes s k).reg ra = (kes s k).reg rb)),
        (.kBrNe k, .ne, decide ((kes s k).reg ra ≠ (kes s k).reg rb)),
        (.kBrLt k, .lt, decide (((kes s k).reg ra).toInt < ((kes s k).reg rb).toInt)),
        (.kBrGe k, .ge, decide (((kes s k).reg rb).toInt ≤ ((kes s k).reg ra).toInt)),
        (.kBrLtu k, .ltu, decide (((kes s k).reg ra).toNat < ((kes s k).reg rb).toNat)),
        (.kBrGeu k, .geu, decide (((kes s k).reg rb).toNat ≤ ((kes s k).reg ra).toNat))],
        Executes s k (.br x.2.1 ra rb d) → Gives x.1 s (Wrote k 0 0 false
          (if x.2.2 = true then pcOf ((kes s k).pcWord + d.signExtend 32 * 4) else (kes s k).pc + 4) s)) ∧
    (∀ (v : BitVec 18) (d : BitVec 15),
      ((kes s k).bad ra = true → ∀ x ∈ [(Instr.kGor k, KInstr.gor ra v), (.kCallr k, .callr ra v)],
        Executes s k x.2 → Gives x.1 s (Traps k 4 (fetched s k).1 s)) ∧
      ((kes s k).bad ra = true ∨ (kes s k).bad rb = true → ∀ x ∈ [(Instr.kBrEq k, Cond.eq), (.kBrNe k, .ne), (.kBrLt k, .lt),
        (.kBrGe k, .ge), (.kBrLtu k, .ltu), (.kBrGeu k, .geu)],
        Executes s k (.br x.2 ra rb d) → Gives x.1 s (Traps k 4 (fetched s k).1 s))) ∧
    (Executes s k .rtt → Gives (.kRtt k) s fun t => OnlyKestrel k s t ∧ t.mgt = s.mgt ∧
      GoesOn k { kes s k with pc := (kes s k).tpc, intrap := false, cyc := (kes t k).cyc } s t) ∧
    (Executes s k .brk → (kes s k).brkh = true → Gives (.kBrk k) s fun t => OnlyKestrel k s t ∧ raised .khalt t = true ∧
      kes t k = { kes s k with
        pc := (kes s k).pc + 4, cyc := (kes t k).cyc, halted := true, hcause := 2, haltReq := false, stepping := false
        skipBrk := false }) ∧
    (Executes s k .brk → (kes s k).brkh = false → Gives (.kBrk k) s (Traps k 7 (kes s k).pcWord s)) ∧
    (kIssues s k = true → kDecode (fetched s k).1 = none →
      ((fetched s k).2 = false → Gives (.illegalInstruction k) s (Traps k 1 (fetched s k).1 s)) ∧
      (eccClass (rawWord s.mem (fetchAddr s k)) = .poison →
        Gives (.illegalInstruction k) s (Traps k 5 (kes s k).pcWord s)))

/-- R24, R26, R83, R104, R275 to R279, R281, R305, Table 11.3: a load takes its bytes from the youngest buffered store to its
word that supplies them all, else it issues when no such store is left, waits for its reply and then writes the value with
its marker; a store enters the buffer, a full buffer makes it wait, and it is performed when it leaves. SWAP, CAS and FENCE
wait for an empty buffer. The traps of each are those of Table 11.3. -/
def Obligations.KestrelMemory : Prop :=
  ∀ (k : KIdx) (rt ra : Fin 16) (d : BitVec 15) (s : State),
    (∀ x ∈ [(Instr.kLdW k, LdSize.w, 4, false), (.kLdH k, .h, 2, true), (.kLdHu k, .hu, 2, false), (.kLdB k, .b, 1, true),
        (.kLdBu k, .bu, 1, false)],
      Executes s k (.ld x.2.1 rt ra d) →
        ((kes s k).bad ra = true → Gives x.1 s (Traps k 4 (fetched s k).1 s)) ∧
        ((kes s k).bad ra = false →
          (((kes s k).ea ra d).toNat % x.2.2.1 ≠ 0 → Gives x.1 s (Traps k 2 ((kes s k).ea ra d) s)) ∧
          (((kes s k).ea ra d).toNat % x.2.2.1 = 0 →
            (∀ (b v : Word) (n : Nat) (p : Bool) (e : Option Ending),
              (kes s k).youngest ((kes s k).ea ra d).toNat = some (.store b n v p e) → b.toNat ≤ ((kes s k).ea ra d).toNat →
              ((kes s k).ea ra d).toNat + x.2.2.1 ≤ b.toNat + n → Gives x.1 s fun t => OnlyKestrel k s t ∧ t.mgt = s.mgt ∧
                Finished k rt (loadValue (v >>> (8 * (((kes s k).ea ra d).toNat - b.toNat))) 0 x.2.2.1 x.2.2.2) p
                  ((kes s k).pc + 4) s t) ∧
            ((∀ e, (kes s k).youngest ((kes s k).ea ra d).toNat = some e → e.supplies ((kes s k).ea ra d).toNat x.2.2.1 = false) →
              Gives x.1 s fun t => OnlyKestrel k s t ∧ t.mgt = s.mgt ∧ entries (kes t k).sbuf = entries (kes s k).sbuf ∧
                kes t k = { kes s k with
                  sbuf := (kes t k).sbuf
                  wait := .load rt ((kes s k).ea ra d) x.2.2.1 x.2.2.2
                    (if (kes s k).sbuf.any (·.hits ((kes s k).ea ra d).toNat) then none
                      else some (admission s (.kestrel k) ((kes s k).ea ra d).toNat false)) })))) ∧
    (∀ (a : Word) (n : Nat) (sx : Bool) (adm : Ending), (kes s k).wait = .load rt a n sx (some adm) → Going s k →
      accessWaits s (a.toNat / 4 * 4) false = false → (kes s k).onWay k (islandOf k a.toNat) = false →
      (endingOf s adm (a.toNat / 4 * 4) .read = .data → Gives (.loadReply k) s
        (Finished k rt (loadValue (mapRead s (a.toNat / 4 * 4)).1 (a.toNat % 4) n sx) (mapRead s (a.toNat / 4 * 4)).2
          ((kes s k).pc + 4) (effectOf adm (.kestrel k) (a.toNat / 4 * 4) .read s))) ∧
      (endingOf s adm (a.toNat / 4 * 4) .read = .absent → Gives (.loadReply k) s fun t =>
        Finished k rt 0 false ((kes s k).pc + 4) s t ∧ OnlyKestrel k { s with sys := t.sys } t ∧
        t.sys = { s.sys with absCount := satInc s.sys.absCount, lastAbs := a }) ∧
      (endingOf s adm (a.toNat / 4 * 4) .read = .berr → Gives (.loadReply k) s fun t => t.mem = s.mem ∧
        t.sys = { s.sys with absCount := satInc s.sys.absCount, lastAbs := a } ∧
        ((kes s k).intrap = false → raised .ktrap t = true ∧ (kes t k).tcause = 3 ∧ (kes t k).tinfo = a ∧
          (kes t k).tpc = (kes s k).pc ∧ (kes t k).pc = (kes s k).tentry ∧ (kes t k).wait = .none ∧
          (kes t k).regs = (kes s k).regs) ∧
        ((kes s k).intrap = true → (kes t k).dfault = true ∧ (kes t k).pc = (kes s k).pc))) ∧
    (∀ x ∈ [(Instr.kStW k, StSize.w, 4), (.kStH k, .h, 2), (.kStB k, .b, 1)], Executes s k (.st x.2.1 rt ra d) →
      ((kes s k).bad ra = true → Gives x.1 s (Traps k 4 (fetched s k).1 s)) ∧
      ((kes s k).bad ra = false →
        let a := (kes s k).ea ra d
        let e : SbEntry := .store a x.2.2 ((kes s k).reg rt) ((kes s k).bad rt) none
        (8 ≤ (kes s k).sbuf.length → Gives x.1 s fun t => OnlyKestrel k s t ∧
          kes t k = { kes s k with wait := .room e (fetched s k).1 }) ∧
        ((kes s k).sbuf.length < 8 →
          (a.toNat % x.2.2 = 0 → (enableOf a.toNat).any (fun b => !enabled s b) = false →
            (kes s k).bad rt = false ∨ (memOf a.toNat).isSome = true → Gives x.1 s (Buffered k e s)) ∧
          (a.toNat % x.2.2 ≠ 0 → (enableOf a.toNat).any (fun b => !enabled s b) = false →
            (kes s k).bad rt = false ∨ (memOf a.toNat).isSome = true → Gives x.1 s (Traps k 2 a s)) ∧
          (a.toNat % x.2.2 = 0 → (enableOf a.toNat).any (fun b => !enabled s b) = true → (kes s k).bad rt = false →
            Gives x.1 s fun t => Traps k 3 a { s with sys := t.sys } t ∧
              t.sys = { s.sys with absCount := satInc s.sys.absCount, lastAbs := a }) ∧
          (a.toNat % x.2.2 = 0 → (enableOf a.toNat).any (fun b => !enabled s b) = false → (kes s k).bad rt = true →
            memOf a.toNat = none → Gives x.1 s (Traps k 4 (fetched s k).1 s))))) ∧
    (∀ (e : SbEntry) (w : Word), (kes s k).wait = .room e w → Going s k →
      (8 ≤ (kes s k).sbuf.length → exec (.storeBufferRoom k) s = .next s) ∧
      ((kes s k).sbuf.length < 8 → entryTraps s w e = [] → (∀ a n v p i, e = .store a n v p i → a.toNat % n = 0) →
        Gives (.storeBufferRoom k) s (Buffered k e s)) ∧
      ((kes s k).sbuf.length < 8 → entryTraps s w e = [] → ∀ a n v p i, e = .store a n v p i → a.toNat % n ≠ 0 →
        Gives (.storeBufferRoom k) s (Traps k 2 a s))) ∧
    (∀ (a v : Word) (n m : Nat) (p : Bool) (adm : Ending) (es : List SbEntry), memOf a.toNat = some m →
      accessWaits s a.toNat true = false →
      (((kes s k).crossed = [] ∧ (kes s k).sbuf = .store a n v p (some adm) :: es) ∨
        (kes s k).crossed = .store a n v p (some adm) :: es) → Gives (.storeReply k) s fun t =>
      ((kes s k).crossed = [] → (kes t k).crossed = [] ∧ entries (kes t k).sbuf = entries es) ∧
      ((kes s k).crossed ≠ [] → (kes t k).crossed = es ∧ (kes t k).sbuf = (kes s k).sbuf) ∧
      kes t k = { kes s k with crossed := (kes t k).crossed, sbuf := (kes t k).sbuf, wait := (kes t k).wait } ∧
      (adm = .data → OtherWords s t a.toNat ∧ t.sys = s.sys ∧
        (s.mem.wf = true → rawWord t.mem a.toNat = mergedWord s m a.toNat n v p)) ∧
      (adm ≠ .data → t.mem = s.mem ∧ t.sys = { s.sys with absCount := satInc s.sys.absCount, lastAbs := a })) ∧
    (∀ rb : Fin 16, (kes s k).bad ra = false →
      ∀ x ∈ [(Instr.kSwap k, KInstr.swap rt ra rb, (none : Option Word)), (.kCas k, .cas rt ra rb, some ((kes s k).reg rt))],
        Executes s k x.2.1 → (x.2.2.isSome = true → (kes s k).bad rt = false) →
        ((∃ m, memOf ((kes s k).reg ra).toNat = some m ∧ (m < 8 ∨ 12 ≤ m)) →
          (((kes s k).reg ra).toNat % 4 = 0 → Gives x.1 s fun t => OnlyKestrel k s t ∧ t.mgt = s.mgt ∧
            entries (kes t k).sbuf = entries (kes s k).sbuf ∧ kes t k = { kes s k with
              sbuf := (kes t k).sbuf
              wait := .atomic rt ((kes s k).reg ra) ((kes s k).reg rb) ((kes s k).bad rb) x.2.2
                (if (kes s k).sbuf = [] then some (admission s (.kestrel k) ((kes s k).reg ra).toNat true) else none) }) ∧
          (((kes s k).reg ra).toNat % 4 ≠ 0 → Gives x.1 s (Traps k 2 ((kes s k).reg ra) s))) ∧
        (((kes s k).reg ra).toNat % 4 = 0 →
          (memOf ((kes s k).reg ra).toNat = none ∧ (kes s k).bad rb = false) ∨
            (∃ m, memOf ((kes s k).reg ra).toNat = some m ∧ 8 ≤ m ∧ m < 12) →
          Gives x.1 s (Traps k 6 ((kes s k).reg ra) s))) ∧
    (∀ (a v : Word) (p : Bool) (c : Option Word) (adm : Ending) (m : Nat),
      (kes s k).wait = .atomic rt a v p c (some adm) → Going s k → memOf a.toNat = some m →
      accessWaits s a.toNat true = false → (kes s k).onWay k (islandOf k a.toNat) = false →
      (adm = .data → Gives (.atomicReply k) s fun t =>
        Finished k rt (memWord32 s a.toNat).1 (memWord32 s a.toNat).2 ((kes s k).pc + 4)
          (atomicEffect k a v p c adm s) t ∧ t.sys = s.sys ∧ OtherWords s t a.toNat ∧
        (c = none ∨ (c = some (memWord32 s a.toNat).1 ∧ (memWord32 s a.toNat).2 = false) → s.mem.wf = true →
          rawWord t.mem a.toNat = mergedWord s m a.toNat 4 v p) ∧
        (∀ w, c = some w → w ≠ (memWord32 s a.toNat).1 ∨ (memWord32 s a.toNat).2 = true → s.mem.wf = true →
          SameWord s t a.toNat)) ∧
      (adm ≠ .data → Gives (.atomicReply k) s fun t => Finished k rt 0 false ((kes s k).pc + 4) s t ∧ t.mem = s.mem ∧
        t.sys = { s.sys with absCount := satInc s.sys.absCount, lastAbs := a })) ∧
    (Executes s k .fence →
      ((kes s k).sbuf = [] → Gives (.kFence k) s (Wrote k 0 0 false ((kes s k).pc + 4) s)) ∧
      ((kes s k).sbuf ≠ [] → Gives (.kFence k) s fun t => OnlyKestrel k s t ∧ kes t k = { kes s k with wait := .fence })) ∧
    ((kes s k).wait = .fence → Going s k →
      ((kes s k).sbuf ≠ [] → exec (.fenceDone k) s = .next s) ∧
      ((kes s k).sbuf = [] → Gives (.fenceDone k) s (Finished k 0 0 false ((kes s k).pc + 4) s) ∧
        Gives (.fenceDone k) s (OnlyKestrel k s)))

/-- R45, R273, R276, R283-R288, R290-R295, Table 11.4: SPR reads and writes, POST, WAIT, the time target, and starting,
stopping, halting, resuming and stepping a kestrel. -/
def Obligations.KestrelControlAndSignals : Prop :=
  (∀ (k : KIdx) (rd ra : Fin 16) (sr : BitVec 12) (s : State),
    (sr ≠ 0x102 → sr ≠ 0x110 → Executes s k (.spr .rd rd ra sr) → Gives (.kSprRd k) s
      (Wrote k rd (sprValue s k sr.toNat) false ((kes s k).pc + 4) s)) ∧
    (Executes s k (.spr .rd rd ra 0x110) → Gives (.kSprRd k) s
      (Wrote k rd (s.chn.ctime.setWidth 32) false ((kes s k).pc + 4)
        (modK k (fun c => { c with cthi := (s.chn.ctime >>> 32).setWidth 32 }) s))) ∧
    (Executes s k (.spr .rd rd ra 0x102) → Gives (.kSprRd k) s fun t => ∃ n : Quad,
      (rd ≠ 0 → (kes t k).reg rd = n.setWidth 32) ∧ (kes t k).cychi = (n >>> 32).setWidth 32 ∧ (kes t k).cyc = n + 1 ∧
      (kes t k).pc = (kes s k).pc + 4 ∧ t.mem = s.mem) ∧
    ((kes s k).bad ra = true → ∀ x ∈ [(Instr.kSprWr k, SprAct.wr), (.kSprSet k, .set), (.kSprClr k, .clr)],
      Executes s k (.spr x.2 rd ra sr) → Gives x.1 s (Traps k 4 (fetched s k).1 s)) ∧
    (ra = 0 → sr ≠ 0x102 → sr ≠ 0x110 → ∀ x ∈ [(Instr.kSprSet k, SprAct.set), (.kSprClr k, .clr)],
      Executes s k (.spr x.2 rd ra sr) → Gives x.1 s (Wrote k rd (sprValue s k sr.toNat) false ((kes s k).pc + 4) s)) ∧
    ((kes s k).bad ra = false →
      ∀ x ∈ [(Instr.kSprWr k, SprAct.wr, (kes s k).reg ra), (.kSprSet k, .set, sprValue s k sr.toNat ||| (kes s k).reg ra),
        (.kSprClr k, .clr, sprValue s k sr.toNat &&& ~~~((kes s k).reg ra))],
      x.2.1 = .wr ∨ ra ≠ 0 → Executes s k (.spr x.2.1 rd ra sr) →
        (∀ y ∈ [((0x112 : BitVec 12), { kes s k with tgtlo := x.2.2 }),
            (0x113, { kes s k with tgthi := x.2.2, target := x.2.2 ++ (kes s k).tgtlo }),
            (0x130, { kes s k with tpc := pcOf x.2.2 }), (0x131, { kes s k with tcause := x.2.2.setWidth 4 }),
            (0x132, { kes s k with tinfo := x.2.2 }), (0x133, { kes s k with tentry := pcOf x.2.2 }),
            (0x134, { kes s k with intrap := bit x.2.2 0 })],
          sr = y.1 → Gives x.1 s
            (Wrote k rd (sprValue s k sr.toNat) false ((kes s k).pc + 4) (modK k (fun _ => y.2) s))) ∧
        (sr = 0x121 → Gives x.1 s fun t => (kes t k).pc = (kes s k).pc + 4 ∧ t.mem = s.mem ∧ ∀ j : KIdx,
          (kes t j).pend = if bit x.2.2 j.val then setBit (kes s j).pend 15 true else (kes s j).pend) ∧
        (sr = 0x122 → Gives x.1 s fun t => (kes t k).pc = (kes s k).pc + 4 ∧ OnlyKestrel k s t ∧
          (bit x.2.2 0 = true → bit t.host.dbh k.val = true ∧ raised .dbell t = true) ∧
          (bit x.2.2 0 = false → t.host.dbh = s.host.dbh)) ∧
        (sr = 0x124 → Gives x.1 s fun t => (kes t k).pc = (kes s k).pc + 4 ∧ OnlyKestrel k s t ∧
          t.host.dbrsp = x.2.2.setWidth 16 ∧ (rd ≠ 0 → (kes t k).reg rd = s.host.dbrsp.setWidth 32)) ∧
        (sr = 0x120 → x.2.1 ≠ .set → Gives x.1 s fun t => (kes t k).pc = (kes s k).pc + 4 ∧ OnlyKestrel k s t ∧
          (kes t k).pend = (kes s k).pend &&& ~~~(((kes s k).reg ra).setWidth 16) ∧
          (bit ((kes s k).reg ra) 1 = true → bit t.host.dbk k.val = false) ∧
          (bit ((kes s k).reg ra) 1 = false → t.host.dbk = s.host.dbk) ∧
          (rd ≠ 0 → (kes t k).reg rd = pendOf s k)) ∧
        (sr = 0x120 → x.2.1 = .set → Gives x.1 s (Wrote k rd (pendOf s k) false ((kes s k).pc + 4) s)) ∧
        (sr ∈ [(0x100 : BitVec 12), 0x101, 0x103, 0x111, 0x123] → Gives x.1 s
          (Wrote k rd (sprValue s k sr.toNat) false ((kes s k).pc + 4) s)))) ∧
  (∀ (k : KIdx) (rd ra : Fin 16) (s : State),
    (Executes s k (.post ra) →
      let e : SbEntry := .post ((kes s k).event ra) (kes s k).sess none
      ((∀ i : Fin 4, vget (kes s k).mark (ra.val + i.val) false = false) →
        ((kes s k).sbuf.length < 8 → Gives (.kPost k) s (Buffered k e s)) ∧
        (8 ≤ (kes s k).sbuf.length → Gives (.kPost k) s fun t => OnlyKestrel k s t ∧
          kes t k = { kes s k with wait := .room e (fetched s k).1 })) ∧
      ((∃ i : Fin 4, vget (kes s k).mark (ra.val + i.val) false = true) →
        Gives (.kPost k) s (Traps k 4 (fetched s k).1 s))) ∧
    (Executes s k (.wait rd ra) →
      ((kes s k).bad ra = true → Gives (.kWait k) s (Traps k 4 (fetched s k).1 s)) ∧
      ((kes s k).bad ra = false →
        ((kes s k).reg ra = 0 ∨ pendOf s k &&& (kes s k).reg ra ≠ 0 →
          Gives (.kWait k) s (Wrote k rd (pendOf s k &&& (kes s k).reg ra) false ((kes s k).pc + 4) s)) ∧
        ((kes s k).reg ra ≠ 0 → pendOf s k &&& (kes s k).reg ra = 0 → Gives (.kWait k) s fun t => OnlyKestrel k s t ∧
          ((kes s k).stepping = false → kes t k = { kes s k with wait := .event rd ((kes s k).reg ra) }) ∧
          ((kes s k).stepping = true → raised .khalt t = true ∧ kes t k = { kes s k with
            halted := true, hcause := 3, haltReq := false, stepping := false, skipBrk := false })))) ∧
    (∀ m : Word, (kes s k).wait = .event rd m → Going s k →
      (pendOf s k &&& m = 0 → exec (.waitDone k) s = .next s) ∧
      (pendOf s k &&& m ≠ 0 → Gives (.waitDone k) s fun t => OnlyKestrel k s t ∧
        Finished k rd (pendOf s k &&& m) false ((kes s k).pc + 4) s t)) ∧
    (chainRuns s = true → Gives (.timeTargetReached k) s fun t => (kes s k).target.toNat ≤ t.chn.ctime.toNat ∧
      s.chn.ctime.toNat ≤ t.chn.ctime.toNat ∧ t = { s with chn := { s.chn with ctime := t.chn.ctime } })) ∧
  (∀ (k : KIdx) (v : Word) (s : State), pdOn s (54 + k.val) = true →
    ((kes s k).rst = true → s.mode.code ≠ .boot → Gives (.kestrelStart k v) s fun t =>
      (kes t k).rst = false ∧ (kes t k).pc = (kes s k).bootpc ∧ (∀ r : Fin 16, (kes t k).reg r = 0) ∧
      (kes t k).brkh = bit v 27 ∧ (kes t k).sess = (kes s k).sess ∧ (kes t k).intrap = false ∧ (kes t k).tentry = 0 ∧
      (kes t k).parked = s.mode.code.parks ∧ (kes t k).pend = 0 ∧ (kes t k).sbuf = [] ∧ t.mem = s.mem ∧
      (bit v 30 = false → (kes t k).halted = false ∧ t = { s with kst := t.kst }) ∧
      (bit v 30 = true → (kes t k).halted = true ∧ (kes t k).hcause = 0 ∧ raised .khalt t = true) ∧
      ∀ j : KIdx, j ≠ k → kes t j = kes s j) ∧
    ((kes s k).rst = true → s.mode.code = .boot → Gives (.kestrelStart k v) s fun t =>
      (kes t k).rst = false ∧ (kes t k).startPend = true ∧ (kes t k).pc = (kes s k).pc ∧ (kes t k).regs = (kes s k).regs ∧
      (kes t k).brkh = bit v 27 ∧ t = { s with kst := t.kst } ∧ ∀ j : KIdx, j ≠ k → kes t j = kes s j) ∧
    ((kes s k).rst = false → bit v 30 = false → bit v 29 = false → bit v 28 = false → Gives (.kestrelStart k v) s fun t =>
      kes t k = { kes s k with brkh := bit v 27 } ∧ t = { s with kst := t.kst } ∧ ∀ j : KIdx, j ≠ k → kes t j = kes s j) ∧
    (Gives (.kestrelReset k v) s fun t => (kes t k).rst = true ∧ (kes t k).sess.toNat = fld v 0 4 ∧
      (kes t k).brkh = bit v 27 ∧ t = { s with kst := t.kst } ∧ (∀ j : KIdx, j ≠ k → kes t j = kes s j) ∧
      ((kes s k).rst = false → (kes s k).inside = false → (kes t k).stopping = false ∧ (kes t k).halted = false ∧
        (kes t k).parked = false ∧ (kes t k).sbuf = (kes s k).sbuf.filter (·.hasCrossed k)) ∧
      ((kes s k).rst = false → (kes s k).inside = true → (kes t k).stopping = true ∧ (kes t k).wait = (kes s k).wait ∧
        (kes t k).sbuf = (kes s k).sbuf)) ∧
    ((kes s k).rst = false → (kes s k).startPend = false → (kes s k).halted = false → (kes s k).dfault = false →
      ((kes s k).inside = true → Gives (.haltRequest k) s fun t => kes t k = { kes s k with haltReq := true } ∧
        t = { s with kst := t.kst } ∧ ∀ j : KIdx, j ≠ k → kes t j = kes s j) ∧
      ((kes s k).inside = false → Gives (.haltRequest k) s fun t => (kes t k).halted = true ∧ (kes t k).hcause = 0 ∧
        (kes t k).wait = .none ∧ (kes t k).pc = (kes s k).pc ∧ (kes t k).regs = (kes s k).regs ∧ raised .khalt t = true ∧
        OnlyKestrel k s t ∧ t.mgt = s.mgt)) ∧
    ((kes s k).halted = true → (kes s k).dfault = false → (kes s k).rst = false →
      (Gives (.kestrelResume k) s fun t => t = { s with kst := t.kst } ∧ (∀ j : KIdx, j ≠ k → kes t j = kes s j) ∧
        kes t k = { kes s k with halted := false, stepping := false, skipBrk := true }) ∧
      (Gives (.kestrelStep k) s fun t => t = { s with kst := t.kst } ∧ (∀ j : KIdx, j ≠ k → kes t j = kes s j) ∧
        kes t k = { kes s k with halted := false, stepping := true, skipBrk := true })) ∧
    ((kes s k).dfault = true → exec (.kestrelResume k) s = .next s ∧ exec (.kestrelStep k) s = .next s) ∧
    (kReady s k = true → (kes s k).wait = .none → (kes s k).atBreak = true → Gives (.breakpointHalt k) s fun t =>
      raised .khalt t = true ∧ OnlyKestrel k s t ∧ t.mgt = s.mgt ∧
      kes t k = { kes s k with halted := true, hcause := 1, haltReq := false, stepping := false, skipBrk := false }))

/-- R300 to R307, R309, R313: the code corrects any single bit, delivers what was written, and marks poison; a corrected read
leaves the array as it is, an uncorrectable one rewrites its word as poison; a write leaves what R305 gives, through the armed
mask, and of the rest only what an outstanding patch read rewrites (log entry 89); a clear, a scrub, a leak and an armed flip
act as stated. A memory that is not ON grants nothing and its clear is ignored. -/
def Obligations.EccMemories : Prop :=
  (∀ d : Quad, eccClass (cleanCode d) = .clean ∧ eccData (cleanCode d) = d ∧ eccClass (poisonCode d) = .poison ∧
    eccData (poisonCode d) = d) ∧
  (∀ (d : Quad) (i : Fin 72), eccClass (cleanCode d ^^^ (1 <<< i.val)) = .corrected ∧
    eccData (cleanCode d ^^^ (1 <<< i.val)) = d) ∧
  (∀ (q : MemReq) (s : State), clearable s q.addr = false →
    exec (.mewsAccess q) s = .next s ∧ exec (.eccClearWord q.addr) s = .next s) ∧
  (∀ (src : BitVec 4) (a : Word) (t : Nat) (s : State), s.mem.wf = true → memOf a.toNat = some t →
    pdOn s (memDomain t) = true →
    (eccClass (rawWord s.mem a.toNat) = .clean ∨ eccClass (rawWord s.mem a.toNat) = .poison →
      exec (.mewsAccess ⟨src, a, none⟩) s = .next s) ∧
    (eccClass (rawWord s.mem a.toNat) = .corrected → Gives (.mewsAccess ⟨src, a, none⟩) s fun u =>
      u = { s with ecc := u.ecc, host := u.host, mgt := u.mgt } ∧
      (t < 8 → (vget u.ecc.bank t {}).cor = satInc (vget s.ecc.bank t {}).cor ∧
        (vget u.ecc.bank t {}).bucket = satInc (vget s.ecc.bank t {}).bucket) ∧
      (8 ≤ t → u.ecc.kcor = satInc s.ecc.kcor)) ∧
    (eccClass (rawWord s.mem a.toNat) = .uncorrectable → Gives (.mewsAccess ⟨src, a, none⟩) s fun u =>
      rawWord u.mem a.toNat = poisonCode (codeData (rawWord s.mem a.toNat)) ∧ raised .eccunc u = true ∧
      (∀ b, b / 8 ≠ a.toNat / 8 → rawWord u.mem b = rawWord s.mem b) ∧
      u = { s with mem := u.mem, ecc := u.ecc, host := u.host, mgt := u.mgt } ∧
      (t < 8 → (vget u.ecc.bank t {}).unc = satInc (vget s.ecc.bank t {}).unc) ∧
      (8 ≤ t → u.ecc.kunc = satInc s.ecc.kunc)) ∧
    (∀ (c : Fin 4) (v : Quad) (p : Bool), Gives (.mewsAccess ⟨src, a, some (c, v, p)⟩) s fun u =>
      rawWord u.mem a.toNat = (if c = 3 then (if p then poisonCode v else cleanCode v) ^^^ flipMask s.ecc t
        else mergedWord s t (a.toNat / 2 ^ c.val * 2 ^ c.val) (2 ^ c.val) (v.setWidth 32) p) ∧
      OtherWords s u a.toNat ∧
      u = { s with mem := u.mem, ecc := u.ecc, host := u.host, mgt := u.mgt, dis := u.dis, free := u.free } ∧
      (c = 3 → s.dis.reads = [] → u = { s with mem := u.mem, ecc := u.ecc })) ∧
    (pdOn s 1 = true → Gives (.eccClearWord a) s fun u => rawWord u.mem a.toNat = cleanCode 0 ^^^ flipMask s.ecc t ∧
      OtherWords s u a.toNat ∧ (s.dis.reads = [] → u = { s with mem := u.mem, ecc := u.ecc }))) ∧
  (∀ s : State,
    (pdOn s 1 = false ∨ bit s.ecc.cfg 31 = false → exec .scrub s = .next s) ∧
    (pdOn s 1 = true → bit s.ecc.cfg 31 = true → s.mem.wf = true → Gives .scrub s fun u => ∀ m : Fin 8,
      ((vget u.ecc.bank m {}).scrub = if pdOn s (46 + m.val) then ((vget s.ecc.bank m {}).scrub + 1) % 65536
        else (vget s.ecc.bank m {}).scrub) ∧
      (pdOn s (46 + m.val) = true → eccClass (rawWord s.mem (scrubAddr s m)) = .corrected →
        rawWord u.mem (scrubAddr s m) = cleanCode (eccData (rawWord s.mem (scrubAddr s m))))) ∧
    (pdOn s 1 = false → exec .bucketLeak s = .next s ∧ ∀ v : Word, exec (.flipArm v) s = .next s) ∧
    (pdOn s 1 = true →
      (Gives .bucketLeak s fun u => u = { s with ecc := { s.ecc with bank := u.ecc.bank, corst := u.ecc.corst } } ∧
        ∀ m : Fin 8, (vget u.ecc.bank m {}).bucket.toNat = (vget s.ecc.bank m {}).bucket.toNat - 1 ∧
          (vget u.ecc.bank m {}).cor = (vget s.ecc.bank m {}).cor) ∧
      (∀ v : Word, Gives (.flipArm v) s fun u => u = { s with ecc := { s.ecc with flipctl := u.ecc.flipctl } } ∧
        bit u.ecc.flipctl 31 = (bit v 31 && s.mode.code == .service))))

/-- R328 to R331, R337 to R342: a wrap takes the preloads of its flight only, sixteen periods carry the level's whole width,
and no pulse sent is shorter than 8 cycles; a short, an open string and a tie are recorded, hood as configured and wait to be
reported; clears, acknowledgements, the scan and the release of the link hood act as stated. The wrap stands still while PD59
is not ON, its island has no clock or ROOST freezes it, and an access needs the link. -/
def Obligations.EmittersAndFaults : Prop :=
  (∀ (f : Fin 4) (s : State),
    (pdOn s 59 = false ∨ islandUp s 4 = false ∨ s.mode.code = .roost → exec (.emtWrap f) s = .next s) ∧
    (pdOn s 59 = true → islandUp s 4 = true → s.mode.code ≠ .roost → Gives (.emtWrap f) s fun t =>
      t = { s with emt := t.emt, free := t.free } ∧ (∀ g : Fin 4, g ≠ f → t.emt.fl[g] = s.emt.fl[g]) ∧
      (t.emt.fl[f]).actEn = (s.emt.fl[f]).en ∧ (t.emt.fl[f]).actGang = (s.emt.fl[f]).gang ∧
      (bit (s.emt.fl[f]).fcfg 31 = false → (t.emt.fl[f]).actCfg = (s.emt.fl[f]).fcfg) ∧
      (∀ i : Fin 16, ((t.emt.fl[f]).ch[i]).width = 0 ∨ 8 ≤ ((t.emt.fl[f]).ch[i]).width) ∧
      (s.ros.look = false → s.emt.preTick < s.chn.ticks → ∀ i : Fin 16, ((t.emt.fl[f]).ch[i]).level =
        (vget (s.emt.fl[f]).ch (gangOf (s.emt.fl[f]).gang i).1 {}).pre))) ∧
  (∀ l p : Nat, ((List.range 16).map (pulseWidth l p)).sum = (l + l / 524288) * p / 65536) ∧
  (∀ a w : Nat, 0 < w → w < 8 → (pulse a w).1 + (pulse a w).2.1 = a + w) ∧
  (∀ (n : Fin 64) (s : State),
    (Gives (.shortTrip n) s fun t => (drvEm t n).short = true ∧ (drvEm t n).fcnt = satInc (drvEm s n).fcnt ∧
      (drvEm t n).shortHood.isSome = true ∧ (drvEm t n).latched = (!bit (drvEm s (leaderOf s n)).cfg 30) ∧
      t.drv.reports = s.drv.reports ++ [.fault n] ∧ (∀ m : Fin 64, m ≠ n → drvEm t m = drvEm s m) ∧
      t = { s with drv := { s.drv with em := t.drv.em, reports := t.drv.reports } }) ∧
    (fld (drvEm s (leaderOf s n)).cfg 0 8 = 0 → exec (.openTrip n) s = .next s) ∧
    (fld (drvEm s (leaderOf s n)).cfg 0 8 ≠ 0 → Gives (.openTrip n) s fun t => drvEm t n = { drvEm s n with
        open_ := true, fcnt := satInc (drvEm s n).fcnt
        openHood := (drvEm s n).openHood || bit (drvEm s (leaderOf s n)).cfg 31 } ∧
      t.drv.reports = s.drv.reports ++ [.fault n] ∧ (∀ m : Fin 64, m ≠ n → drvEm t m = drvEm s m)) ∧
    (Gives (.hiccupExpiry n) s fun t => (drvEm t n).short = (drvEm s n).short ∧
      (drvEm t n).shortHood = (if (drvEm s n).latched then (drvEm s n).shortHood else none) ∧
      (∀ m : Fin 64, m ≠ n → drvEm t m = drvEm s m) ∧ t = { s with drv := { s.drv with em := t.drv.em } }) ∧
    (drvLink s = false → exec (.shortClear n) s = .next s ∧ exec (.openClear n) s = .next s ∧
      ∀ hi m, exec (.tieAck hi m) s = .next s) ∧
    (drvLink s = true →
      (Gives (.shortClear n) s fun t => drvEm t n = { drvEm s n with short := false, shortHood := none, scanHood := false } ∧
        (∀ m : Fin 64, m ≠ n → drvEm t m = drvEm s m) ∧ t = { s with drv := { s.drv with em := t.drv.em } }) ∧
      (Gives (.openClear n) s fun t => drvEm t n = { drvEm s n with open_ := false, openHood := false } ∧
        (∀ m : Fin 64, m ≠ n → drvEm t m = drvEm s m) ∧ t = { s with drv := { s.drv with em := t.drv.em } }) ∧
      (∀ (hi : Bool) (m : Word), Gives (.tieAck hi m) s fun t =>
        t.drv.tieack = s.drv.tieack ||| (if hi then m.setWidth 64 <<< 32 else m.setWidth 64) ∧
        drvEm t n = (if (n.val / 32 == hi.toNat && bit m (n.val % 32)) = true then { drvEm s n with rtieHood := false }
          else drvEm s n) ∧
        t = { s with drv := { s.drv with tieack := t.drv.tieack, em := t.drv.em } })) ∧
    (s.pins.vfield = false ∨ ((drvEm s n).valid && (drvEm s n).scan == 1) = true ∨ emHood s n = true →
      exec (.runtimeTie n) s = .next s) ∧
    (s.pins.vfield = true → ((drvEm s n).valid && (drvEm s n).scan == 1) = false → emHood s n = false →
      Gives (.runtimeTie n) s fun t =>
        drvEm t n = { drvEm s n with rtie := true, fcnt := satInc (drvEm s n).fcnt, rtieHood := true } ∧
        t.drv.reports = s.drv.reports ++ [.tie n] ∧ (∀ m : Fin 64, m ≠ n → drvEm t m = drvEm s m))) ∧
  (∀ s : State,
    (drvLink s = false ∨ s.mode.code ≠ .service ∨ s.drv.scanBusy = true → exec .scanStart s = .next s) ∧
    (drvLink s = true → s.mode.code = .service → s.drv.scanBusy = false → exec .scanStart s =
      .next { s with drv := if s.pins.vfield then
          { s.drv with scanBusy := true, scanSkip := false, scanPos := 0, scanRes := [] }
        else { s.drv with scanSkip := true } }) ∧
    (∀ m : ScanMeas, (s.drv.scanBusy = false ∨ 64 ≤ s.drv.scanPos → exec (.scanChannel m) s = .next s) ∧
      (s.drv.scanBusy = true → s.drv.scanPos < 64 → exec (.scanChannel m) s =
        .next { s with drv := { s.drv with scanPos := s.drv.scanPos + 1, scanRes := s.drv.scanRes ++
          [classifyScan (fld (drvEm s (leaderOf s s.drv.scanPos)).cfg 16 6) s.drv.scanPos m] } })) ∧
    (s.drv.scanBusy = false ∨ s.drv.scanPos ≠ 64 → exec .scanComplete s = .next s) ∧
    (s.drv.scanBusy = true → s.drv.scanPos = 64 → Gives .scanComplete s fun t =>
      t.drv.scanBusy = false ∧ t.drv.scanDone = true ∧ t.drv.tieack = 0 ∧ (s.mode.code ≠ .boot → t.mode = s.mode) ∧
      ∀ n : Fin 64, (drvEm t n).valid = true ∧ (drvEm t n).scan = (s.drv.scanRes.getD n (0, 0)).1 ∧
        (drvEm t n).rtieHood = false ∧
        (drvEm t n).short = ((drvEm s n).short || (s.drv.scanRes.getD n (0, 0)).1 == 2) ∧
        (drvEm t n).open_ = ((drvEm s n).open_ || (s.drv.scanRes.getD n (0, 0)).1 == 1)) ∧
    (s.sys.dlink = true → exec .linkHoodRelease s = .next { s with drv := { s.drv with linkloss := false, lhood := false } }) ∧
    (s.sys.dlink = false → exec .linkHoodRelease s = .next s))

/-- R344 to R349, R352, R354, R355, R404, R417: an AO period takes the waiting target codes and moves each code toward its
target by at most STEP, and a code whose MODE changes waits for the new mode's target; strobes load what is staged; the sample
queue holds 32 entries; a stage change hoods, contention is reported, and an overvoltage isolates until a reconnect finds the
pin low. The unit stands still while it is disabled, PD61 is not ON, its island has no clock or ROOST freezes it. -/
def Obligations.AnalogOutputs : Prop :=
  (∀ s : State, (aouRuns s = false → ∀ c ∈ [Instr.aoPeriod, .aoStrobeMark, .aoStrobeLoad], exec c s = .next s) ∧
    (aouRuns s = true → Gives .aoPeriod s fun t =>
      t = { s with aou := { s.aou with q := (s.aou.q + 1) % 16, ch := t.aou.ch } } ∧ ∀ n : Fin 16,
        (t.aou.ch[n]).next = none ∧ (t.aou.ch[n]).mode.toNat = fld (s.aou.ch[n]).cfg 0 2 ∧
        (∀ v : Half, lookCode s n = some v → (t.aou.ch[n]).target = v) ∧
        (lookCode s n = none → fld (s.aou.ch[n]).cfg 0 2 ≠ 3 →
          (fld (s.aou.ch[n]).cfg 0 2 = (s.aou.ch[n]).mode.toNat →
            (t.aou.ch[n]).target = (s.aou.ch[n]).next.getD (s.aou.ch[n]).target) ∧
          (fld (s.aou.ch[n]).cfg 0 2 ≠ (s.aou.ch[n]).mode.toNat → (t.aou.ch[n]).target = (t.aou.ch[n]).code ∧
            ((s.aou.ch[n]).next = none → (t.aou.ch[n]).code = (s.aou.ch[n]).code))) ∧
        (fld (s.aou.ch[n]).cfg 16 16 = 0 → (t.aou.ch[n]).code = (t.aou.ch[n]).target) ∧
        (fld (s.aou.ch[n]).cfg 16 16 ≠ 0 →
          (t.aou.ch[n]).code.toNat ≤ (s.aou.ch[n]).code.toNat + fld (s.aou.ch[n]).cfg 16 16 ∧
          (s.aou.ch[n]).code.toNat ≤ (t.aou.ch[n]).code.toNat + fld (s.aou.ch[n]).cfg 16 16))) ∧
  (∀ (n : Fin 16) (v : Half) (hi : Word) (s : State), aouOn s = false →
    ∀ c ∈ [Instr.aoQueueWrite n v, .aoQueueClear n, .aoStrobeFire, .aoMarkLoad hi], exec c s = .next s) ∧
  (∀ s : State, aouOn s = true →
    (∀ (n : Fin 16) (v : Half),
      ((s.aou.ch[n]).fifo.length < 32 → Gives (.aoQueueWrite n v) s fun t =>
        t.aou.ch[n] = { s.aou.ch[n] with fifo := (s.aou.ch[n]).fifo ++ [v] } ∧ (∀ m : Fin 16, m ≠ n → t.aou.ch[m] = s.aou.ch[m]) ∧
        t = { s with aou := { s.aou with ch := t.aou.ch } }) ∧
      (32 ≤ (s.aou.ch[n]).fifo.length → exec (.aoQueueWrite n v) s =
        .next { s with aou := { s.aou with ovr := setBit s.aou.ovr n true } }) ∧
      (Gives (.aoQueueClear n) s fun t => t.aou.ch[n] = { s.aou.ch[n] with fifo := [] } ∧
        (∀ m : Fin 16, m ≠ n → t.aou.ch[m] = s.aou.ch[m]) ∧ t = { s with aou := { s.aou with ch := t.aou.ch } })) ∧
    (∀ c ∈ [Instr.aoStrobeFire, .aoStrobeMark, .aoStrobeLoad], (c ≠ .aoStrobeFire → aouRuns s = true) →
      (c = .aoStrobeMark → s.aou.arm = true ∧ fld s.aou.strobe 0 2 = 2) →
      (c = .aoStrobeLoad → fld s.aou.strobe 0 2 = 3) → Gives c s fun t =>
        t = { s with aou := { s.aou with ch := t.aou.ch, arm := t.aou.arm }, chn := { s.chn with ctime := t.chn.ctime } } ∧
        (c = .aoStrobeMark → t.aou.arm = false ∧ s.aou.mark.toNat ≤ t.chn.ctime.toNat) ∧
        (c ≠ .aoStrobeMark → t.aou.arm = s.aou.arm ∧ t.chn = s.chn) ∧ ∀ n : Fin 16,
          (bit s.aou.smask n = false ∨ (s.aou.ch[n]).mode = 0 ∨ (s.aou.ch[n]).mode = 1 → t.aou.ch[n] = s.aou.ch[n]) ∧
          (bit s.aou.smask n = true → (s.aou.ch[n]).mode = 2 → t.aou.ch[n] = { s.aou.ch[n] with
            next := some (if bit (s.aou.ch[n]).cfg 4 then (s.aou.ch[n]).merge else (s.aou.ch[n]).stg) }) ∧
          (bit s.aou.smask n = true → (s.aou.ch[n]).mode = 3 →
            t.aou.ch[n] = { s.aou.ch[n] with phase := (s.aou.ch[n]).ph0 })) ∧
    (s.aou.arm = false ∨ fld s.aou.strobe 0 2 ≠ 2 → exec .aoStrobeMark s = .next s) ∧
    (fld s.aou.strobe 0 2 ≠ 3 → exec .aoStrobeLoad s = .next s) ∧
    (∀ hi : Word, exec (.aoMarkLoad hi) s =
      .next { s with aou := { s.aou with markhi := hi, mark := hi ++ s.aou.marklo, arm := true } })) ∧
  (∀ (n : Fin 16) (s : State),
    (∀ m r : Bool, (drvLink s = false → exec (.aoStageChange n m r) s = .next s) ∧
      (drvLink s = true → Gives (.aoStageChange n m r) s fun t => (t.drv.ao[n]).change = true ∧
        bit (t.drv.ao[n]).cfg 31 = m ∧ bit (t.drv.ao[n]).cfg 30 = r ∧ (∀ j : Fin 16, j ≠ n → t.drv.ao[j] = s.drv.ao[j]) ∧
        t = { s with drv := { s.drv with ao := t.drv.ao } })) ∧
    (Gives (.aoChangeoverEnd n) s fun t => t.drv.ao[n] = { s.drv.ao[n] with change := false } ∧
      t = { s with drv := { s.drv with ao := t.drv.ao } }) ∧
    (Gives (.aoContention n) s fun t => t.drv.ao[n] = { s.drv.ao[n] with cont := true } ∧
      t.drv.reports = s.drv.reports ++ [.analog n]) ∧
    (aoIso s n = true → exec (.aoOvervoltage n) s = .next s) ∧
    (aoIso s n = false → Gives (.aoOvervoltage n) s fun t =>
      t.drv.ao[n] = { s.drv.ao[n] with ov := true, iso := true, ovcnt := satInc (s.drv.ao[n]).ovcnt } ∧
      t.drv.reports = s.drv.reports ++ [.analog n]) ∧
    ((s.drv.ao[n]).iso = false → ∀ h, exec (.aoReconnect n h) s = .next s) ∧
    ((s.drv.ao[n]).iso = true → (Gives (.aoReconnect n false) s fun t => t.drv.ao[n] = { s.drv.ao[n] with iso := false } ∧
        t.drv.reports = s.drv.reports) ∧
      (Gives (.aoReconnect n true) s fun t => (t.drv.ao[n]).iso = true ∧
        (t.drv.ao[n]).ovcnt = satInc (s.drv.ao[n]).ovcnt ∧ t.drv.reports = s.drv.reports ++ [.analog n]))) ∧
  (∀ s : State, exec .vaoLockout s = .next { s with drv := { s.drv with vaoLow := true } } ∧
    exec .vaoLockoutEnd s = .next { s with drv := { s.drv with vaoLow := false } })

/-- R357, R397, R398, R399: the end of a refresh raises PIX with IRQ = 1 and the gap ends BUSY; a DMX packet is counted by its
start code, a NULL packet ends LOST, whose setting raises DMX once; the end of a packet sent is counted. A port without a
refresh, a gap, a packet to send or an input has nothing to end. -/
def Obligations.PixelAndDmxPorts : Prop :=
  (∀ (p : Fin 4) (s : State),
    ((s.pix.port[p]).busy = false ∨ (s.pix.port[p]).gap = true → exec (.pixRefreshEnd p) s = .next s) ∧
    ((s.pix.port[p]).busy = true → (s.pix.port[p]).gap = false → Gives (.pixRefreshEnd p) s fun t =>
      t.pix.port[p] = { s.pix.port[p] with gap := true } ∧ (∀ q : Fin 4, q ≠ p → t.pix.port[q] = s.pix.port[q]) ∧
      (bit ((s.pix.port[p]).act[0]) 27 = true → raised .pix t = true) ∧
      (bit ((s.pix.port[p]).act[0]) 27 = false → t = { s with pix := { s.pix with port := t.pix.port } })) ∧
    ((s.pix.port[p]).gap = false → exec (.pixGapEnd p) s = .next s) ∧
    ((s.pix.port[p]).gap = true → Gives (.pixGapEnd p) s fun t =>
      t.pix.port[p] = { s.pix.port[p] with busy := false, gap := false } ∧
      (∀ q : Fin 4, q ≠ p → t.pix.port[q] = s.pix.port[q]) ∧ t = { s with pix := { s.pix with port := t.pix.port } })) ∧
  (∀ (p : Fin 2) (s : State),
    (dmxInputPort s p = false → (∀ b e, exec (.dmxPacketEnd p b e) s = .next s) ∧ exec (.dmxLost p) s = .next s) ∧
    (dmxInputPort s p = true → ∀ (e : Bool) (slots : List Byte),
      (Gives (.dmxPacketEnd p [] e) s fun t => t = { s with dmx := { s.dmx with port := t.dmx.port } } ∧
        dmxPort t p = { dmxPort s p with frerr := if e then satInc (dmxPort s p).frerr else (dmxPort s p).frerr }) ∧
      (∀ c : Byte, Gives (.dmxPacketEnd p (c :: slots) e) s fun t =>
        (dmxPort t p).frerr = (if e then satInc (dmxPort s p).frerr else (dmxPort s p).frerr) ∧
        dmxPort t (1 - p) = dmxPort s (1 - p) ∧ t.mem = s.mem ∧ t.emt = s.emt ∧
        (c = 0 → (dmxPort t p).pkts = satInc (dmxPort s p).pkts ∧ (dmxPort t p).lost = false ∧
          (dmxPort t p).altsc = (dmxPort s p).altsc ∧ (pdOn s 12 = false ∨ fld (dmxPort s p).map 0 10 = 0 → t.mrg = s.mrg)) ∧
        (c ≠ 0 → (c ≠ 0xCC ∨ bit (dmxPort s p).cfg 29 = false) →
          t = { s with dmx := { s.dmx with port := t.dmx.port } } ∧
          (dmxPort t p).altsc = satInc (dmxPort s p).altsc ∧ (dmxPort t p).pkts = (dmxPort s p).pkts ∧
          (dmxPort t p).lost = (dmxPort s p).lost) ∧
        (c = 0xCC → bit (dmxPort s p).cfg 29 = true → t = { s with dmx := { s.dmx with port := t.dmx.port } } ∧
          (dmxPort t p).altsc = (dmxPort s p).altsc ∧ (dmxPort t p).pkts = (dmxPort s p).pkts))) ∧
    (dmxInputPort s p = true → (dmxPort s p).lost = false → Gives (.dmxLost p) s fun t =>
      dmxPort t p = { dmxPort s p with lost := true } ∧ dmxPort t (1 - p) = dmxPort s (1 - p) ∧ raised .dmx t = true) ∧
    ((dmxPort s p).lost = true → exec (.dmxLost p) s = .next s) ∧
    (dmxOn s = false ∨ (dmxPort s p).txBusy = false → exec (.dmxTxPacketEnd p) s = .next s) ∧
    (dmxOn s = true → (dmxPort s p).txBusy = true → Gives (.dmxTxPacketEnd p) s fun t =>
      dmxPort t p = { dmxPort s p with txBusy := false, pkts := satInc (dmxPort s p).pkts } ∧
      dmxPort t (1 - p) = dmxPort s (1 - p) ∧ t = { s with dmx := { s.dmx with port := t.dmx.port } }))

/-- R400, R401, Table 16.7: what the RDM responder answers, a broadcast having its effect and getting no response: the fixed
parameters, discovery, mute, the label, the start address, identify and reset, NACK for a value out of range with nothing
stored, and a request for another PID by FWD, or NACK while one waits. A request for another responder has no effect. -/
def Obligations.RdmResponderAnswers : Prop :=
  ∀ (p : Fin 2) (q : RdmReq) (s : State),
    (rdmAddressed s p q = false → ∀ (lo hi : BitVec 48) (lab req : List Byte) (w : Half) (b : Byte),
      ∀ c ∈ [Instr.discUniqueBranch p q lo hi, .discMute p q, .discUnMute p q, .supportedParameters p q, .deviceInfo p q,
        .deviceModelDescription p q, .manufacturerLabel p q, .deviceLabelGet p q, .deviceLabelSet p q lab,
        .softwareVersionLabel p q, .dmxStartAddressGet p q, .dmxStartAddressSet p q w, .identifyDeviceGet p q,
        .identifyDeviceSet p q b, .resetDevice p q b, .rdmForward p q req], exec c s = .next s) ∧
    (rdmAddressed s p q = true → ∀ lo hi : BitVec 48, exec (.discUniqueBranch p q lo hi) s = .next { s with dmx := { s.dmx with
      answer := if (!(dmxPort s p).muted && decide (lo ≤ rdmUid s) && decide (rdmUid s ≤ hi)) = true
        then .discovery (rdmUid s) else .silent } }) ∧
    (rdmAddressed s p q = true → ∀ reply : RdmAnswer → RdmAnswer, (∀ a, reply a = if rdmBroadcast s q then .silent else a) →
      (∀ x ∈ [(Instr.supportedParameters p q, (0x0050 : Half), ([0x00, 0x80, 0x00, 0x81, 0x00, 0x82, 0x10, 0x01] : List Byte)),
          (.deviceInfo p q, 0x0060, deviceInfo s p), (.deviceModelDescription p q, 0x0080, rdmString s 0),
          (.manufacturerLabel p q, 0x0081, rdmString s 1), (.deviceLabelGet p q, 0x0082, rdmString s 2),
          (.softwareVersionLabel p q, 0x00C0, rdmString s 3),
          (.dmxStartAddressGet p q, 0x00F0, beBytes 2 (fld (dmxPort s p).map 16 10)),
          (.identifyDeviceGet p q, 0x1000, [BitVec.ofNat 8 (dmxPort s p).ident.toNat])],
        exec x.1 s = .next { s with dmx := { s.dmx with answer := reply (.ack x.2.1 x.2.2) } }) ∧
      (∀ x ∈ [(Instr.discMute p q, true, (2 : Half)), (.discUnMute p q, false, 3)], Gives x.1 s fun t =>
        t = { s with dmx := { s.dmx with port := t.dmx.port, answer := reply (.ack x.2.2 [0, 0]) } } ∧
        dmxPort t p = { dmxPort s p with muted := x.2.1 } ∧ dmxPort t (1 - p) = dmxPort s (1 - p)) ∧
      (∀ lab : List Byte, lab.length ≤ 32 → Gives (.deviceLabelSet p q lab) s fun t => raised .dmx t = true ∧
        t.dmx = { s.dmx with answer := reply (.ack 0x0082 []), str := cputs zeroCell s.dmx.str 64 (slice lab 0 32) }) ∧
      (∀ lab : List Byte, 32 < lab.length → exec (.deviceLabelSet p q lab) s =
        .next { s with dmx := { s.dmx with answer := reply (.nack 0x0082 6) } }) ∧
      (∀ w : Half, (1 ≤ w.toNat ∧ w.toNat ≤ 512 → Gives (.dmxStartAddressSet p q w) s fun t =>
          fld (dmxPort t p).map 16 10 = w.toNat ∧ fld (dmxPort t p).map 0 16 = fld (dmxPort s p).map 0 16 ∧
          dmxPort t (1 - p) = dmxPort s (1 - p) ∧ raised .dmx t = true ∧ t.dmx.answer = reply (.ack 0x00F0 [])) ∧
        (w.toNat = 0 ∨ 512 < w.toNat → exec (.dmxStartAddressSet p q w) s =
          .next { s with dmx := { s.dmx with answer := reply (.nack 0x00F0 6) } })) ∧
      (∀ b : Byte, (b.toNat ≤ 1 → Gives (.identifyDeviceSet p q b) s fun t =>
          dmxPort t p = { dmxPort s p with ident := b == 1 } ∧ dmxPort t (1 - p) = dmxPort s (1 - p) ∧
          raised .dmx t = true ∧ t.dmx.answer = reply (.ack 0x1000 [])) ∧
        (1 < b.toNat → exec (.identifyDeviceSet p q b) s =
          .next { s with dmx := { s.dmx with answer := reply (.nack 0x1000 6) } })) ∧
      (∀ b : Byte, bit (dmxPort s p).cfg 26 = false → exec (.resetDevice p q b) s =
        .next { s with dmx := { s.dmx with answer := reply (.nack 0x1001 4) } }) ∧
      (∀ b : Byte, bit (dmxPort s p).cfg 26 = true → b ≠ 0x01 → b ≠ 0xFF → exec (.resetDevice p q b) s =
        .next { s with dmx := { s.dmx with answer := reply (.nack 0x1001 6) } }) ∧
      (∀ x ∈ [((0x01 : Byte), true), (0xFF, false)], bit (dmxPort s p).cfg 26 = true → s.mode.inPor = false →
        s.mode.code ≠ .roost → s.mode.code ≠ .dormant → Gives (.resetDevice p q x.1) s fun t => t.mode.code = .boot ∧
          t.mode.bcause = 2 ∧ t.mode.keepBoot = x.2) ∧
      (∀ req : List Byte, bit (dmxPort s p).cfg 28 = true → s.dmx.rxrdy = false → Gives (.rdmForward p q req) s fun t =>
        t.dmx.rxrdy = true ∧ t.dmx.rdmrx = req.take 257 ∧ t.dmx.fwdPort = p ∧ t.dmx.port = s.dmx.port ∧
        raised .dmx t = true ∧ t.dmx.answer = .silent) ∧
      (∀ req : List Byte, bit (dmxPort s p).cfg 28 = false ∨ s.dmx.rxrdy = true → exec (.rdmForward p q req) s =
        .next { s with dmx := { s.dmx with answer := reply (.nack (requestPid req) 0) } })) ∧
    (dmxOn s = false → (∀ n : BitVec 9, exec (.rdmResponseGo n) s = .next s) ∧ exec .rdmForwardTimeout s = .next s) ∧
    (∀ n : BitVec 9, dmxOn s = true → exec (.rdmResponseGo n) s = .next { s with dmx := { s.dmx with
      txlen := BitVec.ofNat 9 (min n.toNat 257), rxrdy := false
      answer := if s.dmx.rxrdy then (if s.dmx.fwdBcast then .silent
          else .raw ((List.range (min n.toNat 257)).map fun i => cget zeroCell s.dmx.rdmtx i))
        else s.dmx.answer } }) ∧
    (s.dmx.rxrdy = false → exec .rdmForwardTimeout s = .next s) ∧
    (dmxOn s = true → s.dmx.rxrdy = true → exec .rdmForwardTimeout s =
      .next { s with dmx := { s.dmx with
        rxrdy := false, answer := if s.dmx.fwdBcast then .silent else .nack s.dmx.fwdPid 0 } })

/-- R363 to R374: RUN starts and stops a pass, a trigger starts a SINGLE pass or sets TRIGMISS, each sample boundary takes the
converter's saturated value into the FIFO, which sets OVF when it is full; the entry and FIFO commands; the audio samples,
LOCK and its loss, and the beat tracker's millisecond and tempo. -/
def Obligations.SenseAndAudio : Prop :=
  (∀ (i : Fin 32) (v : Word) (on : Bool) (raw : Int) (clip : Bool) (s : State),
    (enabled s 3 = false ∨ pdOn s 63 = false →
      ∀ c ∈ [Instr.snsFifoPop, .snsEntryWrite i v, .snsRun on, .snsStart, .snsSample raw clip], exec c s = .next s) ∧
    (s.mode.code = .roost → ∀ c ∈ [Instr.snsRun on, .snsStart, .snsSample raw clip], exec c s = .next s) ∧
    (islandUp s 5 = false → exec .snsStart s = .next s ∧ exec (.snsSample raw clip) s = .next s)) ∧
  (∀ s : State, snsOn s = true →
    (s.sns.run = false → exec (.snsRun false) s = .next s) ∧
    (s.sns.run = true → exec (.snsRun true) s = .next s) ∧
    (s.sns.run = true → Gives (.snsRun false) s fun t => t.sns.run = false ∧ t.sns.pass = false ∧ t.sns.fifo = s.sns.fifo ∧
      t = { s with sns := t.sns }) ∧
    (s.sns.run = false → Gives (.snsRun true) s fun t => t.sns.run = true ∧ t.sns.pass = (!s.sns.single || s.sns.pass) ∧
      (s.sns.single = false → t.sns.idx = 0 ∧ t.sns.tags = 2 * sincOrder (s.sns.entry 0)) ∧ t = { s with sns := t.sns })) ∧
  (∀ s : State, snsRuns s = true →
    (s.sns.run = false ∨ s.sns.single = false ∨ fld s.sns.ctrl 26 2 ≠ 0 → exec .snsStart s = .next s) ∧
    (s.sns.run = true → s.sns.single = true → fld s.sns.ctrl 26 2 = 0 → exec .snsStart s = .next { s with
      sns := if s.sns.pass then { s.sns with trigmiss := true } else { s.sns with trig := true } }) ∧
    (s.sns.run = false → ∀ raw clip, exec (.snsSample raw clip) s = .next s) ∧
    (∀ (raw : Int) (clip : Bool), s.sns.run = true → s.sns.pass = false →
      ((s.sns.trig || !s.sns.single) = true → exec (.snsSample raw clip) s = .next { s with sns := s.sns.startPass }) ∧
      ((s.sns.trig || !s.sns.single) = false → exec (.snsSample raw clip) s = .next s)) ∧
    (∀ (raw : Int) (clip : Bool), s.sns.run = true → s.sns.pass = true →
      (s.sns.fifo.length < 256 → (0 < s.sns.tags → bit s.sns.ctrl 28 = false) → Gives (.snsSample raw clip) s fun t =>
        t.sns.fifo = s.sns.fifo ++ [sampleWord (decide (0 < s.sns.tags)) (clip || clampI (-8388608) 8388607 raw != raw)
          (fld (s.sns.entry s.sns.idx) 24 5) (BitVec.ofInt 24 (clampI (-8388608) 8388607 raw))] ∧
        (s.sns.fifo.length + 1 = fld s.sns.ctrl 0 9 → raised .sns t = true) ∧
        (s.sns.fifo.length + 1 ≠ fld s.sns.ctrl 0 9 → t = { s with sns := t.sns }) ∧
        (∀ i, 0 < s.sns.tags ∨ fld (vget s.sns.map i 0) 24 5 ≠ fld (s.sns.entry s.sns.idx) 24 5 →
          vget t.sns.val i 0 = vget s.sns.val i 0)) ∧
      (s.sns.tags = 0 → 256 ≤ s.sns.fifo.length → Gives (.snsSample raw clip) s fun t =>
        t.sns.fifo = s.sns.fifo ∧ t.sns.ovf = true ∧ raised .sns t = true) ∧
      (0 < s.sns.tags → bit s.sns.ctrl 28 = true → Gives (.snsSample raw clip) s fun t =>
        t.sns.fifo = s.sns.fifo ∧ t.sns.val = s.sns.val ∧ t = { s with sns := t.sns }))) ∧
  (∀ s : State, enabled s 3 = true → pdOn s 63 = true →
    (exec .snsFifoPop s = .next { s with sns := { s.sns with fifo := s.sns.fifo.drop 1 } }) ∧
    (∀ (i : Fin 32) (v : Word), Gives (.snsEntryWrite i v) s fun t =>
      t = { s with sns := { s.sns with ent := t.sns.ent, tags := t.sns.tags } } ∧ (∀ j : Fin 32, j ≠ i → t.sns.ent[j] = s.sns.ent[j]) ∧
      t.sns.entry i = applyWrite sntFields (s.sns.entry i) v ∧ (s.sns.pass = false → t.sns.tags = s.sns.tags))) ∧
  (∀ (lrck : Bool) (n : Nat) (raw : Word) (s : State), audOn s = false →
    ∀ c ∈ [Instr.audioSample lrck n raw, .audioRateCheck n, .audioLrckLoss, .beatTrackMs, .tempoUpdate], exec c s = .next s) ∧
  (∀ s : State, audOn s = true →
    (∀ (lrck : Bool) (len : Nat) (raw : Word),
      (lrck = bit s.aud.cfg 31 → exec (.audioSample lrck len raw) s =
        .next { s with aud := { s.aud with left := slotSample len raw } }) ∧
      (lrck ≠ bit s.aud.cfg 31 → s.aud.lock = false → exec (.audioSample lrck len raw) s =
        .next { s with aud := { s.aud with right := slotSample len raw } }) ∧
      (lrck ≠ bit s.aud.cfg 31 → s.aud.lock = true → Gives (.audioSample lrck len raw) s fun t =>
        t = { s with aud := { s.aud with
          right := slotSample len raw, num := s.aud.num + 1, sum := t.aud.sum, e := t.aud.e, filt := t.aud.filt } } ∧
        s.aud.sum ≤ t.aud.sum)) ∧
    (∀ c : Nat, rateCode c ≠ 0 → exec (.audioRateCheck c) s =
      .next { s with aud := { s.aud with lock := true, rate := rateCode c } }) ∧
    (∀ c : Nat, rateCode c = 0 → ∀ x ∈ [Instr.audioLrckLoss, .audioRateCheck c], Gives x s fun t =>
      t.aud = { s.aud with lock := false, rate := 0 } ∧ (s.aud.lock = true → raised .beat t = true) ∧
      (s.aud.lock = false → t = { s with aud := t.aud })) ∧
    (Gives .beatTrackMs s fun t => t.aud.now = s.aud.now + 1 ∧ t.aud.num = 0 ∧ t.aud.sum = 0 ∧ t.aud.tau = s.aud.tau ∧
      t.aud.left = s.aud.left ∧ t.aud.right = s.aud.right ∧ t.aud.lock = s.aud.lock ∧ (s.aud.lock = true → t.aud.e = s.aud.e) ∧
      (s.aud.lock = false → ∀ k, vget t.aud.e k 0 ≤ vget s.aud.e k 0) ∧
      (64 * ((s.aud.now : Int) + 1) < s.aud.nextBeat → t.aud.pulse = s.aud.pulse ∧ t.aud.btfrm = s.aud.btfrm ∧
        t.aud.lastBeat = s.aud.lastBeat) ∧
      (s.aud.nextBeat ≤ 64 * ((s.aud.now : Int) + 1) → t.aud.pulse = true ∧ t.aud.btfrm.toNat = fld s.chn.ctime 24 32 ∧
        t.aud.btfrac.toNat = fld s.chn.ctime 0 24 ∧ t.aud.lastBeat = 64 * ((s.aud.now : Int) + 1) ∧
        (bit s.aud.cfg 27 = true → raised .beat t = true))) ∧
    (Gives .tempoUpdate s fun t => t = { s with aud := { s.aud with tau := t.aud.tau } } ∧
      ((∀ x ∈ s.aud.odf, x = 0) → t.aud.tau = s.aud.tau))) ∧
  rateCode 524288 = 2 ∧ rateCode 262144 = 3 ∧ rateCode 570654 = 1 ∧ rateCode 1 = 0

/-- R375 to R381: a match sets its flag and drives the output by MACT, an overflow wraps the count, takes waiting preloads and
drives the output by OACT, and a capture copies the count, sets CAPF and sets OVR when CAPF was set; each raises GPT with its
enable. An edge of the input of a timer on PIN also counts (log entry 101). A read of CAP clears CAPF. A timer that is stopped,
frozen, disabled, not powered or without a clock neither matches nor overflows. -/
def Obligations.GeneralTimers : Prop :=
  (∀ (n : Fin 8) (c : Word) (s : State),
    (gptRuns s = false ∨ running s (gpt s n) = false ∨ gateOpen s (gpt s n) = false →
      exec (.gptMatch n) s = .next s ∧ exec (.gptOverflow n) s = .next s) ∧
    (gptOn s = false → exec (.gptSwcap n c) s = .next s ∧ exec (.gptCapRead n) s = .next s) ∧
    (∀ r : Bool, gptRuns s = false → exec (.gptCapture n r c) s =
      .next { s with pins := { s.pins with gt := setBit s.pins.gt (fld (gpt s n).cfg 16 3) r } })) ∧
  (∀ (n : Fin 8) (s : State), gptRuns s = true →
    (running s (gpt s n) = true → gateOpen s (gpt s n) = true → (gpt s n).match_.toNat ≤ (gpt s n).top.toNat → Gives (.gptMatch n) s fun t =>
      gpt t n = { gpt s n with mf := true, count := (gpt s n).match_, out := flipFlop (fld (gpt s n).cfg 5 2) (gpt s n).out } ∧
      (bit (gpt s n).cfg 2 = true → raised .gpt t = true ∧ ∀ k : KIdx, bit (kes t k).pend (4 + n.val) = true) ∧
      (∀ m : Fin 8, m ≠ n → gpt t m = gpt s m)) ∧
    ((gpt s n).top.toNat < (gpt s n).match_.toNat → exec (.gptMatch n) s = .next s) ∧
    (running s (gpt s n) = true → gateOpen s (gpt s n) = true → Gives (.gptOverflow n) s fun t =>
      gpt t n = { gpt s n with
        ovf := true, count := 0, out := flipFlop (fld (gpt s n).cfg 3 2) (gpt s n).out
        top := (gpt s n).topNext.getD (gpt s n).top, match_ := (gpt s n).matchNext.getD (gpt s n).match_
        topNext := none, matchNext := none } ∧
      (bit (gpt s n).cfg 1 = true → raised .gpt t = true) ∧ (bit (gpt s n).cfg 1 = false → t = { s with gpt := t.gpt }) ∧
      (∀ m : Fin 8, m ≠ n → gpt t m = gpt s m)) ∧
    (∀ (r : Bool) (c : Word),
      (bit (gpt s n).cfg (if r then 21 else 22) = false → fld (gpt s n).cfg 29 2 ≠ 3 → exec (.gptCapture n r c) s =
        .next { s with pins := { s.pins with gt := setBit s.pins.gt (fld (gpt s n).cfg 16 3) r } }) ∧
      (Gives (.gptCapture n r c) s fun t => (∀ m : Fin 8, m ≠ n → gpt t m = gpt s m) ∧
        t.pins = { s.pins with gt := setBit s.pins.gt (fld (gpt s n).cfg 16 3) r } ∧ (gpt t n).cfg = (gpt s n).cfg ∧
        (bit (gpt s n).cfg (if r then 21 else 22) = false → (gpt t n).cap = (gpt s n).cap ∧ (gpt t n).capf = (gpt s n).capf ∧
          (gpt t n).ovr = (gpt s n).ovr) ∧
        (bit (gpt s n).cfg (if r then 21 else 22) = true → (gpt t n).capf = true ∧
          (gpt t n).ovr = ((gpt s n).ovr || (gpt s n).capf) ∧
          (gpt t n).cap = (if running s (gpt s n) && decide (fld (gpt s n).cfg 29 2 < 2) then c else (gpt s n).count) ∧
          (bit (gpt s n).cfg 0 = true → raised .gpt t = true)) ∧
        (fld (gpt s n).cfg 29 2 ≠ 3 ∨ running s (gpt s n) = false → (gpt t n).count = (gpt s n).count ∧
          (gpt t n).pre = (gpt s n).pre ∧ (gpt t n).out = (gpt s n).out) ∧
        (fld (gpt s n).cfg 29 2 = 3 → running s (gpt s n) = true → bit (gpt s n).cfg 24 = false →
          (fld (gpt s n).cfg 19 2 = 0 → r = true) → (fld (gpt s n).cfg 19 2 = 1 → r = false) →
          fld (gpt s n).cfg 8 8 ≤ (gpt s n).pre →
          ((gpt s n).count ≠ (gpt s n).top → (gpt t n).count = (gpt s n).count + 1) ∧
          ((gpt s n).count = (gpt s n).top → (gpt t n).count = 0 ∧ (gpt t n).ovf = true))))) ∧
  (∀ (n : Fin 8) (s : State), gptOn s = true →
    (∀ c : Word, Gives (.gptSwcap n c) s fun t =>
      gpt t n = { gpt s n with
        cap := (if running s (gpt s n) && decide (fld (gpt s n).cfg 29 2 < 2) then c else (gpt s n).count)
        ovr := (gpt s n).ovr || (gpt s n).capf, capf := true } ∧
      (bit (gpt s n).cfg 0 = true → raised .gpt t = true) ∧ (bit (gpt s n).cfg 0 = false → t = { s with gpt := t.gpt }) ∧
      (∀ m : Fin 8, m ≠ n → gpt t m = gpt s m)) ∧
    (Gives (.gptCapRead n) s fun t => gpt t n = { gpt s n with capf := false } ∧ (∀ m : Fin 8, m ≠ n → gpt t m = gpt s m) ∧
      t = { s with gpt := t.gpt }))

/-- R382, R384 to R387, R390, R391, R393 to R395, Table 16.2: the command at the head of the queue leaves it by its own row; a
check that fails gives its result code and changes nothing else; what passes acts and answers, and MGMT is raised for every
function but NOP and READ. An access that has to wait leaves its command in the queue. The content engine moves between its
states, and cells enter the queue of 8 or the image. -/
def Obligations.ManagementAndContent : Prop :=
  (∀ s : State, (chainRuns s = false ∨ s.mgt.queue = [] → ∀ x ∈ [Instr.mgmtNop, .mgmtRead, .mgmtWrite, .mgmtMode, .mgmtGate,
      .mgmtCommit, .mgmtKeyset, .contentBegin false, .contentCheck false, .contentActivate false, .contentAbort false,
      .faultLogClear false], exec x s = .next s)) ∧
  (∀ (c : List Byte) (rest : List (List Byte)) (s : State), chainRuns s = true → s.mgt.queue = c :: rest →
    (∀ x ∈ [(Instr.mgmtRead, 1), (.mgmtWrite, 2), (.mgmtMode, 3), (.mgmtGate, 4), (.mgmtCommit, 5), (.mgmtKeyset, 6),
      (.contentBegin false, 7), (.contentCheck false, 7), (.contentActivate false, 7), (.contentAbort false, 7),
      (.faultLogClear false, 8)],
      (cmdFn c ≠ x.2 → exec x.1 s = .next s) ∧
      (∀ r : Nat, cmdCheck s.mgt c = some r → cmdFn c = x.2 →
        (∀ y ∈ [(Instr.contentBegin false, 1), (.contentCheck false, 2), (.contentActivate false, 3), (.contentAbort false, 4)],
          x.1 = y.1 → cmdByte c 1 = y.2) → Gives x.1 s fun t =>
          t = { s with mgt := t.mgt, host := t.host } ∧ (2 ≤ x.2 → raised .mgmt t = true) ∧ (x.2 = 1 → t.host = s.host) ∧
          t.mgt = { s.mgt with queue := rest, rseq := cmdSeq c, rfn := BitVec.ofNat 8 (cmdFn c), rres := BitVec.ofNat 8 r
                               rdata := 0 })) ∧
    (∀ x ∈ [(Instr.contentBegin false, 1), (.contentCheck false, 2), (.contentActivate false, 3), (.contentAbort false, 4)],
      cmdByte c 1 ≠ x.2 → (x.2 = 1 → 1 ≤ cmdByte c 1 ∧ cmdByte c 1 ≤ 4) → exec x.1 s = .next s) ∧
    (1 ≤ cmdFn c → cmdFn c ≤ 8 → exec .mgmtNop s = .next s) ∧
    (cmdFn c = 0 → Gives .mgmtNop s fun t => t = { s with mgt := t.mgt } ∧ t.mgt.rres = 0 ∧ t.mgt.queue = rest ∧
      t.mgt.mseq = s.mgt.mseq ∧ t.mgt.rseq = cmdSeq c) ∧
    (9 ≤ cmdFn c → Gives .mgmtNop s fun t => t = { s with mgt := t.mgt, host := t.host } ∧ t.mgt.rres = 3 ∧
      t.mgt.queue = rest ∧ t.mgt.mseq = s.mgt.mseq ∧ raised .mgmt t = true) ∧
    (cmdCheck s.mgt c = none →
      (∀ x ∈ [(Instr.mgmtRead, 1), (.mgmtWrite, 2)], cmdFn c = x.2 →
        accessWaits s ((cmdAddr c).toNat / 4 * 4) (x.2 == 2) = true → exec x.1 s = .next s) ∧
      (cmdFn c = 1 → accessWaits s ((cmdAddr c).toNat / 4 * 4) false = false →
        Gives .mgmtRead s fun t => t.mgt.queue = rest ∧ t.mgt.rseq = cmdSeq c ∧
          t.mgt.rres.toNat = (ending s .mgmt ((cmdAddr c).toNat / 4 * 4) .read).result ∧
          (ending s .mgmt ((cmdAddr c).toNat / 4 * 4) .read = .data →
            t.mgt.rdata = (mapRead (Admitted s c rest) ((cmdAddr c).toNat / 4 * 4)).1 ∧
            ((mapRead (Admitted s c rest) ((cmdAddr c).toNat / 4 * 4)).2 = true → t.mgt.rpois = true)) ∧
          (ending s .mgmt ((cmdAddr c).toNat / 4 * 4) .read ≠ .data → t = { s with mgt := t.mgt } ∧ t.mgt.rdata = 0)) ∧
      (cmdFn c = 2 → accessWaits s ((cmdAddr c).toNat / 4 * 4) true = false → Gives .mgmtWrite s fun t =>
        t.mgt.rseq = cmdSeq c ∧ raised .mgmt t = true ∧ t.mgt.rres.toNat =
          (ending s .mgmt ((cmdAddr c).toNat / 4 * 4) (.write 4 (cmdData c) false)).result ∧
        (ending s .mgmt ((cmdAddr c).toNat / 4 * 4) (.write 4 (cmdData c) false) ≠ .data →
          t = { s with mgt := t.mgt, host := t.host } ∧ t.mgt.mseq = cmdSeq c) ∧
        (ending s .mgmt ((cmdAddr c).toNat / 4 * 4) (.write 4 (cmdData c) false) = .data → s.mem.wf = true →
          ∀ m : Nat, memOf ((cmdAddr c).toNat / 4 * 4) = some m → t.mgt.mseq = cmdSeq c ∧
            rawWord t.mem ((cmdAddr c).toNat / 4 * 4) = mergedWord s m ((cmdAddr c).toNat / 4 * 4) 4 (cmdData c) false ∧
            OtherWords s t ((cmdAddr c).toNat / 4 * 4))) ∧
      (cmdFn c = 3 → Gives .mgmtMode s fun t => t.mode = { s.mode with mgmtReq := some (BitVec.ofNat 3 (cmdByte c 1)) } ∧
        t.mgt.rres = 0 ∧ t.mgt.mseq = cmdSeq c ∧ t.mgt.queue = rest ∧ raised .mgmt t = true) ∧
      (cmdFn c = 4 → Gives .mgmtGate s fun t => t.mgt.mseq = cmdSeq c ∧ t.mgt.queue = rest ∧ raised .mgmt t = true ∧
        t.gate = (gateCommand .mgmt (GateCmd.ofCode (cmdByte c 1 % 8)) ((cmdAddr c).setWidth 7) (Admitted s c rest)).gate ∧
        (gateRefuses s (GateCmd.ofCode (cmdByte c 1 % 8)) .mgmt (gateDomain ((cmdAddr c).setWidth 7)) = true →
          t.mgt.rres = 5 ∧ t.gate.pd = s.gate.pd) ∧
        (gateRefuses s (GateCmd.ofCode (cmdByte c 1 % 8)) .mgmt (gateDomain ((cmdAddr c).setWidth 7)) = false →
          t.mgt.rres = 0)) ∧
      (cmdFn c = 5 → Gives .mgmtCommit s fun t => t.mgt.rres = 0 ∧ t.mgt.mseq = cmdSeq c ∧ t.mgt.queue = rest ∧
        t.epoch = (commit (Admitted s c rest)).epoch ∧ raised .mgmt t = true) ∧
      (cmdFn c = 6 →
        (cmdByte c 1 = 16 → Gives .mgmtKeyset s fun t => t = { s with mgt := t.mgt, host := t.host } ∧ t.mgt.rres = 0 ∧
          t.mgt.mseq = 0 ∧ t.mgt.mkey = aesDecrypt s.mgt.mkey (slice c 20 16) ∧ raised .mgmt t = true) ∧
        (∀ n : SIdx, cmdByte c 1 = n.val → pdOn s 12 = true → Gives .mgmtKeyset s fun t => t.mgt.rres = 0 ∧
          sess t n = { sess s n with key := aesDecrypt s.mgt.mkey (slice c 20 16), seq := 0 } ∧
          (∀ m : SIdx, m ≠ n → sess t m = sess s m) ∧ t.mgt.mkey = s.mgt.mkey ∧ raised .mgmt t = true) ∧
        (16 < cmdByte c 1 ∨ cmdByte c 1 < 16 ∧ pdOn s 12 = false → Gives .mgmtKeyset s fun t =>
          t = { s with mgt := t.mgt, host := t.host } ∧ t.mgt.rres = (if 16 < cmdByte c 1 then 5 else 6) ∧
          t.mgt.mkey = s.mgt.mkey ∧ raised .mgmt t = true)) ∧
      (∀ x ∈ [(Instr.contentBegin false, 1), (.contentCheck false, 2), (.contentActivate false, 3), (.contentAbort false, 4)],
        cmdFn c = 7 → cmdByte c 1 = x.2 → Gives x.1 s fun t => t = { s with mgt := t.mgt, host := t.host } ∧
          t.mgt.rres.toNat = (contentOp x.2 (cmdAddr c) (cmdData c).toNat (Admitted s c rest)).2 ∧ raised .mgmt t = true ∧
          t.mgt = { (contentOp x.2 (cmdAddr c) (cmdData c).toNat (Admitted s c rest)).1.mgt with
            rseq := cmdSeq c, rfn := 7, rres := t.mgt.rres, rdata := t.mgt.rdata }) ∧
      (cmdFn c = 7 → cmdByte c 1 = 0 ∨ 4 < cmdByte c 1 → Gives (.contentBegin false) s fun t =>
        t = { s with mgt := t.mgt, host := t.host } ∧ t.mgt.rres = 5 ∧ t.mgt.cstate = s.mgt.cstate ∧ raised .mgmt t = true) ∧
      (cmdFn c = 8 → Gives (.faultLogClear false) s fun t => t = { s with mgt := t.mgt, host := t.host } ∧ t.mgt.rres = 0 ∧
        t.mgt.log = [] ∧ t.mgt.logTotal = 0 ∧ t.mgt.mseq = cmdSeq c))) ∧
  (∀ s : State,
    (hostUp s = false → ∀ i ∈ [Instr.contentBegin true, .contentCheck true, .contentActivate true, .contentAbort true,
      .faultLogClear true], exec i s = .next s) ∧
    (hostUp s = true →
      (contentBusy s.mgt = true → ∀ i ∈ [Instr.contentBegin true, .contentCheck true, .contentActivate true],
        exec i s = .next s) ∧
      (beginAllowed s.mgt s.mgt.hostLen.toNat = false → exec (.contentBegin true) s = .next s) ∧
      (contentBusy s.mgt = false → beginAllowed s.mgt s.mgt.hostLen.toNat = true → Gives (.contentBegin true) s fun t =>
        t.mgt.cstate = 1 ∧ t.mgt.cid = s.mgt.hostCid ∧ t.mgt.chunks = [] ∧ t = { s with mgt := t.mgt }) ∧
      (s.mgt.cstate = 1 ∨ s.mgt.cstate = 3 → exec (.contentCheck true) s =
        .next { s with mgt := { s.mgt with cstate := 2, reason := 0, unsigned := false } }) ∧
      (s.mgt.cstate ≠ 1 → s.mgt.cstate ≠ 3 → exec (.contentCheck true) s = .next s) ∧
      (s.mgt.cstate = 3 → s.mode.code = .service → exec (.contentActivate true) s =
        .next { s with mgt := { s.mgt with cstate := 4, abort := false } }) ∧
      (s.mgt.cstate ≠ 3 ∨ s.mode.code ≠ .service → exec (.contentActivate true) s = .next s) ∧
      (s.mgt.cstate = 4 → exec (.contentAbort true) s = .next { s with mgt := { s.mgt with abort := true } }) ∧
      (s.mgt.cstate ≠ 4 → exec (.contentAbort true) s =
        .next { s with mgt := { s.mgt with cstate := 0, reason := 0, chunks := [] } }) ∧
      (exec (.faultLogClear true) s = .next { s with mgt := { s.mgt with log := [], logTotal := 0, logHead := 0 } })) ∧
    (∀ v : Word,
      (Config.mklock = true ∨ pd1Up s = false ∨ s.mode.code = .roost → exec (.mgmtKeyWrite v) s = .next s) ∧
      (Config.mklock = false → pd1Up s = true → s.mode.code ≠ .roost → Gives (.mgmtKeyWrite v) s fun t =>
        t = { s with mgt := { s.mgt with mkey := t.mgt.mkey, mseq := 0 } } ∧ t.mgt.mkey.setWidth 32 = v ∧
        t.mgt.mkey >>> 32 = ((s.mgt.mkeyStage[0] ++ s.mgt.mkeyStage[1] : BitVec 64) ++ s.mgt.mkeyStage[2]).setWidth 128))) ∧
  (∀ s : State,
    (s.mgt.cstate ≠ 2 → exec .contentCheckDone s = .next s) ∧
    (s.mgt.cstate = 2 → Gives .contentCheckDone s fun t => raised .mgmt t = true ∧
      (t.mgt.cstate = 3 ∧ t.mgt.reason = 0 ∨ t.mgt.cstate = 6 ∧ t.mgt.reason ≠ 0) ∧
      ((engineRead s s.mgt.cstage.toNat s.mgt.len).2.2 = true → t.mgt.reason = 5 ∧ t.mem = s.mem)) ∧
    (s.mgt.cstate ≠ 4 → exec .contentActivateDone s = .next s) ∧
    (s.mgt.cstate = 4 → Gives .contentActivateDone s fun t =>
      (t.mgt.cstate = 5 ∧ t.mgt.reason = 0 ∧ s.mgt.abort = false) ∨
      (t.mgt.cstate = 6 ∧ (t.mgt.reason = 4 ∨ t.mgt.reason = 5 ∨ t.mgt.reason = 6 ∧ s.mgt.abort = true)))) ∧
  (∀ (c : CellRx) (s : State), tapRuns s (ringPort c.ring) = true → (c.ok && cellCrcOk c.bytes) = true →
    (addressedHere s c.bytes && !cellSeen s c) = true → takesMgmt s = true →
    (cellType c.bytes = 5 →
      (cellAux c.bytes / 256 % 16 ≠ 4 → Gives (.mgmtCommandQueue c) s fun t =>
        t = { s with chn := t.chn, mgt := { s.mgt with badform := satInc s.mgt.badform } }) ∧
      (cellAux c.bytes / 256 % 16 = 4 → s.mgt.queue.length < 8 → Gives (.mgmtCommandQueue c) s fun t =>
        t = { s with chn := t.chn, mgt := { s.mgt with queue := s.mgt.queue ++ [c.bytes.toList.take 68] } }) ∧
      (cellAux c.bytes / 256 % 16 = 4 → 8 ≤ s.mgt.queue.length → Gives (.mgmtCommandQueue c) s fun t =>
        t = { s with chn := t.chn, mgt := { s.mgt with cdrop := satInc s.mgt.cdrop } })) ∧
    (cellType c.bytes = 7 →
      (s.mgt.cstate ≠ 1 ∨ payNum c.bytes 0 4 ≠ s.mgt.cid.toNat ∨ payNum c.bytes 4 4 % 56 ≠ 0 ∨ s.mgt.len ≤ payNum c.bytes 4 4 →
        Gives (.bulkCell c) s fun t => t = { s with chn := t.chn, mgt := { s.mgt with bulkdrop := satInc s.mgt.bulkdrop } }) ∧
      (s.mgt.cstate = 1 → payNum c.bytes 0 4 = s.mgt.cid.toNat → payNum c.bytes 4 4 % 56 = 0 →
        payNum c.bytes 4 4 < s.mgt.len → Gives (.bulkCell c) s fun t =>
          t.mgt.chunks = (if s.mgt.chunks.contains (payNum c.bytes 4 4 / 56) then s.mgt.chunks
            else payNum c.bytes 4 4 / 56 :: s.mgt.chunks) ∧
          t.mgt.bulkdrop = s.mgt.bulkdrop ∧
          t.mgt.cstate = (if t.mgt.chunks.length = chunkCount s.mgt.len then 2 else 1))))

/-- R76, R166, R432, R433: a JTAG instruction is only selected; KDEBUG starts one access, unless one is in progress, which ends
with data or ABSENT, and with the fuse JTAGDBG at 0 always ABSENT and without an effect. An access whose target is frozen
waits. -/
def Obligations.JtagSelectsAndDebugs : Prop :=
  (∀ s : State, ∀ x ∈ [(Instr.extest, JtagIr.extest), (.samplePreload, .sample), (.idcode, .idcode), (.extestPulse, .extestPulse),
    (.extestTrain, .extestTrain), (.highz, .highz), (.clamp, .clamp), (.kdebug, .kdebug), (.bypass, .bypass)],
    exec x.1 s = .next { s with jtag := { s.jtag with ir := x.2 } }) ∧
  (∀ (dr : BitVec 65) (s : State),
    (s.jtag.ir ≠ .kdebug ∨ s.jtag.acc.isSome = true → exec (.kdebugUpdate dr) s = .next s) ∧
    (s.jtag.ir = .kdebug → s.jtag.acc = none → exec (.kdebugUpdate dr) s = .next { s with
      jtag := { s.jtag with acc := some { addr := (dr >>> 32).setWidth 32
                                          data := if bit dr 64 then some (dr.setWidth 32) else none
                                          adm := admission s .jtag (((dr >>> 32).setWidth 32 : Word).toNat / 4 * 4) (bit dr 64) } } })) ∧
  (∀ s : State, s.jtag.acc = none → exec .kdebugAccessEnd s = .next s) ∧
  (∀ (x : Access) (s : State), s.jtag.acc = some x →
    (Config.jtagdbg = false → exec .kdebugAccessEnd s =
      .next { s with jtag := { s.jtag with acc := none, data := 0, absent := true } }) ∧
    (Config.jtagdbg = true → accessWaits s (x.addr.toNat / 4 * 4) x.data.isSome = true → exec .kdebugAccessEnd s = .next s) ∧
    (Config.jtagdbg = true → accessWaits s (x.addr.toNat / 4 * 4) x.data.isSome = false →
      Gives .kdebugAccessEnd s fun t => t.jtag.acc = none ∧
      (endingOf s x.adm (x.addr.toNat / 4 * 4) (winAsk x.data) ≠ .data →
        t = { s with jtag := { s.jtag with acc := none, data := 0, absent := true } }) ∧
      (endingOf s x.adm (x.addr.toNat / 4 * 4) (winAsk x.data) = .data → t.jtag.absent = false ∧
        (x.data = none → t.jtag.data = (mapRead s (x.addr.toNat / 4 * 4)).1) ∧
        (∀ (v : Word) (m : Nat), x.data = some v → s.mem.wf = true → memOf (x.addr.toNat / 4 * 4) = some m →
          rawWord t.mem (x.addr.toNat / 4 * 4) = mergedWord s m (x.addr.toNat / 4 * 4) 4 v false ∧
          OtherWords s t (x.addr.toNat / 4 * 4)))))
end

