-- ==== Sys2Proof/Laws/Cells.lean ====
section
/-! SUPPORT. Sparse arrays: reading after a store, stores elsewhere, and the canonical form, which every store keeps. -/

namespace Sys2Proof.Machine

variable {w : Nat} (d : Nat → BitVec w)

/-- Keys of a canonical array lie above its bound. -/
theorem cget_of_le (c : Cells w) (b k : Nat) (h : cellsAbove d (some b) c = true) (hk : k ≤ b) : cget d c k = d k := by
  induction c generalizing b with
  | nil => rfl
  | cons e c ih =>
    obtain ⟨j, v⟩ := e
    simp only [cellsAbove, Bool.and_eq_true, decide_eq_true_eq] at h
    have hj : j ≠ k := by omega
    simp only [cget, hj, if_false]
    exact ih j h.2 (by omega)

/-- An array above a bound is above any lower bound. -/
theorem cellsAbove_mono (c : Cells w) (b b' : Option Nat) (h : cellsAbove d b c = true)
    (hb : ∀ x, b' = some x → ∃ y, b = some y ∧ x ≤ y) : cellsAbove d b' c = true := by
  cases c with
  | nil => rfl
  | cons e c =>
    obtain ⟨j, v⟩ := e
    simp only [cellsAbove, Bool.and_eq_true] at h ⊢
    refine ⟨⟨?_, h.1.2⟩, h.2⟩
    cases b' with
    | none => rfl
    | some x =>
      obtain ⟨y, rfl, hy⟩ := hb x rfl
      simp only [decide_eq_true_eq] at h ⊢
      omega

/-- Removing a key keeps the form. -/
theorem cdel_above (c : Cells w) (b : Option Nat) (k : Nat) (h : cellsAbove d b c = true) :
    cellsAbove d b (cdel c k) = true := by
  induction c generalizing b with
  | nil => rfl
  | cons e c ih =>
    obtain ⟨j, v⟩ := e
    simp only [cdel]
    have h' := h
    simp only [cellsAbove, Bool.and_eq_true] at h
    split
    · refine cellsAbove_mono d c (some j) b h.2 fun x hx => ⟨j, rfl, ?_⟩
      subst hx
      simp only [decide_eq_true_eq] at h
      omega
    · simp only [cellsAbove, Bool.and_eq_true]
      exact ⟨h.1, ih _ h.2⟩

/-- A key above a bound, as cellsAbove says it. -/
theorem cins_bound (b : Option Nat) (k : Nat) : (∀ y, b = some y → y < k) →
    (match b with | none => true | some b => decide (b < k)) = true := by
  intro hb
  cases b with
  | none => rfl
  | some y => simpa using hb y rfl

/-- Inserting a value that differs from the default keeps the form. -/
theorem cins_above (c : Cells w) (b : Option Nat) (k : Nat) (x : BitVec w) (h : cellsAbove d b c = true)
    (hx : x ≠ d k) (hb : ∀ y, b = some y → y < k) : cellsAbove d b (cins c k x) = true := by
  induction c generalizing b with
  | nil =>
    simp only [cins, cellsAbove, Bool.and_eq_true, bne_iff_ne]
    refine ⟨⟨?_, hx⟩, trivial⟩
    cases b with
    | none => rfl
    | some y => simpa using hb y rfl
  | cons e c ih =>
    obtain ⟨j, v⟩ := e
    have h' := h
    simp only [cellsAbove, Bool.and_eq_true] at h
    have hbk := cins_bound b k hb
    simp only [cins]
    split
    · rename_i hkj
      simp only [cellsAbove, Bool.and_eq_true, bne_iff_ne]
      exact ⟨⟨hbk, hx⟩, ⟨by simpa using hkj, by simpa using h.1.2⟩, h.2⟩
    · split
      · rename_i hkj
        subst hkj
        simp only [cellsAbove, Bool.and_eq_true, bne_iff_ne]
        exact ⟨⟨hbk, hx⟩, h.2⟩
      · simp only [cellsAbove, Bool.and_eq_true]
        exact ⟨h.1, ih _ h.2 fun y hy => by cases hy; omega⟩

/-- A store keeps the canonical form. -/
theorem cput_wf (c : Cells w) (k : Nat) (x : BitVec w) (h : cellsWf d c = true) : cellsWf d (cput d c k x) = true := by
  unfold cput
  split
  · exact cdel_above d c none k h
  · exact cins_above d c none k x h ‹_› (fun y hy => by cases hy)

/-- Stores at ascending keys keep the canonical form. -/
theorem cputs_wf (c : Cells w) (k : Nat) (l : List (BitVec w)) (h : cellsWf d c = true) :
    cellsWf d (cputs d c k l) = true := by
  induction l generalizing c k with
  | nil => exact h
  | cons x l ih => exact ih _ _ (cput_wf d c k x h)

/-- Keeping some entries keeps the form. -/
theorem filter_above (f : Nat × BitVec w → Bool) (c : Cells w) (b : Option Nat) (h : cellsAbove d b c = true) :
    cellsAbove d b (c.filter f) = true := by
  induction c generalizing b with
  | nil => rfl
  | cons e c ih =>
    obtain ⟨j, v⟩ := e
    have h' := h
    simp only [cellsAbove, Bool.and_eq_true] at h
    rw [List.filter_cons]
    split
    · simp only [cellsAbove, Bool.and_eq_true]
      exact ⟨h.1, ih _ h.2⟩
    · refine cellsAbove_mono d _ (some j) b (ih _ h.2) fun x hx => ⟨j, rfl, ?_⟩
      subst hx
      simp only [decide_eq_true_eq] at h
      omega

/-- Reading after removing a key of a canonical array. -/
theorem cget_cdel (c : Cells w) (b : Option Nat) (k a : Nat) (h : cellsAbove d b c = true) :
    cget d (cdel c k) a = if a = k then d k else cget d c a := by
  induction c generalizing b with
  | nil => simp only [cdel, cget]; split <;> simp_all
  | cons e c ih =>
    obtain ⟨j, v⟩ := e
    simp only [cellsAbove, Bool.and_eq_true] at h
    simp only [cdel]
    split
    · rename_i hj
      subst hj
      split
      · rename_i ha; subst ha; exact cget_of_le d c _ _ h.2 (Nat.le_refl _)
      · rename_i ha; simp [cget, Ne.symm ha]
    · rename_i hj
      simp only [cget]
      split
      · rename_i ha; subst ha; simp [hj]
      · exact ih _ h.2

/-- Reading after an insertion. -/
theorem cget_cins (c : Cells w) (k a : Nat) (x : BitVec w) :
    cget d (cins c k x) a = if a = k then x else cget d c a := by
  induction c with
  | nil => simp only [cins, cget, eq_comm]
  | cons e c ih =>
    obtain ⟨j, v⟩ := e
    simp only [cins]
    split
    · simp only [cget, eq_comm]
    · split
      · rename_i hj
        subst hj
        simp only [cget]
        by_cases ha : a = k
        · subst ha; simp
        · simp [ha, Ne.symm ha]
      · rename_i hj _
        simp only [cget, ih]
        split
        · rename_i ha; subst ha; simp [Ne.symm ‹_›]
        · rfl

/-- A read after a store gives the value stored, and every other key reads as before. -/
theorem cget_cput (c : Cells w) (k a : Nat) (x : BitVec w) (h : cellsWf d c = true) :
    cget d (cput d c k x) a = if a = k then x else cget d c a := by
  unfold cput
  split
  · rename_i hx; rw [cget_cdel d c none k a h, hx]
  · exact cget_cins d c k a x

/-- Storing a word keeps the memories' form. -/
theorem putRaw_wf (m : Mem) (a : Nat) (c : Code) (h : m.wf = true) : (putRaw m a c).wf = true := cput_wf _ _ _ _ h

/-- Zeroing a domain's memories keeps the form. -/
theorem zeroDomain_wf (n : Nat) (m : Mem) (h : m.wf = true) : (zeroDomain n m).wf = true := filter_above _ _ _ _ h

/-- The stored word that holds an address after a store: the new one in that word, the old one elsewhere. -/
theorem rawWord_putRaw (m : Mem) (a b : Nat) (c : Code) (h : m.wf = true) :
    rawWord (putRaw m a c) b = if b / 8 = a / 8 then c else rawWord m b := cget_cput _ _ _ _ _ h

end Sys2Proof.Machine
end

