-- ==== Sys2Proof/Laws/Lists.lean ====
section
/-! SUPPORT. Folds that keep a quantity, and numbers as bytes. -/

namespace Sys2Proof.Machine

/-- A fold keeps what each of its steps keeps. -/
theorem foldl_keep {α β γ : Type} (m : β → γ) (f : β → α → β) (h : ∀ b a, m (f b a) = m b) (l : List α) (b : β) :
    m (l.foldl f b) = m b := by
  induction l generalizing b with
  | nil => rfl
  | cons a l ih => simp [ih, h]

/-- The bytes of a number, little-endian, give it back modulo their range. -/
theorem leNat_leBytes (n v : Nat) : leNat (leBytes n v) = v % 256 ^ n := by
  induction n generalizing v with
  | zero => simp [leBytes, leNat, Nat.mod_one]
  | succ n ih =>
    have h : v % 256 ^ (n + 1) = v % 256 + 256 * (v / 256 % 256 ^ n) := by rw [pow_succ', Nat.mod_mul]
    rw [h, ← ih]
    rfl

/-- A big-endian number is the little-endian one of the reversed bytes. -/
theorem beNat_reverse (bs : List Byte) : beNat bs.reverse = leNat bs := by
  induction bs with
  | nil => rfl
  | cons b bs ih => simp only [beNat, List.reverse_cons, List.foldl_append, leNat] at *; simp [ih]; omega

/-- The bytes of a number, big-endian, give it back modulo their range. -/
theorem beNat_beBytes (n v : Nat) : beNat (beBytes n v) = v % 256 ^ n := by
  rw [beBytes, beNat_reverse, leNat_leBytes]

/-- A number has as many bytes as were asked for. -/
theorem leBytes_length (n v : Nat) : (leBytes n v).length = n := by
  induction n generalizing v with
  | zero => rfl
  | succ n ih => simp [leBytes, ih]

end Sys2Proof.Machine
end

