-- ==== Sys2Proof/Laws/Crc.lean ====
section
/-! SUPPORT. Sealed cells pass their CRC (R175), and their MAC fields are what was put there (R206). -/

namespace Sys2Proof.Machine

/-- One bit keeps the register inside 32 bits. -/
theorem crcBit_lt (r : Nat) (h : r < 2 ^ 32) : crcBit r < 2 ^ 32 := by
  unfold crcBit
  split
  · exact Nat.xor_lt_two_pow (by omega) (by decide)
  · omega

/-- One byte keeps the register inside 32 bits. -/
theorem crcByte_lt (r : Nat) (b : Byte) (h : r < 2 ^ 32) : crcByte r b < 2 ^ 32 := by
  have hb : b.toNat < 2 ^ 32 := by omega
  exact crcBit_lt _ (crcBit_lt _ (crcBit_lt _ (crcBit_lt _ (crcBit_lt _ (crcBit_lt _ (crcBit_lt _ (crcBit_lt _
    (Nat.xor_lt_two_pow h hb))))))))

/-- The CRC is a 32-bit number. -/
theorem crc32c_lt (bs : List Byte) : crc32c bs < 2 ^ 32 := by
  have h : ∀ (l : List Byte) (r : Nat), r < 2 ^ 32 → l.foldl crcByte r < 2 ^ 32 := by
    intro l
    induction l with
    | nil => intro r hr; simpa using hr
    | cons b l ih => intro r hr; exact ih _ (crcByte_lt r b hr)
  exact Nat.xor_lt_two_pow (h bs _ (by decide)) (by decide)

/-- The cell whose bytes are a list's. -/
def cellOf (l : List Byte) : CellBytes := Vector.ofFn fun i => l.getD i.val 0

/-- Byte `i` of that cell. -/
theorem cellByte_cellOf (l : List Byte) (i : Nat) (h : i < 72) : cellByte (cellOf l) i = l.getD i 0 := by
  simp [cellByte, cellOf, vget, h]

/-- A sealed cell passes its CRC. -/
theorem cellCrcOk_sealed (l : List Byte) : cellCrcOk (cellOf (sealCell l)) = true := by
  have hlen : (slice l 0 68).length = 68 := by simp [slice]
  have htake : (cellOf (sealCell l)).toList.take 68 = slice l 0 68 := by
    apply List.ext_getElem
    · simp [cellOf, hlen]
    · intro i h1 h2
      have hi : i < 68 := by simpa [hlen] using h2
      simp [cellOf, sealCell, List.getElem?_append_left, h2]
  have hcrc : ((List.range 4).map fun k => cellByte (cellOf (sealCell l)) (68 + k)) = leBytes 4 (crc32c (slice l 0 68)) := by
    apply List.ext_getElem
    · simp [leBytes_length]
    · intro i h1 h2
      have hi : i < 4 := by simpa using h1
      have : 68 + i < 72 := by omega
      simp [cellByte_cellOf _ _ this, sealCell, hlen, h2]
  rw [cellCrcOk, htake, hcrc, leNat_leBytes]
  have := crc32c_lt (slice l 0 68)
  simp only [beq_iff_eq]
  omega

/-- Byte `i` of a sealed cell, before its CRC. -/
theorem cellByte_sealed (l : List Byte) (i : Nat) (h : i < 68) : cellByte (cellOf (sealCell l)) i = l.getD i 0 := by
  have hlen : i < (slice l 0 68).length := by simpa [slice] using h
  rw [cellByte_cellOf _ _ (by omega), sealCell, List.getD_eq_getElem?_getD, List.getElem?_append_left hlen]
  simp [slice, h]

/-- The bytes that a MAC covers are the first 52. -/
theorem macBytes_sealed (base rest : List Byte) (h : base.length = 52) :
    macBytes (cellOf (sealCell (base ++ rest))) = base := by
  apply List.ext_getElem
  · simp [macBytes, h]
  · intro i h1 h2
    simp only [macBytes, List.getElem_map, List.getElem_range]
    rw [cellByte_sealed _ _ (by omega), List.getD_eq_getElem?_getD, List.getElem?_append_left h2,
      List.getElem?_eq_getElem h2]
    rfl

/-- The tag is the 16 bytes that follow. -/
theorem macTag_sealed (base : List Byte) (tag : BitVec 128) (h : base.length = 52) :
    macTag (cellOf (sealCell (base ++ beBytes 16 tag.toNat))) = tag := by
  have e : ((List.range 16).map fun k => payByte (cellOf (sealCell (base ++ beBytes 16 tag.toNat))) (48 + k)) =
      beBytes 16 tag.toNat := by
    apply List.ext_getElem
    · simp [beBytes, leBytes_length]
    · intro i h1 h2
      have hi : i < 16 := by simpa using h1
      simp only [List.getElem_map, List.getElem_range, payByte]
      rw [cellByte_sealed _ _ (by omega), List.getD_eq_getElem?_getD, List.getElem?_append_right (by omega),
        show 4 + (48 + i) - base.length = i by omega, List.getElem?_eq_getElem h2]
      rfl
  have l : tag.toNat < 256 ^ 16 := tag.isLt
  rw [macTag, payNum, e, beNat_beBytes, Nat.mod_eq_of_lt l, BitVec.ofNat_toNat, BitVec.setWidth_eq]

end Sys2Proof.Machine
end

