-- ==== Sys2Proof/Laws/State.lean ====
section
/-! SUPPORT. One lemma per field per update of State, true by rfl. -/

namespace Sys2Proof.Machine.State

@[simp] theorem setMode_mode (s : State) (x : ModeCtl) : (s.setMode x).mode = x := rfl
@[simp] theorem setMode_owl (s : State) (x : ModeCtl) : (s.setMode x).owl = s.owl := rfl
@[simp] theorem setMode_gate (s : State) (x : ModeCtl) : (s.setMode x).gate = s.gate := rfl
@[simp] theorem setMode_host (s : State) (x : ModeCtl) : (s.setMode x).host = s.host := rfl
@[simp] theorem setMode_sys (s : State) (x : ModeCtl) : (s.setMode x).sys = s.sys := rfl
@[simp] theorem setMode_ckp (s : State) (x : ModeCtl) : (s.setMode x).ckp = s.ckp := rfl
@[simp] theorem setMode_lanes (s : State) (x : ModeCtl) : (s.setMode x).lanes = s.lanes := rfl
@[simp] theorem setMode_chn (s : State) (x : ModeCtl) : (s.setMode x).chn = s.chn := rfl
@[simp] theorem setMode_head (s : State) (x : ModeCtl) : (s.setMode x).head = s.head := rfl
@[simp] theorem setMode_dis (s : State) (x : ModeCtl) : (s.setMode x).dis = s.dis := rfl
@[simp] theorem setMode_vox (s : State) (x : ModeCtl) : (s.setMode x).vox = s.vox := rfl
@[simp] theorem setMode_epoch (s : State) (x : ModeCtl) : (s.setMode x).epoch = s.epoch := rfl
@[simp] theorem setMode_mods (s : State) (x : ModeCtl) : (s.setMode x).mods = s.mods := rfl
@[simp] theorem setMode_kst (s : State) (x : ModeCtl) : (s.setMode x).kst = s.kst := rfl
@[simp] theorem setMode_mem (s : State) (x : ModeCtl) : (s.setMode x).mem = s.mem := rfl
@[simp] theorem setMode_ecc (s : State) (x : ModeCtl) : (s.setMode x).ecc = s.ecc := rfl
@[simp] theorem setMode_mrg (s : State) (x : ModeCtl) : (s.setMode x).mrg = s.mrg := rfl
@[simp] theorem setMode_emt (s : State) (x : ModeCtl) : (s.setMode x).emt = s.emt := rfl
@[simp] theorem setMode_drv (s : State) (x : ModeCtl) : (s.setMode x).drv = s.drv := rfl
@[simp] theorem setMode_aou (s : State) (x : ModeCtl) : (s.setMode x).aou = s.aou := rfl
@[simp] theorem setMode_pix (s : State) (x : ModeCtl) : (s.setMode x).pix = s.pix := rfl
@[simp] theorem setMode_sns (s : State) (x : ModeCtl) : (s.setMode x).sns = s.sns := rfl
@[simp] theorem setMode_aud (s : State) (x : ModeCtl) : (s.setMode x).aud = s.aud := rfl
@[simp] theorem setMode_gpt (s : State) (x : ModeCtl) : (s.setMode x).gpt = s.gpt := rfl
@[simp] theorem setMode_mgt (s : State) (x : ModeCtl) : (s.setMode x).mgt = s.mgt := rfl
@[simp] theorem setMode_dmx (s : State) (x : ModeCtl) : (s.setMode x).dmx = s.dmx := rfl
@[simp] theorem setMode_ros (s : State) (x : ModeCtl) : (s.setMode x).ros = s.ros := rfl
@[simp] theorem setMode_jtag (s : State) (x : ModeCtl) : (s.setMode x).jtag = s.jtag := rfl
@[simp] theorem setMode_pins (s : State) (x : ModeCtl) : (s.setMode x).pins = s.pins := rfl
@[simp] theorem setMode_free (s : State) (x : ModeCtl) : (s.setMode x).free = s.free := rfl
@[simp] theorem setMode_pending (s : State) (x : ModeCtl) : (s.setMode x).pending = s.pending := rfl
@[simp] theorem setOwl_mode (s : State) (x : Owl) : (s.setOwl x).mode = s.mode := rfl
@[simp] theorem setOwl_owl (s : State) (x : Owl) : (s.setOwl x).owl = x := rfl
@[simp] theorem setOwl_gate (s : State) (x : Owl) : (s.setOwl x).gate = s.gate := rfl
@[simp] theorem setOwl_host (s : State) (x : Owl) : (s.setOwl x).host = s.host := rfl
@[simp] theorem setOwl_sys (s : State) (x : Owl) : (s.setOwl x).sys = s.sys := rfl
@[simp] theorem setOwl_ckp (s : State) (x : Owl) : (s.setOwl x).ckp = s.ckp := rfl
@[simp] theorem setOwl_lanes (s : State) (x : Owl) : (s.setOwl x).lanes = s.lanes := rfl
@[simp] theorem setOwl_chn (s : State) (x : Owl) : (s.setOwl x).chn = s.chn := rfl
@[simp] theorem setOwl_head (s : State) (x : Owl) : (s.setOwl x).head = s.head := rfl
@[simp] theorem setOwl_dis (s : State) (x : Owl) : (s.setOwl x).dis = s.dis := rfl
@[simp] theorem setOwl_vox (s : State) (x : Owl) : (s.setOwl x).vox = s.vox := rfl
@[simp] theorem setOwl_epoch (s : State) (x : Owl) : (s.setOwl x).epoch = s.epoch := rfl
@[simp] theorem setOwl_mods (s : State) (x : Owl) : (s.setOwl x).mods = s.mods := rfl
@[simp] theorem setOwl_kst (s : State) (x : Owl) : (s.setOwl x).kst = s.kst := rfl
@[simp] theorem setOwl_mem (s : State) (x : Owl) : (s.setOwl x).mem = s.mem := rfl
@[simp] theorem setOwl_ecc (s : State) (x : Owl) : (s.setOwl x).ecc = s.ecc := rfl
@[simp] theorem setOwl_mrg (s : State) (x : Owl) : (s.setOwl x).mrg = s.mrg := rfl
@[simp] theorem setOwl_emt (s : State) (x : Owl) : (s.setOwl x).emt = s.emt := rfl
@[simp] theorem setOwl_drv (s : State) (x : Owl) : (s.setOwl x).drv = s.drv := rfl
@[simp] theorem setOwl_aou (s : State) (x : Owl) : (s.setOwl x).aou = s.aou := rfl
@[simp] theorem setOwl_pix (s : State) (x : Owl) : (s.setOwl x).pix = s.pix := rfl
@[simp] theorem setOwl_sns (s : State) (x : Owl) : (s.setOwl x).sns = s.sns := rfl
@[simp] theorem setOwl_aud (s : State) (x : Owl) : (s.setOwl x).aud = s.aud := rfl
@[simp] theorem setOwl_gpt (s : State) (x : Owl) : (s.setOwl x).gpt = s.gpt := rfl
@[simp] theorem setOwl_mgt (s : State) (x : Owl) : (s.setOwl x).mgt = s.mgt := rfl
@[simp] theorem setOwl_dmx (s : State) (x : Owl) : (s.setOwl x).dmx = s.dmx := rfl
@[simp] theorem setOwl_ros (s : State) (x : Owl) : (s.setOwl x).ros = s.ros := rfl
@[simp] theorem setOwl_jtag (s : State) (x : Owl) : (s.setOwl x).jtag = s.jtag := rfl
@[simp] theorem setOwl_pins (s : State) (x : Owl) : (s.setOwl x).pins = s.pins := rfl
@[simp] theorem setOwl_free (s : State) (x : Owl) : (s.setOwl x).free = s.free := rfl
@[simp] theorem setOwl_pending (s : State) (x : Owl) : (s.setOwl x).pending = s.pending := rfl
@[simp] theorem setGate_mode (s : State) (x : Gate) : (s.setGate x).mode = s.mode := rfl
@[simp] theorem setGate_owl (s : State) (x : Gate) : (s.setGate x).owl = s.owl := rfl
@[simp] theorem setGate_gate (s : State) (x : Gate) : (s.setGate x).gate = x := rfl
@[simp] theorem setGate_host (s : State) (x : Gate) : (s.setGate x).host = s.host := rfl
@[simp] theorem setGate_sys (s : State) (x : Gate) : (s.setGate x).sys = s.sys := rfl
@[simp] theorem setGate_ckp (s : State) (x : Gate) : (s.setGate x).ckp = s.ckp := rfl
@[simp] theorem setGate_lanes (s : State) (x : Gate) : (s.setGate x).lanes = s.lanes := rfl
@[simp] theorem setGate_chn (s : State) (x : Gate) : (s.setGate x).chn = s.chn := rfl
@[simp] theorem setGate_head (s : State) (x : Gate) : (s.setGate x).head = s.head := rfl
@[simp] theorem setGate_dis (s : State) (x : Gate) : (s.setGate x).dis = s.dis := rfl
@[simp] theorem setGate_vox (s : State) (x : Gate) : (s.setGate x).vox = s.vox := rfl
@[simp] theorem setGate_epoch (s : State) (x : Gate) : (s.setGate x).epoch = s.epoch := rfl
@[simp] theorem setGate_mods (s : State) (x : Gate) : (s.setGate x).mods = s.mods := rfl
@[simp] theorem setGate_kst (s : State) (x : Gate) : (s.setGate x).kst = s.kst := rfl
@[simp] theorem setGate_mem (s : State) (x : Gate) : (s.setGate x).mem = s.mem := rfl
@[simp] theorem setGate_ecc (s : State) (x : Gate) : (s.setGate x).ecc = s.ecc := rfl
@[simp] theorem setGate_mrg (s : State) (x : Gate) : (s.setGate x).mrg = s.mrg := rfl
@[simp] theorem setGate_emt (s : State) (x : Gate) : (s.setGate x).emt = s.emt := rfl
@[simp] theorem setGate_drv (s : State) (x : Gate) : (s.setGate x).drv = s.drv := rfl
@[simp] theorem setGate_aou (s : State) (x : Gate) : (s.setGate x).aou = s.aou := rfl
@[simp] theorem setGate_pix (s : State) (x : Gate) : (s.setGate x).pix = s.pix := rfl
@[simp] theorem setGate_sns (s : State) (x : Gate) : (s.setGate x).sns = s.sns := rfl
@[simp] theorem setGate_aud (s : State) (x : Gate) : (s.setGate x).aud = s.aud := rfl
@[simp] theorem setGate_gpt (s : State) (x : Gate) : (s.setGate x).gpt = s.gpt := rfl
@[simp] theorem setGate_mgt (s : State) (x : Gate) : (s.setGate x).mgt = s.mgt := rfl
@[simp] theorem setGate_dmx (s : State) (x : Gate) : (s.setGate x).dmx = s.dmx := rfl
@[simp] theorem setGate_ros (s : State) (x : Gate) : (s.setGate x).ros = s.ros := rfl
@[simp] theorem setGate_jtag (s : State) (x : Gate) : (s.setGate x).jtag = s.jtag := rfl
@[simp] theorem setGate_pins (s : State) (x : Gate) : (s.setGate x).pins = s.pins := rfl
@[simp] theorem setGate_free (s : State) (x : Gate) : (s.setGate x).free = s.free := rfl
@[simp] theorem setGate_pending (s : State) (x : Gate) : (s.setGate x).pending = s.pending := rfl
@[simp] theorem setHost_mode (s : State) (x : HostBus) : (s.setHost x).mode = s.mode := rfl
@[simp] theorem setHost_owl (s : State) (x : HostBus) : (s.setHost x).owl = s.owl := rfl
@[simp] theorem setHost_gate (s : State) (x : HostBus) : (s.setHost x).gate = s.gate := rfl
@[simp] theorem setHost_host (s : State) (x : HostBus) : (s.setHost x).host = x := rfl
@[simp] theorem setHost_sys (s : State) (x : HostBus) : (s.setHost x).sys = s.sys := rfl
@[simp] theorem setHost_ckp (s : State) (x : HostBus) : (s.setHost x).ckp = s.ckp := rfl
@[simp] theorem setHost_lanes (s : State) (x : HostBus) : (s.setHost x).lanes = s.lanes := rfl
@[simp] theorem setHost_chn (s : State) (x : HostBus) : (s.setHost x).chn = s.chn := rfl
@[simp] theorem setHost_head (s : State) (x : HostBus) : (s.setHost x).head = s.head := rfl
@[simp] theorem setHost_dis (s : State) (x : HostBus) : (s.setHost x).dis = s.dis := rfl
@[simp] theorem setHost_vox (s : State) (x : HostBus) : (s.setHost x).vox = s.vox := rfl
@[simp] theorem setHost_epoch (s : State) (x : HostBus) : (s.setHost x).epoch = s.epoch := rfl
@[simp] theorem setHost_mods (s : State) (x : HostBus) : (s.setHost x).mods = s.mods := rfl
@[simp] theorem setHost_kst (s : State) (x : HostBus) : (s.setHost x).kst = s.kst := rfl
@[simp] theorem setHost_mem (s : State) (x : HostBus) : (s.setHost x).mem = s.mem := rfl
@[simp] theorem setHost_ecc (s : State) (x : HostBus) : (s.setHost x).ecc = s.ecc := rfl
@[simp] theorem setHost_mrg (s : State) (x : HostBus) : (s.setHost x).mrg = s.mrg := rfl
@[simp] theorem setHost_emt (s : State) (x : HostBus) : (s.setHost x).emt = s.emt := rfl
@[simp] theorem setHost_drv (s : State) (x : HostBus) : (s.setHost x).drv = s.drv := rfl
@[simp] theorem setHost_aou (s : State) (x : HostBus) : (s.setHost x).aou = s.aou := rfl
@[simp] theorem setHost_pix (s : State) (x : HostBus) : (s.setHost x).pix = s.pix := rfl
@[simp] theorem setHost_sns (s : State) (x : HostBus) : (s.setHost x).sns = s.sns := rfl
@[simp] theorem setHost_aud (s : State) (x : HostBus) : (s.setHost x).aud = s.aud := rfl
@[simp] theorem setHost_gpt (s : State) (x : HostBus) : (s.setHost x).gpt = s.gpt := rfl
@[simp] theorem setHost_mgt (s : State) (x : HostBus) : (s.setHost x).mgt = s.mgt := rfl
@[simp] theorem setHost_dmx (s : State) (x : HostBus) : (s.setHost x).dmx = s.dmx := rfl
@[simp] theorem setHost_ros (s : State) (x : HostBus) : (s.setHost x).ros = s.ros := rfl
@[simp] theorem setHost_jtag (s : State) (x : HostBus) : (s.setHost x).jtag = s.jtag := rfl
@[simp] theorem setHost_pins (s : State) (x : HostBus) : (s.setHost x).pins = s.pins := rfl
@[simp] theorem setHost_free (s : State) (x : HostBus) : (s.setHost x).free = s.free := rfl
@[simp] theorem setHost_pending (s : State) (x : HostBus) : (s.setHost x).pending = s.pending := rfl
@[simp] theorem setSys_mode (s : State) (x : Sys) : (s.setSys x).mode = s.mode := rfl
@[simp] theorem setSys_owl (s : State) (x : Sys) : (s.setSys x).owl = s.owl := rfl
@[simp] theorem setSys_gate (s : State) (x : Sys) : (s.setSys x).gate = s.gate := rfl
@[simp] theorem setSys_host (s : State) (x : Sys) : (s.setSys x).host = s.host := rfl
@[simp] theorem setSys_sys (s : State) (x : Sys) : (s.setSys x).sys = x := rfl
@[simp] theorem setSys_ckp (s : State) (x : Sys) : (s.setSys x).ckp = s.ckp := rfl
@[simp] theorem setSys_lanes (s : State) (x : Sys) : (s.setSys x).lanes = s.lanes := rfl
@[simp] theorem setSys_chn (s : State) (x : Sys) : (s.setSys x).chn = s.chn := rfl
@[simp] theorem setSys_head (s : State) (x : Sys) : (s.setSys x).head = s.head := rfl
@[simp] theorem setSys_dis (s : State) (x : Sys) : (s.setSys x).dis = s.dis := rfl
@[simp] theorem setSys_vox (s : State) (x : Sys) : (s.setSys x).vox = s.vox := rfl
@[simp] theorem setSys_epoch (s : State) (x : Sys) : (s.setSys x).epoch = s.epoch := rfl
@[simp] theorem setSys_mods (s : State) (x : Sys) : (s.setSys x).mods = s.mods := rfl
@[simp] theorem setSys_kst (s : State) (x : Sys) : (s.setSys x).kst = s.kst := rfl
@[simp] theorem setSys_mem (s : State) (x : Sys) : (s.setSys x).mem = s.mem := rfl
@[simp] theorem setSys_ecc (s : State) (x : Sys) : (s.setSys x).ecc = s.ecc := rfl
@[simp] theorem setSys_mrg (s : State) (x : Sys) : (s.setSys x).mrg = s.mrg := rfl
@[simp] theorem setSys_emt (s : State) (x : Sys) : (s.setSys x).emt = s.emt := rfl
@[simp] theorem setSys_drv (s : State) (x : Sys) : (s.setSys x).drv = s.drv := rfl
@[simp] theorem setSys_aou (s : State) (x : Sys) : (s.setSys x).aou = s.aou := rfl
@[simp] theorem setSys_pix (s : State) (x : Sys) : (s.setSys x).pix = s.pix := rfl
@[simp] theorem setSys_sns (s : State) (x : Sys) : (s.setSys x).sns = s.sns := rfl
@[simp] theorem setSys_aud (s : State) (x : Sys) : (s.setSys x).aud = s.aud := rfl
@[simp] theorem setSys_gpt (s : State) (x : Sys) : (s.setSys x).gpt = s.gpt := rfl
@[simp] theorem setSys_mgt (s : State) (x : Sys) : (s.setSys x).mgt = s.mgt := rfl
@[simp] theorem setSys_dmx (s : State) (x : Sys) : (s.setSys x).dmx = s.dmx := rfl
@[simp] theorem setSys_ros (s : State) (x : Sys) : (s.setSys x).ros = s.ros := rfl
@[simp] theorem setSys_jtag (s : State) (x : Sys) : (s.setSys x).jtag = s.jtag := rfl
@[simp] theorem setSys_pins (s : State) (x : Sys) : (s.setSys x).pins = s.pins := rfl
@[simp] theorem setSys_free (s : State) (x : Sys) : (s.setSys x).free = s.free := rfl
@[simp] theorem setSys_pending (s : State) (x : Sys) : (s.setSys x).pending = s.pending := rfl
@[simp] theorem setCkp_mode (s : State) (x : Ckp) : (s.setCkp x).mode = s.mode := rfl
@[simp] theorem setCkp_owl (s : State) (x : Ckp) : (s.setCkp x).owl = s.owl := rfl
@[simp] theorem setCkp_gate (s : State) (x : Ckp) : (s.setCkp x).gate = s.gate := rfl
@[simp] theorem setCkp_host (s : State) (x : Ckp) : (s.setCkp x).host = s.host := rfl
@[simp] theorem setCkp_sys (s : State) (x : Ckp) : (s.setCkp x).sys = s.sys := rfl
@[simp] theorem setCkp_ckp (s : State) (x : Ckp) : (s.setCkp x).ckp = x := rfl
@[simp] theorem setCkp_lanes (s : State) (x : Ckp) : (s.setCkp x).lanes = s.lanes := rfl
@[simp] theorem setCkp_chn (s : State) (x : Ckp) : (s.setCkp x).chn = s.chn := rfl
@[simp] theorem setCkp_head (s : State) (x : Ckp) : (s.setCkp x).head = s.head := rfl
@[simp] theorem setCkp_dis (s : State) (x : Ckp) : (s.setCkp x).dis = s.dis := rfl
@[simp] theorem setCkp_vox (s : State) (x : Ckp) : (s.setCkp x).vox = s.vox := rfl
@[simp] theorem setCkp_epoch (s : State) (x : Ckp) : (s.setCkp x).epoch = s.epoch := rfl
@[simp] theorem setCkp_mods (s : State) (x : Ckp) : (s.setCkp x).mods = s.mods := rfl
@[simp] theorem setCkp_kst (s : State) (x : Ckp) : (s.setCkp x).kst = s.kst := rfl
@[simp] theorem setCkp_mem (s : State) (x : Ckp) : (s.setCkp x).mem = s.mem := rfl
@[simp] theorem setCkp_ecc (s : State) (x : Ckp) : (s.setCkp x).ecc = s.ecc := rfl
@[simp] theorem setCkp_mrg (s : State) (x : Ckp) : (s.setCkp x).mrg = s.mrg := rfl
@[simp] theorem setCkp_emt (s : State) (x : Ckp) : (s.setCkp x).emt = s.emt := rfl
@[simp] theorem setCkp_drv (s : State) (x : Ckp) : (s.setCkp x).drv = s.drv := rfl
@[simp] theorem setCkp_aou (s : State) (x : Ckp) : (s.setCkp x).aou = s.aou := rfl
@[simp] theorem setCkp_pix (s : State) (x : Ckp) : (s.setCkp x).pix = s.pix := rfl
@[simp] theorem setCkp_sns (s : State) (x : Ckp) : (s.setCkp x).sns = s.sns := rfl
@[simp] theorem setCkp_aud (s : State) (x : Ckp) : (s.setCkp x).aud = s.aud := rfl
@[simp] theorem setCkp_gpt (s : State) (x : Ckp) : (s.setCkp x).gpt = s.gpt := rfl
@[simp] theorem setCkp_mgt (s : State) (x : Ckp) : (s.setCkp x).mgt = s.mgt := rfl
@[simp] theorem setCkp_dmx (s : State) (x : Ckp) : (s.setCkp x).dmx = s.dmx := rfl
@[simp] theorem setCkp_ros (s : State) (x : Ckp) : (s.setCkp x).ros = s.ros := rfl
@[simp] theorem setCkp_jtag (s : State) (x : Ckp) : (s.setCkp x).jtag = s.jtag := rfl
@[simp] theorem setCkp_pins (s : State) (x : Ckp) : (s.setCkp x).pins = s.pins := rfl
@[simp] theorem setCkp_free (s : State) (x : Ckp) : (s.setCkp x).free = s.free := rfl
@[simp] theorem setCkp_pending (s : State) (x : Ckp) : (s.setCkp x).pending = s.pending := rfl
@[simp] theorem setLanes_mode (s : State) (x : Lanes) : (s.setLanes x).mode = s.mode := rfl
@[simp] theorem setLanes_owl (s : State) (x : Lanes) : (s.setLanes x).owl = s.owl := rfl
@[simp] theorem setLanes_gate (s : State) (x : Lanes) : (s.setLanes x).gate = s.gate := rfl
@[simp] theorem setLanes_host (s : State) (x : Lanes) : (s.setLanes x).host = s.host := rfl
@[simp] theorem setLanes_sys (s : State) (x : Lanes) : (s.setLanes x).sys = s.sys := rfl
@[simp] theorem setLanes_ckp (s : State) (x : Lanes) : (s.setLanes x).ckp = s.ckp := rfl
@[simp] theorem setLanes_lanes (s : State) (x : Lanes) : (s.setLanes x).lanes = x := rfl
@[simp] theorem setLanes_chn (s : State) (x : Lanes) : (s.setLanes x).chn = s.chn := rfl
@[simp] theorem setLanes_head (s : State) (x : Lanes) : (s.setLanes x).head = s.head := rfl
@[simp] theorem setLanes_dis (s : State) (x : Lanes) : (s.setLanes x).dis = s.dis := rfl
@[simp] theorem setLanes_vox (s : State) (x : Lanes) : (s.setLanes x).vox = s.vox := rfl
@[simp] theorem setLanes_epoch (s : State) (x : Lanes) : (s.setLanes x).epoch = s.epoch := rfl
@[simp] theorem setLanes_mods (s : State) (x : Lanes) : (s.setLanes x).mods = s.mods := rfl
@[simp] theorem setLanes_kst (s : State) (x : Lanes) : (s.setLanes x).kst = s.kst := rfl
@[simp] theorem setLanes_mem (s : State) (x : Lanes) : (s.setLanes x).mem = s.mem := rfl
@[simp] theorem setLanes_ecc (s : State) (x : Lanes) : (s.setLanes x).ecc = s.ecc := rfl
@[simp] theorem setLanes_mrg (s : State) (x : Lanes) : (s.setLanes x).mrg = s.mrg := rfl
@[simp] theorem setLanes_emt (s : State) (x : Lanes) : (s.setLanes x).emt = s.emt := rfl
@[simp] theorem setLanes_drv (s : State) (x : Lanes) : (s.setLanes x).drv = s.drv := rfl
@[simp] theorem setLanes_aou (s : State) (x : Lanes) : (s.setLanes x).aou = s.aou := rfl
@[simp] theorem setLanes_pix (s : State) (x : Lanes) : (s.setLanes x).pix = s.pix := rfl
@[simp] theorem setLanes_sns (s : State) (x : Lanes) : (s.setLanes x).sns = s.sns := rfl
@[simp] theorem setLanes_aud (s : State) (x : Lanes) : (s.setLanes x).aud = s.aud := rfl
@[simp] theorem setLanes_gpt (s : State) (x : Lanes) : (s.setLanes x).gpt = s.gpt := rfl
@[simp] theorem setLanes_mgt (s : State) (x : Lanes) : (s.setLanes x).mgt = s.mgt := rfl
@[simp] theorem setLanes_dmx (s : State) (x : Lanes) : (s.setLanes x).dmx = s.dmx := rfl
@[simp] theorem setLanes_ros (s : State) (x : Lanes) : (s.setLanes x).ros = s.ros := rfl
@[simp] theorem setLanes_jtag (s : State) (x : Lanes) : (s.setLanes x).jtag = s.jtag := rfl
@[simp] theorem setLanes_pins (s : State) (x : Lanes) : (s.setLanes x).pins = s.pins := rfl
@[simp] theorem setLanes_free (s : State) (x : Lanes) : (s.setLanes x).free = s.free := rfl
@[simp] theorem setLanes_pending (s : State) (x : Lanes) : (s.setLanes x).pending = s.pending := rfl
@[simp] theorem setChn_mode (s : State) (x : Chn) : (s.setChn x).mode = s.mode := rfl
@[simp] theorem setChn_owl (s : State) (x : Chn) : (s.setChn x).owl = s.owl := rfl
@[simp] theorem setChn_gate (s : State) (x : Chn) : (s.setChn x).gate = s.gate := rfl
@[simp] theorem setChn_host (s : State) (x : Chn) : (s.setChn x).host = s.host := rfl
@[simp] theorem setChn_sys (s : State) (x : Chn) : (s.setChn x).sys = s.sys := rfl
@[simp] theorem setChn_ckp (s : State) (x : Chn) : (s.setChn x).ckp = s.ckp := rfl
@[simp] theorem setChn_lanes (s : State) (x : Chn) : (s.setChn x).lanes = s.lanes := rfl
@[simp] theorem setChn_chn (s : State) (x : Chn) : (s.setChn x).chn = x := rfl
@[simp] theorem setChn_head (s : State) (x : Chn) : (s.setChn x).head = s.head := rfl
@[simp] theorem setChn_dis (s : State) (x : Chn) : (s.setChn x).dis = s.dis := rfl
@[simp] theorem setChn_vox (s : State) (x : Chn) : (s.setChn x).vox = s.vox := rfl
@[simp] theorem setChn_epoch (s : State) (x : Chn) : (s.setChn x).epoch = s.epoch := rfl
@[simp] theorem setChn_mods (s : State) (x : Chn) : (s.setChn x).mods = s.mods := rfl
@[simp] theorem setChn_kst (s : State) (x : Chn) : (s.setChn x).kst = s.kst := rfl
@[simp] theorem setChn_mem (s : State) (x : Chn) : (s.setChn x).mem = s.mem := rfl
@[simp] theorem setChn_ecc (s : State) (x : Chn) : (s.setChn x).ecc = s.ecc := rfl
@[simp] theorem setChn_mrg (s : State) (x : Chn) : (s.setChn x).mrg = s.mrg := rfl
@[simp] theorem setChn_emt (s : State) (x : Chn) : (s.setChn x).emt = s.emt := rfl
@[simp] theorem setChn_drv (s : State) (x : Chn) : (s.setChn x).drv = s.drv := rfl
@[simp] theorem setChn_aou (s : State) (x : Chn) : (s.setChn x).aou = s.aou := rfl
@[simp] theorem setChn_pix (s : State) (x : Chn) : (s.setChn x).pix = s.pix := rfl
@[simp] theorem setChn_sns (s : State) (x : Chn) : (s.setChn x).sns = s.sns := rfl
@[simp] theorem setChn_aud (s : State) (x : Chn) : (s.setChn x).aud = s.aud := rfl
@[simp] theorem setChn_gpt (s : State) (x : Chn) : (s.setChn x).gpt = s.gpt := rfl
@[simp] theorem setChn_mgt (s : State) (x : Chn) : (s.setChn x).mgt = s.mgt := rfl
@[simp] theorem setChn_dmx (s : State) (x : Chn) : (s.setChn x).dmx = s.dmx := rfl
@[simp] theorem setChn_ros (s : State) (x : Chn) : (s.setChn x).ros = s.ros := rfl
@[simp] theorem setChn_jtag (s : State) (x : Chn) : (s.setChn x).jtag = s.jtag := rfl
@[simp] theorem setChn_pins (s : State) (x : Chn) : (s.setChn x).pins = s.pins := rfl
@[simp] theorem setChn_free (s : State) (x : Chn) : (s.setChn x).free = s.free := rfl
@[simp] theorem setChn_pending (s : State) (x : Chn) : (s.setChn x).pending = s.pending := rfl
@[simp] theorem setHead_mode (s : State) (x : Head) : (s.setHead x).mode = s.mode := rfl
@[simp] theorem setHead_owl (s : State) (x : Head) : (s.setHead x).owl = s.owl := rfl
@[simp] theorem setHead_gate (s : State) (x : Head) : (s.setHead x).gate = s.gate := rfl
@[simp] theorem setHead_host (s : State) (x : Head) : (s.setHead x).host = s.host := rfl
@[simp] theorem setHead_sys (s : State) (x : Head) : (s.setHead x).sys = s.sys := rfl
@[simp] theorem setHead_ckp (s : State) (x : Head) : (s.setHead x).ckp = s.ckp := rfl
@[simp] theorem setHead_lanes (s : State) (x : Head) : (s.setHead x).lanes = s.lanes := rfl
@[simp] theorem setHead_chn (s : State) (x : Head) : (s.setHead x).chn = s.chn := rfl
@[simp] theorem setHead_head (s : State) (x : Head) : (s.setHead x).head = x := rfl
@[simp] theorem setHead_dis (s : State) (x : Head) : (s.setHead x).dis = s.dis := rfl
@[simp] theorem setHead_vox (s : State) (x : Head) : (s.setHead x).vox = s.vox := rfl
@[simp] theorem setHead_epoch (s : State) (x : Head) : (s.setHead x).epoch = s.epoch := rfl
@[simp] theorem setHead_mods (s : State) (x : Head) : (s.setHead x).mods = s.mods := rfl
@[simp] theorem setHead_kst (s : State) (x : Head) : (s.setHead x).kst = s.kst := rfl
@[simp] theorem setHead_mem (s : State) (x : Head) : (s.setHead x).mem = s.mem := rfl
@[simp] theorem setHead_ecc (s : State) (x : Head) : (s.setHead x).ecc = s.ecc := rfl
@[simp] theorem setHead_mrg (s : State) (x : Head) : (s.setHead x).mrg = s.mrg := rfl
@[simp] theorem setHead_emt (s : State) (x : Head) : (s.setHead x).emt = s.emt := rfl
@[simp] theorem setHead_drv (s : State) (x : Head) : (s.setHead x).drv = s.drv := rfl
@[simp] theorem setHead_aou (s : State) (x : Head) : (s.setHead x).aou = s.aou := rfl
@[simp] theorem setHead_pix (s : State) (x : Head) : (s.setHead x).pix = s.pix := rfl
@[simp] theorem setHead_sns (s : State) (x : Head) : (s.setHead x).sns = s.sns := rfl
@[simp] theorem setHead_aud (s : State) (x : Head) : (s.setHead x).aud = s.aud := rfl
@[simp] theorem setHead_gpt (s : State) (x : Head) : (s.setHead x).gpt = s.gpt := rfl
@[simp] theorem setHead_mgt (s : State) (x : Head) : (s.setHead x).mgt = s.mgt := rfl
@[simp] theorem setHead_dmx (s : State) (x : Head) : (s.setHead x).dmx = s.dmx := rfl
@[simp] theorem setHead_ros (s : State) (x : Head) : (s.setHead x).ros = s.ros := rfl
@[simp] theorem setHead_jtag (s : State) (x : Head) : (s.setHead x).jtag = s.jtag := rfl
@[simp] theorem setHead_pins (s : State) (x : Head) : (s.setHead x).pins = s.pins := rfl
@[simp] theorem setHead_free (s : State) (x : Head) : (s.setHead x).free = s.free := rfl
@[simp] theorem setHead_pending (s : State) (x : Head) : (s.setHead x).pending = s.pending := rfl
@[simp] theorem setDis_mode (s : State) (x : Dis) : (s.setDis x).mode = s.mode := rfl
@[simp] theorem setDis_owl (s : State) (x : Dis) : (s.setDis x).owl = s.owl := rfl
@[simp] theorem setDis_gate (s : State) (x : Dis) : (s.setDis x).gate = s.gate := rfl
@[simp] theorem setDis_host (s : State) (x : Dis) : (s.setDis x).host = s.host := rfl
@[simp] theorem setDis_sys (s : State) (x : Dis) : (s.setDis x).sys = s.sys := rfl
@[simp] theorem setDis_ckp (s : State) (x : Dis) : (s.setDis x).ckp = s.ckp := rfl
@[simp] theorem setDis_lanes (s : State) (x : Dis) : (s.setDis x).lanes = s.lanes := rfl
@[simp] theorem setDis_chn (s : State) (x : Dis) : (s.setDis x).chn = s.chn := rfl
@[simp] theorem setDis_head (s : State) (x : Dis) : (s.setDis x).head = s.head := rfl
@[simp] theorem setDis_dis (s : State) (x : Dis) : (s.setDis x).dis = x := rfl
@[simp] theorem setDis_vox (s : State) (x : Dis) : (s.setDis x).vox = s.vox := rfl
@[simp] theorem setDis_epoch (s : State) (x : Dis) : (s.setDis x).epoch = s.epoch := rfl
@[simp] theorem setDis_mods (s : State) (x : Dis) : (s.setDis x).mods = s.mods := rfl
@[simp] theorem setDis_kst (s : State) (x : Dis) : (s.setDis x).kst = s.kst := rfl
@[simp] theorem setDis_mem (s : State) (x : Dis) : (s.setDis x).mem = s.mem := rfl
@[simp] theorem setDis_ecc (s : State) (x : Dis) : (s.setDis x).ecc = s.ecc := rfl
@[simp] theorem setDis_mrg (s : State) (x : Dis) : (s.setDis x).mrg = s.mrg := rfl
@[simp] theorem setDis_emt (s : State) (x : Dis) : (s.setDis x).emt = s.emt := rfl
@[simp] theorem setDis_drv (s : State) (x : Dis) : (s.setDis x).drv = s.drv := rfl
@[simp] theorem setDis_aou (s : State) (x : Dis) : (s.setDis x).aou = s.aou := rfl
@[simp] theorem setDis_pix (s : State) (x : Dis) : (s.setDis x).pix = s.pix := rfl
@[simp] theorem setDis_sns (s : State) (x : Dis) : (s.setDis x).sns = s.sns := rfl
@[simp] theorem setDis_aud (s : State) (x : Dis) : (s.setDis x).aud = s.aud := rfl
@[simp] theorem setDis_gpt (s : State) (x : Dis) : (s.setDis x).gpt = s.gpt := rfl
@[simp] theorem setDis_mgt (s : State) (x : Dis) : (s.setDis x).mgt = s.mgt := rfl
@[simp] theorem setDis_dmx (s : State) (x : Dis) : (s.setDis x).dmx = s.dmx := rfl
@[simp] theorem setDis_ros (s : State) (x : Dis) : (s.setDis x).ros = s.ros := rfl
@[simp] theorem setDis_jtag (s : State) (x : Dis) : (s.setDis x).jtag = s.jtag := rfl
@[simp] theorem setDis_pins (s : State) (x : Dis) : (s.setDis x).pins = s.pins := rfl
@[simp] theorem setDis_free (s : State) (x : Dis) : (s.setDis x).free = s.free := rfl
@[simp] theorem setDis_pending (s : State) (x : Dis) : (s.setDis x).pending = s.pending := rfl
@[simp] theorem setVox_mode (s : State) (x : Vox) : (s.setVox x).mode = s.mode := rfl
@[simp] theorem setVox_owl (s : State) (x : Vox) : (s.setVox x).owl = s.owl := rfl
@[simp] theorem setVox_gate (s : State) (x : Vox) : (s.setVox x).gate = s.gate := rfl
@[simp] theorem setVox_host (s : State) (x : Vox) : (s.setVox x).host = s.host := rfl
@[simp] theorem setVox_sys (s : State) (x : Vox) : (s.setVox x).sys = s.sys := rfl
@[simp] theorem setVox_ckp (s : State) (x : Vox) : (s.setVox x).ckp = s.ckp := rfl
@[simp] theorem setVox_lanes (s : State) (x : Vox) : (s.setVox x).lanes = s.lanes := rfl
@[simp] theorem setVox_chn (s : State) (x : Vox) : (s.setVox x).chn = s.chn := rfl
@[simp] theorem setVox_head (s : State) (x : Vox) : (s.setVox x).head = s.head := rfl
@[simp] theorem setVox_dis (s : State) (x : Vox) : (s.setVox x).dis = s.dis := rfl
@[simp] theorem setVox_vox (s : State) (x : Vox) : (s.setVox x).vox = x := rfl
@[simp] theorem setVox_epoch (s : State) (x : Vox) : (s.setVox x).epoch = s.epoch := rfl
@[simp] theorem setVox_mods (s : State) (x : Vox) : (s.setVox x).mods = s.mods := rfl
@[simp] theorem setVox_kst (s : State) (x : Vox) : (s.setVox x).kst = s.kst := rfl
@[simp] theorem setVox_mem (s : State) (x : Vox) : (s.setVox x).mem = s.mem := rfl
@[simp] theorem setVox_ecc (s : State) (x : Vox) : (s.setVox x).ecc = s.ecc := rfl
@[simp] theorem setVox_mrg (s : State) (x : Vox) : (s.setVox x).mrg = s.mrg := rfl
@[simp] theorem setVox_emt (s : State) (x : Vox) : (s.setVox x).emt = s.emt := rfl
@[simp] theorem setVox_drv (s : State) (x : Vox) : (s.setVox x).drv = s.drv := rfl
@[simp] theorem setVox_aou (s : State) (x : Vox) : (s.setVox x).aou = s.aou := rfl
@[simp] theorem setVox_pix (s : State) (x : Vox) : (s.setVox x).pix = s.pix := rfl
@[simp] theorem setVox_sns (s : State) (x : Vox) : (s.setVox x).sns = s.sns := rfl
@[simp] theorem setVox_aud (s : State) (x : Vox) : (s.setVox x).aud = s.aud := rfl
@[simp] theorem setVox_gpt (s : State) (x : Vox) : (s.setVox x).gpt = s.gpt := rfl
@[simp] theorem setVox_mgt (s : State) (x : Vox) : (s.setVox x).mgt = s.mgt := rfl
@[simp] theorem setVox_dmx (s : State) (x : Vox) : (s.setVox x).dmx = s.dmx := rfl
@[simp] theorem setVox_ros (s : State) (x : Vox) : (s.setVox x).ros = s.ros := rfl
@[simp] theorem setVox_jtag (s : State) (x : Vox) : (s.setVox x).jtag = s.jtag := rfl
@[simp] theorem setVox_pins (s : State) (x : Vox) : (s.setVox x).pins = s.pins := rfl
@[simp] theorem setVox_free (s : State) (x : Vox) : (s.setVox x).free = s.free := rfl
@[simp] theorem setVox_pending (s : State) (x : Vox) : (s.setVox x).pending = s.pending := rfl
@[simp] theorem setEpoch_mode (s : State) (x : Epoch) : (s.setEpoch x).mode = s.mode := rfl
@[simp] theorem setEpoch_owl (s : State) (x : Epoch) : (s.setEpoch x).owl = s.owl := rfl
@[simp] theorem setEpoch_gate (s : State) (x : Epoch) : (s.setEpoch x).gate = s.gate := rfl
@[simp] theorem setEpoch_host (s : State) (x : Epoch) : (s.setEpoch x).host = s.host := rfl
@[simp] theorem setEpoch_sys (s : State) (x : Epoch) : (s.setEpoch x).sys = s.sys := rfl
@[simp] theorem setEpoch_ckp (s : State) (x : Epoch) : (s.setEpoch x).ckp = s.ckp := rfl
@[simp] theorem setEpoch_lanes (s : State) (x : Epoch) : (s.setEpoch x).lanes = s.lanes := rfl
@[simp] theorem setEpoch_chn (s : State) (x : Epoch) : (s.setEpoch x).chn = s.chn := rfl
@[simp] theorem setEpoch_head (s : State) (x : Epoch) : (s.setEpoch x).head = s.head := rfl
@[simp] theorem setEpoch_dis (s : State) (x : Epoch) : (s.setEpoch x).dis = s.dis := rfl
@[simp] theorem setEpoch_vox (s : State) (x : Epoch) : (s.setEpoch x).vox = s.vox := rfl
@[simp] theorem setEpoch_epoch (s : State) (x : Epoch) : (s.setEpoch x).epoch = x := rfl
@[simp] theorem setEpoch_mods (s : State) (x : Epoch) : (s.setEpoch x).mods = s.mods := rfl
@[simp] theorem setEpoch_kst (s : State) (x : Epoch) : (s.setEpoch x).kst = s.kst := rfl
@[simp] theorem setEpoch_mem (s : State) (x : Epoch) : (s.setEpoch x).mem = s.mem := rfl
@[simp] theorem setEpoch_ecc (s : State) (x : Epoch) : (s.setEpoch x).ecc = s.ecc := rfl
@[simp] theorem setEpoch_mrg (s : State) (x : Epoch) : (s.setEpoch x).mrg = s.mrg := rfl
@[simp] theorem setEpoch_emt (s : State) (x : Epoch) : (s.setEpoch x).emt = s.emt := rfl
@[simp] theorem setEpoch_drv (s : State) (x : Epoch) : (s.setEpoch x).drv = s.drv := rfl
@[simp] theorem setEpoch_aou (s : State) (x : Epoch) : (s.setEpoch x).aou = s.aou := rfl
@[simp] theorem setEpoch_pix (s : State) (x : Epoch) : (s.setEpoch x).pix = s.pix := rfl
@[simp] theorem setEpoch_sns (s : State) (x : Epoch) : (s.setEpoch x).sns = s.sns := rfl
@[simp] theorem setEpoch_aud (s : State) (x : Epoch) : (s.setEpoch x).aud = s.aud := rfl
@[simp] theorem setEpoch_gpt (s : State) (x : Epoch) : (s.setEpoch x).gpt = s.gpt := rfl
@[simp] theorem setEpoch_mgt (s : State) (x : Epoch) : (s.setEpoch x).mgt = s.mgt := rfl
@[simp] theorem setEpoch_dmx (s : State) (x : Epoch) : (s.setEpoch x).dmx = s.dmx := rfl
@[simp] theorem setEpoch_ros (s : State) (x : Epoch) : (s.setEpoch x).ros = s.ros := rfl
@[simp] theorem setEpoch_jtag (s : State) (x : Epoch) : (s.setEpoch x).jtag = s.jtag := rfl
@[simp] theorem setEpoch_pins (s : State) (x : Epoch) : (s.setEpoch x).pins = s.pins := rfl
@[simp] theorem setEpoch_free (s : State) (x : Epoch) : (s.setEpoch x).free = s.free := rfl
@[simp] theorem setEpoch_pending (s : State) (x : Epoch) : (s.setEpoch x).pending = s.pending := rfl
@[simp] theorem setMods_mode (s : State) (x : ModBlk) : (s.setMods x).mode = s.mode := rfl
@[simp] theorem setMods_owl (s : State) (x : ModBlk) : (s.setMods x).owl = s.owl := rfl
@[simp] theorem setMods_gate (s : State) (x : ModBlk) : (s.setMods x).gate = s.gate := rfl
@[simp] theorem setMods_host (s : State) (x : ModBlk) : (s.setMods x).host = s.host := rfl
@[simp] theorem setMods_sys (s : State) (x : ModBlk) : (s.setMods x).sys = s.sys := rfl
@[simp] theorem setMods_ckp (s : State) (x : ModBlk) : (s.setMods x).ckp = s.ckp := rfl
@[simp] theorem setMods_lanes (s : State) (x : ModBlk) : (s.setMods x).lanes = s.lanes := rfl
@[simp] theorem setMods_chn (s : State) (x : ModBlk) : (s.setMods x).chn = s.chn := rfl
@[simp] theorem setMods_head (s : State) (x : ModBlk) : (s.setMods x).head = s.head := rfl
@[simp] theorem setMods_dis (s : State) (x : ModBlk) : (s.setMods x).dis = s.dis := rfl
@[simp] theorem setMods_vox (s : State) (x : ModBlk) : (s.setMods x).vox = s.vox := rfl
@[simp] theorem setMods_epoch (s : State) (x : ModBlk) : (s.setMods x).epoch = s.epoch := rfl
@[simp] theorem setMods_mods (s : State) (x : ModBlk) : (s.setMods x).mods = x := rfl
@[simp] theorem setMods_kst (s : State) (x : ModBlk) : (s.setMods x).kst = s.kst := rfl
@[simp] theorem setMods_mem (s : State) (x : ModBlk) : (s.setMods x).mem = s.mem := rfl
@[simp] theorem setMods_ecc (s : State) (x : ModBlk) : (s.setMods x).ecc = s.ecc := rfl
@[simp] theorem setMods_mrg (s : State) (x : ModBlk) : (s.setMods x).mrg = s.mrg := rfl
@[simp] theorem setMods_emt (s : State) (x : ModBlk) : (s.setMods x).emt = s.emt := rfl
@[simp] theorem setMods_drv (s : State) (x : ModBlk) : (s.setMods x).drv = s.drv := rfl
@[simp] theorem setMods_aou (s : State) (x : ModBlk) : (s.setMods x).aou = s.aou := rfl
@[simp] theorem setMods_pix (s : State) (x : ModBlk) : (s.setMods x).pix = s.pix := rfl
@[simp] theorem setMods_sns (s : State) (x : ModBlk) : (s.setMods x).sns = s.sns := rfl
@[simp] theorem setMods_aud (s : State) (x : ModBlk) : (s.setMods x).aud = s.aud := rfl
@[simp] theorem setMods_gpt (s : State) (x : ModBlk) : (s.setMods x).gpt = s.gpt := rfl
@[simp] theorem setMods_mgt (s : State) (x : ModBlk) : (s.setMods x).mgt = s.mgt := rfl
@[simp] theorem setMods_dmx (s : State) (x : ModBlk) : (s.setMods x).dmx = s.dmx := rfl
@[simp] theorem setMods_ros (s : State) (x : ModBlk) : (s.setMods x).ros = s.ros := rfl
@[simp] theorem setMods_jtag (s : State) (x : ModBlk) : (s.setMods x).jtag = s.jtag := rfl
@[simp] theorem setMods_pins (s : State) (x : ModBlk) : (s.setMods x).pins = s.pins := rfl
@[simp] theorem setMods_free (s : State) (x : ModBlk) : (s.setMods x).free = s.free := rfl
@[simp] theorem setMods_pending (s : State) (x : ModBlk) : (s.setMods x).pending = s.pending := rfl
@[simp] theorem setKst_mode (s : State) (x : Kst) : (s.setKst x).mode = s.mode := rfl
@[simp] theorem setKst_owl (s : State) (x : Kst) : (s.setKst x).owl = s.owl := rfl
@[simp] theorem setKst_gate (s : State) (x : Kst) : (s.setKst x).gate = s.gate := rfl
@[simp] theorem setKst_host (s : State) (x : Kst) : (s.setKst x).host = s.host := rfl
@[simp] theorem setKst_sys (s : State) (x : Kst) : (s.setKst x).sys = s.sys := rfl
@[simp] theorem setKst_ckp (s : State) (x : Kst) : (s.setKst x).ckp = s.ckp := rfl
@[simp] theorem setKst_lanes (s : State) (x : Kst) : (s.setKst x).lanes = s.lanes := rfl
@[simp] theorem setKst_chn (s : State) (x : Kst) : (s.setKst x).chn = s.chn := rfl
@[simp] theorem setKst_head (s : State) (x : Kst) : (s.setKst x).head = s.head := rfl
@[simp] theorem setKst_dis (s : State) (x : Kst) : (s.setKst x).dis = s.dis := rfl
@[simp] theorem setKst_vox (s : State) (x : Kst) : (s.setKst x).vox = s.vox := rfl
@[simp] theorem setKst_epoch (s : State) (x : Kst) : (s.setKst x).epoch = s.epoch := rfl
@[simp] theorem setKst_mods (s : State) (x : Kst) : (s.setKst x).mods = s.mods := rfl
@[simp] theorem setKst_kst (s : State) (x : Kst) : (s.setKst x).kst = x := rfl
@[simp] theorem setKst_mem (s : State) (x : Kst) : (s.setKst x).mem = s.mem := rfl
@[simp] theorem setKst_ecc (s : State) (x : Kst) : (s.setKst x).ecc = s.ecc := rfl
@[simp] theorem setKst_mrg (s : State) (x : Kst) : (s.setKst x).mrg = s.mrg := rfl
@[simp] theorem setKst_emt (s : State) (x : Kst) : (s.setKst x).emt = s.emt := rfl
@[simp] theorem setKst_drv (s : State) (x : Kst) : (s.setKst x).drv = s.drv := rfl
@[simp] theorem setKst_aou (s : State) (x : Kst) : (s.setKst x).aou = s.aou := rfl
@[simp] theorem setKst_pix (s : State) (x : Kst) : (s.setKst x).pix = s.pix := rfl
@[simp] theorem setKst_sns (s : State) (x : Kst) : (s.setKst x).sns = s.sns := rfl
@[simp] theorem setKst_aud (s : State) (x : Kst) : (s.setKst x).aud = s.aud := rfl
@[simp] theorem setKst_gpt (s : State) (x : Kst) : (s.setKst x).gpt = s.gpt := rfl
@[simp] theorem setKst_mgt (s : State) (x : Kst) : (s.setKst x).mgt = s.mgt := rfl
@[simp] theorem setKst_dmx (s : State) (x : Kst) : (s.setKst x).dmx = s.dmx := rfl
@[simp] theorem setKst_ros (s : State) (x : Kst) : (s.setKst x).ros = s.ros := rfl
@[simp] theorem setKst_jtag (s : State) (x : Kst) : (s.setKst x).jtag = s.jtag := rfl
@[simp] theorem setKst_pins (s : State) (x : Kst) : (s.setKst x).pins = s.pins := rfl
@[simp] theorem setKst_free (s : State) (x : Kst) : (s.setKst x).free = s.free := rfl
@[simp] theorem setKst_pending (s : State) (x : Kst) : (s.setKst x).pending = s.pending := rfl
@[simp] theorem setMem_mode (s : State) (x : Mem) : (s.setMem x).mode = s.mode := rfl
@[simp] theorem setMem_owl (s : State) (x : Mem) : (s.setMem x).owl = s.owl := rfl
@[simp] theorem setMem_gate (s : State) (x : Mem) : (s.setMem x).gate = s.gate := rfl
@[simp] theorem setMem_host (s : State) (x : Mem) : (s.setMem x).host = s.host := rfl
@[simp] theorem setMem_sys (s : State) (x : Mem) : (s.setMem x).sys = s.sys := rfl
@[simp] theorem setMem_ckp (s : State) (x : Mem) : (s.setMem x).ckp = s.ckp := rfl
@[simp] theorem setMem_lanes (s : State) (x : Mem) : (s.setMem x).lanes = s.lanes := rfl
@[simp] theorem setMem_chn (s : State) (x : Mem) : (s.setMem x).chn = s.chn := rfl
@[simp] theorem setMem_head (s : State) (x : Mem) : (s.setMem x).head = s.head := rfl
@[simp] theorem setMem_dis (s : State) (x : Mem) : (s.setMem x).dis = s.dis := rfl
@[simp] theorem setMem_vox (s : State) (x : Mem) : (s.setMem x).vox = s.vox := rfl
@[simp] theorem setMem_epoch (s : State) (x : Mem) : (s.setMem x).epoch = s.epoch := rfl
@[simp] theorem setMem_mods (s : State) (x : Mem) : (s.setMem x).mods = s.mods := rfl
@[simp] theorem setMem_kst (s : State) (x : Mem) : (s.setMem x).kst = s.kst := rfl
@[simp] theorem setMem_mem (s : State) (x : Mem) : (s.setMem x).mem = x := rfl
@[simp] theorem setMem_ecc (s : State) (x : Mem) : (s.setMem x).ecc = s.ecc := rfl
@[simp] theorem setMem_mrg (s : State) (x : Mem) : (s.setMem x).mrg = s.mrg := rfl
@[simp] theorem setMem_emt (s : State) (x : Mem) : (s.setMem x).emt = s.emt := rfl
@[simp] theorem setMem_drv (s : State) (x : Mem) : (s.setMem x).drv = s.drv := rfl
@[simp] theorem setMem_aou (s : State) (x : Mem) : (s.setMem x).aou = s.aou := rfl
@[simp] theorem setMem_pix (s : State) (x : Mem) : (s.setMem x).pix = s.pix := rfl
@[simp] theorem setMem_sns (s : State) (x : Mem) : (s.setMem x).sns = s.sns := rfl
@[simp] theorem setMem_aud (s : State) (x : Mem) : (s.setMem x).aud = s.aud := rfl
@[simp] theorem setMem_gpt (s : State) (x : Mem) : (s.setMem x).gpt = s.gpt := rfl
@[simp] theorem setMem_mgt (s : State) (x : Mem) : (s.setMem x).mgt = s.mgt := rfl
@[simp] theorem setMem_dmx (s : State) (x : Mem) : (s.setMem x).dmx = s.dmx := rfl
@[simp] theorem setMem_ros (s : State) (x : Mem) : (s.setMem x).ros = s.ros := rfl
@[simp] theorem setMem_jtag (s : State) (x : Mem) : (s.setMem x).jtag = s.jtag := rfl
@[simp] theorem setMem_pins (s : State) (x : Mem) : (s.setMem x).pins = s.pins := rfl
@[simp] theorem setMem_free (s : State) (x : Mem) : (s.setMem x).free = s.free := rfl
@[simp] theorem setMem_pending (s : State) (x : Mem) : (s.setMem x).pending = s.pending := rfl
@[simp] theorem setEcc_mode (s : State) (x : Ecc) : (s.setEcc x).mode = s.mode := rfl
@[simp] theorem setEcc_owl (s : State) (x : Ecc) : (s.setEcc x).owl = s.owl := rfl
@[simp] theorem setEcc_gate (s : State) (x : Ecc) : (s.setEcc x).gate = s.gate := rfl
@[simp] theorem setEcc_host (s : State) (x : Ecc) : (s.setEcc x).host = s.host := rfl
@[simp] theorem setEcc_sys (s : State) (x : Ecc) : (s.setEcc x).sys = s.sys := rfl
@[simp] theorem setEcc_ckp (s : State) (x : Ecc) : (s.setEcc x).ckp = s.ckp := rfl
@[simp] theorem setEcc_lanes (s : State) (x : Ecc) : (s.setEcc x).lanes = s.lanes := rfl
@[simp] theorem setEcc_chn (s : State) (x : Ecc) : (s.setEcc x).chn = s.chn := rfl
@[simp] theorem setEcc_head (s : State) (x : Ecc) : (s.setEcc x).head = s.head := rfl
@[simp] theorem setEcc_dis (s : State) (x : Ecc) : (s.setEcc x).dis = s.dis := rfl
@[simp] theorem setEcc_vox (s : State) (x : Ecc) : (s.setEcc x).vox = s.vox := rfl
@[simp] theorem setEcc_epoch (s : State) (x : Ecc) : (s.setEcc x).epoch = s.epoch := rfl
@[simp] theorem setEcc_mods (s : State) (x : Ecc) : (s.setEcc x).mods = s.mods := rfl
@[simp] theorem setEcc_kst (s : State) (x : Ecc) : (s.setEcc x).kst = s.kst := rfl
@[simp] theorem setEcc_mem (s : State) (x : Ecc) : (s.setEcc x).mem = s.mem := rfl
@[simp] theorem setEcc_ecc (s : State) (x : Ecc) : (s.setEcc x).ecc = x := rfl
@[simp] theorem setEcc_mrg (s : State) (x : Ecc) : (s.setEcc x).mrg = s.mrg := rfl
@[simp] theorem setEcc_emt (s : State) (x : Ecc) : (s.setEcc x).emt = s.emt := rfl
@[simp] theorem setEcc_drv (s : State) (x : Ecc) : (s.setEcc x).drv = s.drv := rfl
@[simp] theorem setEcc_aou (s : State) (x : Ecc) : (s.setEcc x).aou = s.aou := rfl
@[simp] theorem setEcc_pix (s : State) (x : Ecc) : (s.setEcc x).pix = s.pix := rfl
@[simp] theorem setEcc_sns (s : State) (x : Ecc) : (s.setEcc x).sns = s.sns := rfl
@[simp] theorem setEcc_aud (s : State) (x : Ecc) : (s.setEcc x).aud = s.aud := rfl
@[simp] theorem setEcc_gpt (s : State) (x : Ecc) : (s.setEcc x).gpt = s.gpt := rfl
@[simp] theorem setEcc_mgt (s : State) (x : Ecc) : (s.setEcc x).mgt = s.mgt := rfl
@[simp] theorem setEcc_dmx (s : State) (x : Ecc) : (s.setEcc x).dmx = s.dmx := rfl
@[simp] theorem setEcc_ros (s : State) (x : Ecc) : (s.setEcc x).ros = s.ros := rfl
@[simp] theorem setEcc_jtag (s : State) (x : Ecc) : (s.setEcc x).jtag = s.jtag := rfl
@[simp] theorem setEcc_pins (s : State) (x : Ecc) : (s.setEcc x).pins = s.pins := rfl
@[simp] theorem setEcc_free (s : State) (x : Ecc) : (s.setEcc x).free = s.free := rfl
@[simp] theorem setEcc_pending (s : State) (x : Ecc) : (s.setEcc x).pending = s.pending := rfl
@[simp] theorem setMrg_mode (s : State) (x : Mrg) : (s.setMrg x).mode = s.mode := rfl
@[simp] theorem setMrg_owl (s : State) (x : Mrg) : (s.setMrg x).owl = s.owl := rfl
@[simp] theorem setMrg_gate (s : State) (x : Mrg) : (s.setMrg x).gate = s.gate := rfl
@[simp] theorem setMrg_host (s : State) (x : Mrg) : (s.setMrg x).host = s.host := rfl
@[simp] theorem setMrg_sys (s : State) (x : Mrg) : (s.setMrg x).sys = s.sys := rfl
@[simp] theorem setMrg_ckp (s : State) (x : Mrg) : (s.setMrg x).ckp = s.ckp := rfl
@[simp] theorem setMrg_lanes (s : State) (x : Mrg) : (s.setMrg x).lanes = s.lanes := rfl
@[simp] theorem setMrg_chn (s : State) (x : Mrg) : (s.setMrg x).chn = s.chn := rfl
@[simp] theorem setMrg_head (s : State) (x : Mrg) : (s.setMrg x).head = s.head := rfl
@[simp] theorem setMrg_dis (s : State) (x : Mrg) : (s.setMrg x).dis = s.dis := rfl
@[simp] theorem setMrg_vox (s : State) (x : Mrg) : (s.setMrg x).vox = s.vox := rfl
@[simp] theorem setMrg_epoch (s : State) (x : Mrg) : (s.setMrg x).epoch = s.epoch := rfl
@[simp] theorem setMrg_mods (s : State) (x : Mrg) : (s.setMrg x).mods = s.mods := rfl
@[simp] theorem setMrg_kst (s : State) (x : Mrg) : (s.setMrg x).kst = s.kst := rfl
@[simp] theorem setMrg_mem (s : State) (x : Mrg) : (s.setMrg x).mem = s.mem := rfl
@[simp] theorem setMrg_ecc (s : State) (x : Mrg) : (s.setMrg x).ecc = s.ecc := rfl
@[simp] theorem setMrg_mrg (s : State) (x : Mrg) : (s.setMrg x).mrg = x := rfl
@[simp] theorem setMrg_emt (s : State) (x : Mrg) : (s.setMrg x).emt = s.emt := rfl
@[simp] theorem setMrg_drv (s : State) (x : Mrg) : (s.setMrg x).drv = s.drv := rfl
@[simp] theorem setMrg_aou (s : State) (x : Mrg) : (s.setMrg x).aou = s.aou := rfl
@[simp] theorem setMrg_pix (s : State) (x : Mrg) : (s.setMrg x).pix = s.pix := rfl
@[simp] theorem setMrg_sns (s : State) (x : Mrg) : (s.setMrg x).sns = s.sns := rfl
@[simp] theorem setMrg_aud (s : State) (x : Mrg) : (s.setMrg x).aud = s.aud := rfl
@[simp] theorem setMrg_gpt (s : State) (x : Mrg) : (s.setMrg x).gpt = s.gpt := rfl
@[simp] theorem setMrg_mgt (s : State) (x : Mrg) : (s.setMrg x).mgt = s.mgt := rfl
@[simp] theorem setMrg_dmx (s : State) (x : Mrg) : (s.setMrg x).dmx = s.dmx := rfl
@[simp] theorem setMrg_ros (s : State) (x : Mrg) : (s.setMrg x).ros = s.ros := rfl
@[simp] theorem setMrg_jtag (s : State) (x : Mrg) : (s.setMrg x).jtag = s.jtag := rfl
@[simp] theorem setMrg_pins (s : State) (x : Mrg) : (s.setMrg x).pins = s.pins := rfl
@[simp] theorem setMrg_free (s : State) (x : Mrg) : (s.setMrg x).free = s.free := rfl
@[simp] theorem setMrg_pending (s : State) (x : Mrg) : (s.setMrg x).pending = s.pending := rfl
@[simp] theorem setEmt_mode (s : State) (x : Emt) : (s.setEmt x).mode = s.mode := rfl
@[simp] theorem setEmt_owl (s : State) (x : Emt) : (s.setEmt x).owl = s.owl := rfl
@[simp] theorem setEmt_gate (s : State) (x : Emt) : (s.setEmt x).gate = s.gate := rfl
@[simp] theorem setEmt_host (s : State) (x : Emt) : (s.setEmt x).host = s.host := rfl
@[simp] theorem setEmt_sys (s : State) (x : Emt) : (s.setEmt x).sys = s.sys := rfl
@[simp] theorem setEmt_ckp (s : State) (x : Emt) : (s.setEmt x).ckp = s.ckp := rfl
@[simp] theorem setEmt_lanes (s : State) (x : Emt) : (s.setEmt x).lanes = s.lanes := rfl
@[simp] theorem setEmt_chn (s : State) (x : Emt) : (s.setEmt x).chn = s.chn := rfl
@[simp] theorem setEmt_head (s : State) (x : Emt) : (s.setEmt x).head = s.head := rfl
@[simp] theorem setEmt_dis (s : State) (x : Emt) : (s.setEmt x).dis = s.dis := rfl
@[simp] theorem setEmt_vox (s : State) (x : Emt) : (s.setEmt x).vox = s.vox := rfl
@[simp] theorem setEmt_epoch (s : State) (x : Emt) : (s.setEmt x).epoch = s.epoch := rfl
@[simp] theorem setEmt_mods (s : State) (x : Emt) : (s.setEmt x).mods = s.mods := rfl
@[simp] theorem setEmt_kst (s : State) (x : Emt) : (s.setEmt x).kst = s.kst := rfl
@[simp] theorem setEmt_mem (s : State) (x : Emt) : (s.setEmt x).mem = s.mem := rfl
@[simp] theorem setEmt_ecc (s : State) (x : Emt) : (s.setEmt x).ecc = s.ecc := rfl
@[simp] theorem setEmt_mrg (s : State) (x : Emt) : (s.setEmt x).mrg = s.mrg := rfl
@[simp] theorem setEmt_emt (s : State) (x : Emt) : (s.setEmt x).emt = x := rfl
@[simp] theorem setEmt_drv (s : State) (x : Emt) : (s.setEmt x).drv = s.drv := rfl
@[simp] theorem setEmt_aou (s : State) (x : Emt) : (s.setEmt x).aou = s.aou := rfl
@[simp] theorem setEmt_pix (s : State) (x : Emt) : (s.setEmt x).pix = s.pix := rfl
@[simp] theorem setEmt_sns (s : State) (x : Emt) : (s.setEmt x).sns = s.sns := rfl
@[simp] theorem setEmt_aud (s : State) (x : Emt) : (s.setEmt x).aud = s.aud := rfl
@[simp] theorem setEmt_gpt (s : State) (x : Emt) : (s.setEmt x).gpt = s.gpt := rfl
@[simp] theorem setEmt_mgt (s : State) (x : Emt) : (s.setEmt x).mgt = s.mgt := rfl
@[simp] theorem setEmt_dmx (s : State) (x : Emt) : (s.setEmt x).dmx = s.dmx := rfl
@[simp] theorem setEmt_ros (s : State) (x : Emt) : (s.setEmt x).ros = s.ros := rfl
@[simp] theorem setEmt_jtag (s : State) (x : Emt) : (s.setEmt x).jtag = s.jtag := rfl
@[simp] theorem setEmt_pins (s : State) (x : Emt) : (s.setEmt x).pins = s.pins := rfl
@[simp] theorem setEmt_free (s : State) (x : Emt) : (s.setEmt x).free = s.free := rfl
@[simp] theorem setEmt_pending (s : State) (x : Emt) : (s.setEmt x).pending = s.pending := rfl
@[simp] theorem setDrv_mode (s : State) (x : Drv) : (s.setDrv x).mode = s.mode := rfl
@[simp] theorem setDrv_owl (s : State) (x : Drv) : (s.setDrv x).owl = s.owl := rfl
@[simp] theorem setDrv_gate (s : State) (x : Drv) : (s.setDrv x).gate = s.gate := rfl
@[simp] theorem setDrv_host (s : State) (x : Drv) : (s.setDrv x).host = s.host := rfl
@[simp] theorem setDrv_sys (s : State) (x : Drv) : (s.setDrv x).sys = s.sys := rfl
@[simp] theorem setDrv_ckp (s : State) (x : Drv) : (s.setDrv x).ckp = s.ckp := rfl
@[simp] theorem setDrv_lanes (s : State) (x : Drv) : (s.setDrv x).lanes = s.lanes := rfl
@[simp] theorem setDrv_chn (s : State) (x : Drv) : (s.setDrv x).chn = s.chn := rfl
@[simp] theorem setDrv_head (s : State) (x : Drv) : (s.setDrv x).head = s.head := rfl
@[simp] theorem setDrv_dis (s : State) (x : Drv) : (s.setDrv x).dis = s.dis := rfl
@[simp] theorem setDrv_vox (s : State) (x : Drv) : (s.setDrv x).vox = s.vox := rfl
@[simp] theorem setDrv_epoch (s : State) (x : Drv) : (s.setDrv x).epoch = s.epoch := rfl
@[simp] theorem setDrv_mods (s : State) (x : Drv) : (s.setDrv x).mods = s.mods := rfl
@[simp] theorem setDrv_kst (s : State) (x : Drv) : (s.setDrv x).kst = s.kst := rfl
@[simp] theorem setDrv_mem (s : State) (x : Drv) : (s.setDrv x).mem = s.mem := rfl
@[simp] theorem setDrv_ecc (s : State) (x : Drv) : (s.setDrv x).ecc = s.ecc := rfl
@[simp] theorem setDrv_mrg (s : State) (x : Drv) : (s.setDrv x).mrg = s.mrg := rfl
@[simp] theorem setDrv_emt (s : State) (x : Drv) : (s.setDrv x).emt = s.emt := rfl
@[simp] theorem setDrv_drv (s : State) (x : Drv) : (s.setDrv x).drv = x := rfl
@[simp] theorem setDrv_aou (s : State) (x : Drv) : (s.setDrv x).aou = s.aou := rfl
@[simp] theorem setDrv_pix (s : State) (x : Drv) : (s.setDrv x).pix = s.pix := rfl
@[simp] theorem setDrv_sns (s : State) (x : Drv) : (s.setDrv x).sns = s.sns := rfl
@[simp] theorem setDrv_aud (s : State) (x : Drv) : (s.setDrv x).aud = s.aud := rfl
@[simp] theorem setDrv_gpt (s : State) (x : Drv) : (s.setDrv x).gpt = s.gpt := rfl
@[simp] theorem setDrv_mgt (s : State) (x : Drv) : (s.setDrv x).mgt = s.mgt := rfl
@[simp] theorem setDrv_dmx (s : State) (x : Drv) : (s.setDrv x).dmx = s.dmx := rfl
@[simp] theorem setDrv_ros (s : State) (x : Drv) : (s.setDrv x).ros = s.ros := rfl
@[simp] theorem setDrv_jtag (s : State) (x : Drv) : (s.setDrv x).jtag = s.jtag := rfl
@[simp] theorem setDrv_pins (s : State) (x : Drv) : (s.setDrv x).pins = s.pins := rfl
@[simp] theorem setDrv_free (s : State) (x : Drv) : (s.setDrv x).free = s.free := rfl
@[simp] theorem setDrv_pending (s : State) (x : Drv) : (s.setDrv x).pending = s.pending := rfl
@[simp] theorem setAou_mode (s : State) (x : Aou) : (s.setAou x).mode = s.mode := rfl
@[simp] theorem setAou_owl (s : State) (x : Aou) : (s.setAou x).owl = s.owl := rfl
@[simp] theorem setAou_gate (s : State) (x : Aou) : (s.setAou x).gate = s.gate := rfl
@[simp] theorem setAou_host (s : State) (x : Aou) : (s.setAou x).host = s.host := rfl
@[simp] theorem setAou_sys (s : State) (x : Aou) : (s.setAou x).sys = s.sys := rfl
@[simp] theorem setAou_ckp (s : State) (x : Aou) : (s.setAou x).ckp = s.ckp := rfl
@[simp] theorem setAou_lanes (s : State) (x : Aou) : (s.setAou x).lanes = s.lanes := rfl
@[simp] theorem setAou_chn (s : State) (x : Aou) : (s.setAou x).chn = s.chn := rfl
@[simp] theorem setAou_head (s : State) (x : Aou) : (s.setAou x).head = s.head := rfl
@[simp] theorem setAou_dis (s : State) (x : Aou) : (s.setAou x).dis = s.dis := rfl
@[simp] theorem setAou_vox (s : State) (x : Aou) : (s.setAou x).vox = s.vox := rfl
@[simp] theorem setAou_epoch (s : State) (x : Aou) : (s.setAou x).epoch = s.epoch := rfl
@[simp] theorem setAou_mods (s : State) (x : Aou) : (s.setAou x).mods = s.mods := rfl
@[simp] theorem setAou_kst (s : State) (x : Aou) : (s.setAou x).kst = s.kst := rfl
@[simp] theorem setAou_mem (s : State) (x : Aou) : (s.setAou x).mem = s.mem := rfl
@[simp] theorem setAou_ecc (s : State) (x : Aou) : (s.setAou x).ecc = s.ecc := rfl
@[simp] theorem setAou_mrg (s : State) (x : Aou) : (s.setAou x).mrg = s.mrg := rfl
@[simp] theorem setAou_emt (s : State) (x : Aou) : (s.setAou x).emt = s.emt := rfl
@[simp] theorem setAou_drv (s : State) (x : Aou) : (s.setAou x).drv = s.drv := rfl
@[simp] theorem setAou_aou (s : State) (x : Aou) : (s.setAou x).aou = x := rfl
@[simp] theorem setAou_pix (s : State) (x : Aou) : (s.setAou x).pix = s.pix := rfl
@[simp] theorem setAou_sns (s : State) (x : Aou) : (s.setAou x).sns = s.sns := rfl
@[simp] theorem setAou_aud (s : State) (x : Aou) : (s.setAou x).aud = s.aud := rfl
@[simp] theorem setAou_gpt (s : State) (x : Aou) : (s.setAou x).gpt = s.gpt := rfl
@[simp] theorem setAou_mgt (s : State) (x : Aou) : (s.setAou x).mgt = s.mgt := rfl
@[simp] theorem setAou_dmx (s : State) (x : Aou) : (s.setAou x).dmx = s.dmx := rfl
@[simp] theorem setAou_ros (s : State) (x : Aou) : (s.setAou x).ros = s.ros := rfl
@[simp] theorem setAou_jtag (s : State) (x : Aou) : (s.setAou x).jtag = s.jtag := rfl
@[simp] theorem setAou_pins (s : State) (x : Aou) : (s.setAou x).pins = s.pins := rfl
@[simp] theorem setAou_free (s : State) (x : Aou) : (s.setAou x).free = s.free := rfl
@[simp] theorem setAou_pending (s : State) (x : Aou) : (s.setAou x).pending = s.pending := rfl
@[simp] theorem setPix_mode (s : State) (x : Pix) : (s.setPix x).mode = s.mode := rfl
@[simp] theorem setPix_owl (s : State) (x : Pix) : (s.setPix x).owl = s.owl := rfl
@[simp] theorem setPix_gate (s : State) (x : Pix) : (s.setPix x).gate = s.gate := rfl
@[simp] theorem setPix_host (s : State) (x : Pix) : (s.setPix x).host = s.host := rfl
@[simp] theorem setPix_sys (s : State) (x : Pix) : (s.setPix x).sys = s.sys := rfl
@[simp] theorem setPix_ckp (s : State) (x : Pix) : (s.setPix x).ckp = s.ckp := rfl
@[simp] theorem setPix_lanes (s : State) (x : Pix) : (s.setPix x).lanes = s.lanes := rfl
@[simp] theorem setPix_chn (s : State) (x : Pix) : (s.setPix x).chn = s.chn := rfl
@[simp] theorem setPix_head (s : State) (x : Pix) : (s.setPix x).head = s.head := rfl
@[simp] theorem setPix_dis (s : State) (x : Pix) : (s.setPix x).dis = s.dis := rfl
@[simp] theorem setPix_vox (s : State) (x : Pix) : (s.setPix x).vox = s.vox := rfl
@[simp] theorem setPix_epoch (s : State) (x : Pix) : (s.setPix x).epoch = s.epoch := rfl
@[simp] theorem setPix_mods (s : State) (x : Pix) : (s.setPix x).mods = s.mods := rfl
@[simp] theorem setPix_kst (s : State) (x : Pix) : (s.setPix x).kst = s.kst := rfl
@[simp] theorem setPix_mem (s : State) (x : Pix) : (s.setPix x).mem = s.mem := rfl
@[simp] theorem setPix_ecc (s : State) (x : Pix) : (s.setPix x).ecc = s.ecc := rfl
@[simp] theorem setPix_mrg (s : State) (x : Pix) : (s.setPix x).mrg = s.mrg := rfl
@[simp] theorem setPix_emt (s : State) (x : Pix) : (s.setPix x).emt = s.emt := rfl
@[simp] theorem setPix_drv (s : State) (x : Pix) : (s.setPix x).drv = s.drv := rfl
@[simp] theorem setPix_aou (s : State) (x : Pix) : (s.setPix x).aou = s.aou := rfl
@[simp] theorem setPix_pix (s : State) (x : Pix) : (s.setPix x).pix = x := rfl
@[simp] theorem setPix_sns (s : State) (x : Pix) : (s.setPix x).sns = s.sns := rfl
@[simp] theorem setPix_aud (s : State) (x : Pix) : (s.setPix x).aud = s.aud := rfl
@[simp] theorem setPix_gpt (s : State) (x : Pix) : (s.setPix x).gpt = s.gpt := rfl
@[simp] theorem setPix_mgt (s : State) (x : Pix) : (s.setPix x).mgt = s.mgt := rfl
@[simp] theorem setPix_dmx (s : State) (x : Pix) : (s.setPix x).dmx = s.dmx := rfl
@[simp] theorem setPix_ros (s : State) (x : Pix) : (s.setPix x).ros = s.ros := rfl
@[simp] theorem setPix_jtag (s : State) (x : Pix) : (s.setPix x).jtag = s.jtag := rfl
@[simp] theorem setPix_pins (s : State) (x : Pix) : (s.setPix x).pins = s.pins := rfl
@[simp] theorem setPix_free (s : State) (x : Pix) : (s.setPix x).free = s.free := rfl
@[simp] theorem setPix_pending (s : State) (x : Pix) : (s.setPix x).pending = s.pending := rfl
@[simp] theorem setSns_mode (s : State) (x : Sns) : (s.setSns x).mode = s.mode := rfl
@[simp] theorem setSns_owl (s : State) (x : Sns) : (s.setSns x).owl = s.owl := rfl
@[simp] theorem setSns_gate (s : State) (x : Sns) : (s.setSns x).gate = s.gate := rfl
@[simp] theorem setSns_host (s : State) (x : Sns) : (s.setSns x).host = s.host := rfl
@[simp] theorem setSns_sys (s : State) (x : Sns) : (s.setSns x).sys = s.sys := rfl
@[simp] theorem setSns_ckp (s : State) (x : Sns) : (s.setSns x).ckp = s.ckp := rfl
@[simp] theorem setSns_lanes (s : State) (x : Sns) : (s.setSns x).lanes = s.lanes := rfl
@[simp] theorem setSns_chn (s : State) (x : Sns) : (s.setSns x).chn = s.chn := rfl
@[simp] theorem setSns_head (s : State) (x : Sns) : (s.setSns x).head = s.head := rfl
@[simp] theorem setSns_dis (s : State) (x : Sns) : (s.setSns x).dis = s.dis := rfl
@[simp] theorem setSns_vox (s : State) (x : Sns) : (s.setSns x).vox = s.vox := rfl
@[simp] theorem setSns_epoch (s : State) (x : Sns) : (s.setSns x).epoch = s.epoch := rfl
@[simp] theorem setSns_mods (s : State) (x : Sns) : (s.setSns x).mods = s.mods := rfl
@[simp] theorem setSns_kst (s : State) (x : Sns) : (s.setSns x).kst = s.kst := rfl
@[simp] theorem setSns_mem (s : State) (x : Sns) : (s.setSns x).mem = s.mem := rfl
@[simp] theorem setSns_ecc (s : State) (x : Sns) : (s.setSns x).ecc = s.ecc := rfl
@[simp] theorem setSns_mrg (s : State) (x : Sns) : (s.setSns x).mrg = s.mrg := rfl
@[simp] theorem setSns_emt (s : State) (x : Sns) : (s.setSns x).emt = s.emt := rfl
@[simp] theorem setSns_drv (s : State) (x : Sns) : (s.setSns x).drv = s.drv := rfl
@[simp] theorem setSns_aou (s : State) (x : Sns) : (s.setSns x).aou = s.aou := rfl
@[simp] theorem setSns_pix (s : State) (x : Sns) : (s.setSns x).pix = s.pix := rfl
@[simp] theorem setSns_sns (s : State) (x : Sns) : (s.setSns x).sns = x := rfl
@[simp] theorem setSns_aud (s : State) (x : Sns) : (s.setSns x).aud = s.aud := rfl
@[simp] theorem setSns_gpt (s : State) (x : Sns) : (s.setSns x).gpt = s.gpt := rfl
@[simp] theorem setSns_mgt (s : State) (x : Sns) : (s.setSns x).mgt = s.mgt := rfl
@[simp] theorem setSns_dmx (s : State) (x : Sns) : (s.setSns x).dmx = s.dmx := rfl
@[simp] theorem setSns_ros (s : State) (x : Sns) : (s.setSns x).ros = s.ros := rfl
@[simp] theorem setSns_jtag (s : State) (x : Sns) : (s.setSns x).jtag = s.jtag := rfl
@[simp] theorem setSns_pins (s : State) (x : Sns) : (s.setSns x).pins = s.pins := rfl
@[simp] theorem setSns_free (s : State) (x : Sns) : (s.setSns x).free = s.free := rfl
@[simp] theorem setSns_pending (s : State) (x : Sns) : (s.setSns x).pending = s.pending := rfl
@[simp] theorem setAud_mode (s : State) (x : Aud) : (s.setAud x).mode = s.mode := rfl
@[simp] theorem setAud_owl (s : State) (x : Aud) : (s.setAud x).owl = s.owl := rfl
@[simp] theorem setAud_gate (s : State) (x : Aud) : (s.setAud x).gate = s.gate := rfl
@[simp] theorem setAud_host (s : State) (x : Aud) : (s.setAud x).host = s.host := rfl
@[simp] theorem setAud_sys (s : State) (x : Aud) : (s.setAud x).sys = s.sys := rfl
@[simp] theorem setAud_ckp (s : State) (x : Aud) : (s.setAud x).ckp = s.ckp := rfl
@[simp] theorem setAud_lanes (s : State) (x : Aud) : (s.setAud x).lanes = s.lanes := rfl
@[simp] theorem setAud_chn (s : State) (x : Aud) : (s.setAud x).chn = s.chn := rfl
@[simp] theorem setAud_head (s : State) (x : Aud) : (s.setAud x).head = s.head := rfl
@[simp] theorem setAud_dis (s : State) (x : Aud) : (s.setAud x).dis = s.dis := rfl
@[simp] theorem setAud_vox (s : State) (x : Aud) : (s.setAud x).vox = s.vox := rfl
@[simp] theorem setAud_epoch (s : State) (x : Aud) : (s.setAud x).epoch = s.epoch := rfl
@[simp] theorem setAud_mods (s : State) (x : Aud) : (s.setAud x).mods = s.mods := rfl
@[simp] theorem setAud_kst (s : State) (x : Aud) : (s.setAud x).kst = s.kst := rfl
@[simp] theorem setAud_mem (s : State) (x : Aud) : (s.setAud x).mem = s.mem := rfl
@[simp] theorem setAud_ecc (s : State) (x : Aud) : (s.setAud x).ecc = s.ecc := rfl
@[simp] theorem setAud_mrg (s : State) (x : Aud) : (s.setAud x).mrg = s.mrg := rfl
@[simp] theorem setAud_emt (s : State) (x : Aud) : (s.setAud x).emt = s.emt := rfl
@[simp] theorem setAud_drv (s : State) (x : Aud) : (s.setAud x).drv = s.drv := rfl
@[simp] theorem setAud_aou (s : State) (x : Aud) : (s.setAud x).aou = s.aou := rfl
@[simp] theorem setAud_pix (s : State) (x : Aud) : (s.setAud x).pix = s.pix := rfl
@[simp] theorem setAud_sns (s : State) (x : Aud) : (s.setAud x).sns = s.sns := rfl
@[simp] theorem setAud_aud (s : State) (x : Aud) : (s.setAud x).aud = x := rfl
@[simp] theorem setAud_gpt (s : State) (x : Aud) : (s.setAud x).gpt = s.gpt := rfl
@[simp] theorem setAud_mgt (s : State) (x : Aud) : (s.setAud x).mgt = s.mgt := rfl
@[simp] theorem setAud_dmx (s : State) (x : Aud) : (s.setAud x).dmx = s.dmx := rfl
@[simp] theorem setAud_ros (s : State) (x : Aud) : (s.setAud x).ros = s.ros := rfl
@[simp] theorem setAud_jtag (s : State) (x : Aud) : (s.setAud x).jtag = s.jtag := rfl
@[simp] theorem setAud_pins (s : State) (x : Aud) : (s.setAud x).pins = s.pins := rfl
@[simp] theorem setAud_free (s : State) (x : Aud) : (s.setAud x).free = s.free := rfl
@[simp] theorem setAud_pending (s : State) (x : Aud) : (s.setAud x).pending = s.pending := rfl
@[simp] theorem setGpt_mode (s : State) (x : GptBlk) : (s.setGpt x).mode = s.mode := rfl
@[simp] theorem setGpt_owl (s : State) (x : GptBlk) : (s.setGpt x).owl = s.owl := rfl
@[simp] theorem setGpt_gate (s : State) (x : GptBlk) : (s.setGpt x).gate = s.gate := rfl
@[simp] theorem setGpt_host (s : State) (x : GptBlk) : (s.setGpt x).host = s.host := rfl
@[simp] theorem setGpt_sys (s : State) (x : GptBlk) : (s.setGpt x).sys = s.sys := rfl
@[simp] theorem setGpt_ckp (s : State) (x : GptBlk) : (s.setGpt x).ckp = s.ckp := rfl
@[simp] theorem setGpt_lanes (s : State) (x : GptBlk) : (s.setGpt x).lanes = s.lanes := rfl
@[simp] theorem setGpt_chn (s : State) (x : GptBlk) : (s.setGpt x).chn = s.chn := rfl
@[simp] theorem setGpt_head (s : State) (x : GptBlk) : (s.setGpt x).head = s.head := rfl
@[simp] theorem setGpt_dis (s : State) (x : GptBlk) : (s.setGpt x).dis = s.dis := rfl
@[simp] theorem setGpt_vox (s : State) (x : GptBlk) : (s.setGpt x).vox = s.vox := rfl
@[simp] theorem setGpt_epoch (s : State) (x : GptBlk) : (s.setGpt x).epoch = s.epoch := rfl
@[simp] theorem setGpt_mods (s : State) (x : GptBlk) : (s.setGpt x).mods = s.mods := rfl
@[simp] theorem setGpt_kst (s : State) (x : GptBlk) : (s.setGpt x).kst = s.kst := rfl
@[simp] theorem setGpt_mem (s : State) (x : GptBlk) : (s.setGpt x).mem = s.mem := rfl
@[simp] theorem setGpt_ecc (s : State) (x : GptBlk) : (s.setGpt x).ecc = s.ecc := rfl
@[simp] theorem setGpt_mrg (s : State) (x : GptBlk) : (s.setGpt x).mrg = s.mrg := rfl
@[simp] theorem setGpt_emt (s : State) (x : GptBlk) : (s.setGpt x).emt = s.emt := rfl
@[simp] theorem setGpt_drv (s : State) (x : GptBlk) : (s.setGpt x).drv = s.drv := rfl
@[simp] theorem setGpt_aou (s : State) (x : GptBlk) : (s.setGpt x).aou = s.aou := rfl
@[simp] theorem setGpt_pix (s : State) (x : GptBlk) : (s.setGpt x).pix = s.pix := rfl
@[simp] theorem setGpt_sns (s : State) (x : GptBlk) : (s.setGpt x).sns = s.sns := rfl
@[simp] theorem setGpt_aud (s : State) (x : GptBlk) : (s.setGpt x).aud = s.aud := rfl
@[simp] theorem setGpt_gpt (s : State) (x : GptBlk) : (s.setGpt x).gpt = x := rfl
@[simp] theorem setGpt_mgt (s : State) (x : GptBlk) : (s.setGpt x).mgt = s.mgt := rfl
@[simp] theorem setGpt_dmx (s : State) (x : GptBlk) : (s.setGpt x).dmx = s.dmx := rfl
@[simp] theorem setGpt_ros (s : State) (x : GptBlk) : (s.setGpt x).ros = s.ros := rfl
@[simp] theorem setGpt_jtag (s : State) (x : GptBlk) : (s.setGpt x).jtag = s.jtag := rfl
@[simp] theorem setGpt_pins (s : State) (x : GptBlk) : (s.setGpt x).pins = s.pins := rfl
@[simp] theorem setGpt_free (s : State) (x : GptBlk) : (s.setGpt x).free = s.free := rfl
@[simp] theorem setGpt_pending (s : State) (x : GptBlk) : (s.setGpt x).pending = s.pending := rfl
@[simp] theorem setMgt_mode (s : State) (x : Mgt) : (s.setMgt x).mode = s.mode := rfl
@[simp] theorem setMgt_owl (s : State) (x : Mgt) : (s.setMgt x).owl = s.owl := rfl
@[simp] theorem setMgt_gate (s : State) (x : Mgt) : (s.setMgt x).gate = s.gate := rfl
@[simp] theorem setMgt_host (s : State) (x : Mgt) : (s.setMgt x).host = s.host := rfl
@[simp] theorem setMgt_sys (s : State) (x : Mgt) : (s.setMgt x).sys = s.sys := rfl
@[simp] theorem setMgt_ckp (s : State) (x : Mgt) : (s.setMgt x).ckp = s.ckp := rfl
@[simp] theorem setMgt_lanes (s : State) (x : Mgt) : (s.setMgt x).lanes = s.lanes := rfl
@[simp] theorem setMgt_chn (s : State) (x : Mgt) : (s.setMgt x).chn = s.chn := rfl
@[simp] theorem setMgt_head (s : State) (x : Mgt) : (s.setMgt x).head = s.head := rfl
@[simp] theorem setMgt_dis (s : State) (x : Mgt) : (s.setMgt x).dis = s.dis := rfl
@[simp] theorem setMgt_vox (s : State) (x : Mgt) : (s.setMgt x).vox = s.vox := rfl
@[simp] theorem setMgt_epoch (s : State) (x : Mgt) : (s.setMgt x).epoch = s.epoch := rfl
@[simp] theorem setMgt_mods (s : State) (x : Mgt) : (s.setMgt x).mods = s.mods := rfl
@[simp] theorem setMgt_kst (s : State) (x : Mgt) : (s.setMgt x).kst = s.kst := rfl
@[simp] theorem setMgt_mem (s : State) (x : Mgt) : (s.setMgt x).mem = s.mem := rfl
@[simp] theorem setMgt_ecc (s : State) (x : Mgt) : (s.setMgt x).ecc = s.ecc := rfl
@[simp] theorem setMgt_mrg (s : State) (x : Mgt) : (s.setMgt x).mrg = s.mrg := rfl
@[simp] theorem setMgt_emt (s : State) (x : Mgt) : (s.setMgt x).emt = s.emt := rfl
@[simp] theorem setMgt_drv (s : State) (x : Mgt) : (s.setMgt x).drv = s.drv := rfl
@[simp] theorem setMgt_aou (s : State) (x : Mgt) : (s.setMgt x).aou = s.aou := rfl
@[simp] theorem setMgt_pix (s : State) (x : Mgt) : (s.setMgt x).pix = s.pix := rfl
@[simp] theorem setMgt_sns (s : State) (x : Mgt) : (s.setMgt x).sns = s.sns := rfl
@[simp] theorem setMgt_aud (s : State) (x : Mgt) : (s.setMgt x).aud = s.aud := rfl
@[simp] theorem setMgt_gpt (s : State) (x : Mgt) : (s.setMgt x).gpt = s.gpt := rfl
@[simp] theorem setMgt_mgt (s : State) (x : Mgt) : (s.setMgt x).mgt = x := rfl
@[simp] theorem setMgt_dmx (s : State) (x : Mgt) : (s.setMgt x).dmx = s.dmx := rfl
@[simp] theorem setMgt_ros (s : State) (x : Mgt) : (s.setMgt x).ros = s.ros := rfl
@[simp] theorem setMgt_jtag (s : State) (x : Mgt) : (s.setMgt x).jtag = s.jtag := rfl
@[simp] theorem setMgt_pins (s : State) (x : Mgt) : (s.setMgt x).pins = s.pins := rfl
@[simp] theorem setMgt_free (s : State) (x : Mgt) : (s.setMgt x).free = s.free := rfl
@[simp] theorem setMgt_pending (s : State) (x : Mgt) : (s.setMgt x).pending = s.pending := rfl
@[simp] theorem setDmx_mode (s : State) (x : Dmx) : (s.setDmx x).mode = s.mode := rfl
@[simp] theorem setDmx_owl (s : State) (x : Dmx) : (s.setDmx x).owl = s.owl := rfl
@[simp] theorem setDmx_gate (s : State) (x : Dmx) : (s.setDmx x).gate = s.gate := rfl
@[simp] theorem setDmx_host (s : State) (x : Dmx) : (s.setDmx x).host = s.host := rfl
@[simp] theorem setDmx_sys (s : State) (x : Dmx) : (s.setDmx x).sys = s.sys := rfl
@[simp] theorem setDmx_ckp (s : State) (x : Dmx) : (s.setDmx x).ckp = s.ckp := rfl
@[simp] theorem setDmx_lanes (s : State) (x : Dmx) : (s.setDmx x).lanes = s.lanes := rfl
@[simp] theorem setDmx_chn (s : State) (x : Dmx) : (s.setDmx x).chn = s.chn := rfl
@[simp] theorem setDmx_head (s : State) (x : Dmx) : (s.setDmx x).head = s.head := rfl
@[simp] theorem setDmx_dis (s : State) (x : Dmx) : (s.setDmx x).dis = s.dis := rfl
@[simp] theorem setDmx_vox (s : State) (x : Dmx) : (s.setDmx x).vox = s.vox := rfl
@[simp] theorem setDmx_epoch (s : State) (x : Dmx) : (s.setDmx x).epoch = s.epoch := rfl
@[simp] theorem setDmx_mods (s : State) (x : Dmx) : (s.setDmx x).mods = s.mods := rfl
@[simp] theorem setDmx_kst (s : State) (x : Dmx) : (s.setDmx x).kst = s.kst := rfl
@[simp] theorem setDmx_mem (s : State) (x : Dmx) : (s.setDmx x).mem = s.mem := rfl
@[simp] theorem setDmx_ecc (s : State) (x : Dmx) : (s.setDmx x).ecc = s.ecc := rfl
@[simp] theorem setDmx_mrg (s : State) (x : Dmx) : (s.setDmx x).mrg = s.mrg := rfl
@[simp] theorem setDmx_emt (s : State) (x : Dmx) : (s.setDmx x).emt = s.emt := rfl
@[simp] theorem setDmx_drv (s : State) (x : Dmx) : (s.setDmx x).drv = s.drv := rfl
@[simp] theorem setDmx_aou (s : State) (x : Dmx) : (s.setDmx x).aou = s.aou := rfl
@[simp] theorem setDmx_pix (s : State) (x : Dmx) : (s.setDmx x).pix = s.pix := rfl
@[simp] theorem setDmx_sns (s : State) (x : Dmx) : (s.setDmx x).sns = s.sns := rfl
@[simp] theorem setDmx_aud (s : State) (x : Dmx) : (s.setDmx x).aud = s.aud := rfl
@[simp] theorem setDmx_gpt (s : State) (x : Dmx) : (s.setDmx x).gpt = s.gpt := rfl
@[simp] theorem setDmx_mgt (s : State) (x : Dmx) : (s.setDmx x).mgt = s.mgt := rfl
@[simp] theorem setDmx_dmx (s : State) (x : Dmx) : (s.setDmx x).dmx = x := rfl
@[simp] theorem setDmx_ros (s : State) (x : Dmx) : (s.setDmx x).ros = s.ros := rfl
@[simp] theorem setDmx_jtag (s : State) (x : Dmx) : (s.setDmx x).jtag = s.jtag := rfl
@[simp] theorem setDmx_pins (s : State) (x : Dmx) : (s.setDmx x).pins = s.pins := rfl
@[simp] theorem setDmx_free (s : State) (x : Dmx) : (s.setDmx x).free = s.free := rfl
@[simp] theorem setDmx_pending (s : State) (x : Dmx) : (s.setDmx x).pending = s.pending := rfl
@[simp] theorem setRos_mode (s : State) (x : Ros) : (s.setRos x).mode = s.mode := rfl
@[simp] theorem setRos_owl (s : State) (x : Ros) : (s.setRos x).owl = s.owl := rfl
@[simp] theorem setRos_gate (s : State) (x : Ros) : (s.setRos x).gate = s.gate := rfl
@[simp] theorem setRos_host (s : State) (x : Ros) : (s.setRos x).host = s.host := rfl
@[simp] theorem setRos_sys (s : State) (x : Ros) : (s.setRos x).sys = s.sys := rfl
@[simp] theorem setRos_ckp (s : State) (x : Ros) : (s.setRos x).ckp = s.ckp := rfl
@[simp] theorem setRos_lanes (s : State) (x : Ros) : (s.setRos x).lanes = s.lanes := rfl
@[simp] theorem setRos_chn (s : State) (x : Ros) : (s.setRos x).chn = s.chn := rfl
@[simp] theorem setRos_head (s : State) (x : Ros) : (s.setRos x).head = s.head := rfl
@[simp] theorem setRos_dis (s : State) (x : Ros) : (s.setRos x).dis = s.dis := rfl
@[simp] theorem setRos_vox (s : State) (x : Ros) : (s.setRos x).vox = s.vox := rfl
@[simp] theorem setRos_epoch (s : State) (x : Ros) : (s.setRos x).epoch = s.epoch := rfl
@[simp] theorem setRos_mods (s : State) (x : Ros) : (s.setRos x).mods = s.mods := rfl
@[simp] theorem setRos_kst (s : State) (x : Ros) : (s.setRos x).kst = s.kst := rfl
@[simp] theorem setRos_mem (s : State) (x : Ros) : (s.setRos x).mem = s.mem := rfl
@[simp] theorem setRos_ecc (s : State) (x : Ros) : (s.setRos x).ecc = s.ecc := rfl
@[simp] theorem setRos_mrg (s : State) (x : Ros) : (s.setRos x).mrg = s.mrg := rfl
@[simp] theorem setRos_emt (s : State) (x : Ros) : (s.setRos x).emt = s.emt := rfl
@[simp] theorem setRos_drv (s : State) (x : Ros) : (s.setRos x).drv = s.drv := rfl
@[simp] theorem setRos_aou (s : State) (x : Ros) : (s.setRos x).aou = s.aou := rfl
@[simp] theorem setRos_pix (s : State) (x : Ros) : (s.setRos x).pix = s.pix := rfl
@[simp] theorem setRos_sns (s : State) (x : Ros) : (s.setRos x).sns = s.sns := rfl
@[simp] theorem setRos_aud (s : State) (x : Ros) : (s.setRos x).aud = s.aud := rfl
@[simp] theorem setRos_gpt (s : State) (x : Ros) : (s.setRos x).gpt = s.gpt := rfl
@[simp] theorem setRos_mgt (s : State) (x : Ros) : (s.setRos x).mgt = s.mgt := rfl
@[simp] theorem setRos_dmx (s : State) (x : Ros) : (s.setRos x).dmx = s.dmx := rfl
@[simp] theorem setRos_ros (s : State) (x : Ros) : (s.setRos x).ros = x := rfl
@[simp] theorem setRos_jtag (s : State) (x : Ros) : (s.setRos x).jtag = s.jtag := rfl
@[simp] theorem setRos_pins (s : State) (x : Ros) : (s.setRos x).pins = s.pins := rfl
@[simp] theorem setRos_free (s : State) (x : Ros) : (s.setRos x).free = s.free := rfl
@[simp] theorem setRos_pending (s : State) (x : Ros) : (s.setRos x).pending = s.pending := rfl
@[simp] theorem setJtag_mode (s : State) (x : Jtag) : (s.setJtag x).mode = s.mode := rfl
@[simp] theorem setJtag_owl (s : State) (x : Jtag) : (s.setJtag x).owl = s.owl := rfl
@[simp] theorem setJtag_gate (s : State) (x : Jtag) : (s.setJtag x).gate = s.gate := rfl
@[simp] theorem setJtag_host (s : State) (x : Jtag) : (s.setJtag x).host = s.host := rfl
@[simp] theorem setJtag_sys (s : State) (x : Jtag) : (s.setJtag x).sys = s.sys := rfl
@[simp] theorem setJtag_ckp (s : State) (x : Jtag) : (s.setJtag x).ckp = s.ckp := rfl
@[simp] theorem setJtag_lanes (s : State) (x : Jtag) : (s.setJtag x).lanes = s.lanes := rfl
@[simp] theorem setJtag_chn (s : State) (x : Jtag) : (s.setJtag x).chn = s.chn := rfl
@[simp] theorem setJtag_head (s : State) (x : Jtag) : (s.setJtag x).head = s.head := rfl
@[simp] theorem setJtag_dis (s : State) (x : Jtag) : (s.setJtag x).dis = s.dis := rfl
@[simp] theorem setJtag_vox (s : State) (x : Jtag) : (s.setJtag x).vox = s.vox := rfl
@[simp] theorem setJtag_epoch (s : State) (x : Jtag) : (s.setJtag x).epoch = s.epoch := rfl
@[simp] theorem setJtag_mods (s : State) (x : Jtag) : (s.setJtag x).mods = s.mods := rfl
@[simp] theorem setJtag_kst (s : State) (x : Jtag) : (s.setJtag x).kst = s.kst := rfl
@[simp] theorem setJtag_mem (s : State) (x : Jtag) : (s.setJtag x).mem = s.mem := rfl
@[simp] theorem setJtag_ecc (s : State) (x : Jtag) : (s.setJtag x).ecc = s.ecc := rfl
@[simp] theorem setJtag_mrg (s : State) (x : Jtag) : (s.setJtag x).mrg = s.mrg := rfl
@[simp] theorem setJtag_emt (s : State) (x : Jtag) : (s.setJtag x).emt = s.emt := rfl
@[simp] theorem setJtag_drv (s : State) (x : Jtag) : (s.setJtag x).drv = s.drv := rfl
@[simp] theorem setJtag_aou (s : State) (x : Jtag) : (s.setJtag x).aou = s.aou := rfl
@[simp] theorem setJtag_pix (s : State) (x : Jtag) : (s.setJtag x).pix = s.pix := rfl
@[simp] theorem setJtag_sns (s : State) (x : Jtag) : (s.setJtag x).sns = s.sns := rfl
@[simp] theorem setJtag_aud (s : State) (x : Jtag) : (s.setJtag x).aud = s.aud := rfl
@[simp] theorem setJtag_gpt (s : State) (x : Jtag) : (s.setJtag x).gpt = s.gpt := rfl
@[simp] theorem setJtag_mgt (s : State) (x : Jtag) : (s.setJtag x).mgt = s.mgt := rfl
@[simp] theorem setJtag_dmx (s : State) (x : Jtag) : (s.setJtag x).dmx = s.dmx := rfl
@[simp] theorem setJtag_ros (s : State) (x : Jtag) : (s.setJtag x).ros = s.ros := rfl
@[simp] theorem setJtag_jtag (s : State) (x : Jtag) : (s.setJtag x).jtag = x := rfl
@[simp] theorem setJtag_pins (s : State) (x : Jtag) : (s.setJtag x).pins = s.pins := rfl
@[simp] theorem setJtag_free (s : State) (x : Jtag) : (s.setJtag x).free = s.free := rfl
@[simp] theorem setJtag_pending (s : State) (x : Jtag) : (s.setJtag x).pending = s.pending := rfl
@[simp] theorem setPins_mode (s : State) (x : Pins) : (s.setPins x).mode = s.mode := rfl
@[simp] theorem setPins_owl (s : State) (x : Pins) : (s.setPins x).owl = s.owl := rfl
@[simp] theorem setPins_gate (s : State) (x : Pins) : (s.setPins x).gate = s.gate := rfl
@[simp] theorem setPins_host (s : State) (x : Pins) : (s.setPins x).host = s.host := rfl
@[simp] theorem setPins_sys (s : State) (x : Pins) : (s.setPins x).sys = s.sys := rfl
@[simp] theorem setPins_ckp (s : State) (x : Pins) : (s.setPins x).ckp = s.ckp := rfl
@[simp] theorem setPins_lanes (s : State) (x : Pins) : (s.setPins x).lanes = s.lanes := rfl
@[simp] theorem setPins_chn (s : State) (x : Pins) : (s.setPins x).chn = s.chn := rfl
@[simp] theorem setPins_head (s : State) (x : Pins) : (s.setPins x).head = s.head := rfl
@[simp] theorem setPins_dis (s : State) (x : Pins) : (s.setPins x).dis = s.dis := rfl
@[simp] theorem setPins_vox (s : State) (x : Pins) : (s.setPins x).vox = s.vox := rfl
@[simp] theorem setPins_epoch (s : State) (x : Pins) : (s.setPins x).epoch = s.epoch := rfl
@[simp] theorem setPins_mods (s : State) (x : Pins) : (s.setPins x).mods = s.mods := rfl
@[simp] theorem setPins_kst (s : State) (x : Pins) : (s.setPins x).kst = s.kst := rfl
@[simp] theorem setPins_mem (s : State) (x : Pins) : (s.setPins x).mem = s.mem := rfl
@[simp] theorem setPins_ecc (s : State) (x : Pins) : (s.setPins x).ecc = s.ecc := rfl
@[simp] theorem setPins_mrg (s : State) (x : Pins) : (s.setPins x).mrg = s.mrg := rfl
@[simp] theorem setPins_emt (s : State) (x : Pins) : (s.setPins x).emt = s.emt := rfl
@[simp] theorem setPins_drv (s : State) (x : Pins) : (s.setPins x).drv = s.drv := rfl
@[simp] theorem setPins_aou (s : State) (x : Pins) : (s.setPins x).aou = s.aou := rfl
@[simp] theorem setPins_pix (s : State) (x : Pins) : (s.setPins x).pix = s.pix := rfl
@[simp] theorem setPins_sns (s : State) (x : Pins) : (s.setPins x).sns = s.sns := rfl
@[simp] theorem setPins_aud (s : State) (x : Pins) : (s.setPins x).aud = s.aud := rfl
@[simp] theorem setPins_gpt (s : State) (x : Pins) : (s.setPins x).gpt = s.gpt := rfl
@[simp] theorem setPins_mgt (s : State) (x : Pins) : (s.setPins x).mgt = s.mgt := rfl
@[simp] theorem setPins_dmx (s : State) (x : Pins) : (s.setPins x).dmx = s.dmx := rfl
@[simp] theorem setPins_ros (s : State) (x : Pins) : (s.setPins x).ros = s.ros := rfl
@[simp] theorem setPins_jtag (s : State) (x : Pins) : (s.setPins x).jtag = s.jtag := rfl
@[simp] theorem setPins_pins (s : State) (x : Pins) : (s.setPins x).pins = x := rfl
@[simp] theorem setPins_free (s : State) (x : Pins) : (s.setPins x).free = s.free := rfl
@[simp] theorem setPins_pending (s : State) (x : Pins) : (s.setPins x).pending = s.pending := rfl
@[simp] theorem setFree_mode (s : State) (x : Nat) : (s.setFree x).mode = s.mode := rfl
@[simp] theorem setFree_owl (s : State) (x : Nat) : (s.setFree x).owl = s.owl := rfl
@[simp] theorem setFree_gate (s : State) (x : Nat) : (s.setFree x).gate = s.gate := rfl
@[simp] theorem setFree_host (s : State) (x : Nat) : (s.setFree x).host = s.host := rfl
@[simp] theorem setFree_sys (s : State) (x : Nat) : (s.setFree x).sys = s.sys := rfl
@[simp] theorem setFree_ckp (s : State) (x : Nat) : (s.setFree x).ckp = s.ckp := rfl
@[simp] theorem setFree_lanes (s : State) (x : Nat) : (s.setFree x).lanes = s.lanes := rfl
@[simp] theorem setFree_chn (s : State) (x : Nat) : (s.setFree x).chn = s.chn := rfl
@[simp] theorem setFree_head (s : State) (x : Nat) : (s.setFree x).head = s.head := rfl
@[simp] theorem setFree_dis (s : State) (x : Nat) : (s.setFree x).dis = s.dis := rfl
@[simp] theorem setFree_vox (s : State) (x : Nat) : (s.setFree x).vox = s.vox := rfl
@[simp] theorem setFree_epoch (s : State) (x : Nat) : (s.setFree x).epoch = s.epoch := rfl
@[simp] theorem setFree_mods (s : State) (x : Nat) : (s.setFree x).mods = s.mods := rfl
@[simp] theorem setFree_kst (s : State) (x : Nat) : (s.setFree x).kst = s.kst := rfl
@[simp] theorem setFree_mem (s : State) (x : Nat) : (s.setFree x).mem = s.mem := rfl
@[simp] theorem setFree_ecc (s : State) (x : Nat) : (s.setFree x).ecc = s.ecc := rfl
@[simp] theorem setFree_mrg (s : State) (x : Nat) : (s.setFree x).mrg = s.mrg := rfl
@[simp] theorem setFree_emt (s : State) (x : Nat) : (s.setFree x).emt = s.emt := rfl
@[simp] theorem setFree_drv (s : State) (x : Nat) : (s.setFree x).drv = s.drv := rfl
@[simp] theorem setFree_aou (s : State) (x : Nat) : (s.setFree x).aou = s.aou := rfl
@[simp] theorem setFree_pix (s : State) (x : Nat) : (s.setFree x).pix = s.pix := rfl
@[simp] theorem setFree_sns (s : State) (x : Nat) : (s.setFree x).sns = s.sns := rfl
@[simp] theorem setFree_aud (s : State) (x : Nat) : (s.setFree x).aud = s.aud := rfl
@[simp] theorem setFree_gpt (s : State) (x : Nat) : (s.setFree x).gpt = s.gpt := rfl
@[simp] theorem setFree_mgt (s : State) (x : Nat) : (s.setFree x).mgt = s.mgt := rfl
@[simp] theorem setFree_dmx (s : State) (x : Nat) : (s.setFree x).dmx = s.dmx := rfl
@[simp] theorem setFree_ros (s : State) (x : Nat) : (s.setFree x).ros = s.ros := rfl
@[simp] theorem setFree_jtag (s : State) (x : Nat) : (s.setFree x).jtag = s.jtag := rfl
@[simp] theorem setFree_pins (s : State) (x : Nat) : (s.setFree x).pins = s.pins := rfl
@[simp] theorem setFree_free (s : State) (x : Nat) : (s.setFree x).free = x := rfl
@[simp] theorem setFree_pending (s : State) (x : Nat) : (s.setFree x).pending = s.pending := rfl
@[simp] theorem setPending_mode (s : State) (x : List Instr) : (s.setPending x).mode = s.mode := rfl
@[simp] theorem setPending_owl (s : State) (x : List Instr) : (s.setPending x).owl = s.owl := rfl
@[simp] theorem setPending_gate (s : State) (x : List Instr) : (s.setPending x).gate = s.gate := rfl
@[simp] theorem setPending_host (s : State) (x : List Instr) : (s.setPending x).host = s.host := rfl
@[simp] theorem setPending_sys (s : State) (x : List Instr) : (s.setPending x).sys = s.sys := rfl
@[simp] theorem setPending_ckp (s : State) (x : List Instr) : (s.setPending x).ckp = s.ckp := rfl
@[simp] theorem setPending_lanes (s : State) (x : List Instr) : (s.setPending x).lanes = s.lanes := rfl
@[simp] theorem setPending_chn (s : State) (x : List Instr) : (s.setPending x).chn = s.chn := rfl
@[simp] theorem setPending_head (s : State) (x : List Instr) : (s.setPending x).head = s.head := rfl
@[simp] theorem setPending_dis (s : State) (x : List Instr) : (s.setPending x).dis = s.dis := rfl
@[simp] theorem setPending_vox (s : State) (x : List Instr) : (s.setPending x).vox = s.vox := rfl
@[simp] theorem setPending_epoch (s : State) (x : List Instr) : (s.setPending x).epoch = s.epoch := rfl
@[simp] theorem setPending_mods (s : State) (x : List Instr) : (s.setPending x).mods = s.mods := rfl
@[simp] theorem setPending_kst (s : State) (x : List Instr) : (s.setPending x).kst = s.kst := rfl
@[simp] theorem setPending_mem (s : State) (x : List Instr) : (s.setPending x).mem = s.mem := rfl
@[simp] theorem setPending_ecc (s : State) (x : List Instr) : (s.setPending x).ecc = s.ecc := rfl
@[simp] theorem setPending_mrg (s : State) (x : List Instr) : (s.setPending x).mrg = s.mrg := rfl
@[simp] theorem setPending_emt (s : State) (x : List Instr) : (s.setPending x).emt = s.emt := rfl
@[simp] theorem setPending_drv (s : State) (x : List Instr) : (s.setPending x).drv = s.drv := rfl
@[simp] theorem setPending_aou (s : State) (x : List Instr) : (s.setPending x).aou = s.aou := rfl
@[simp] theorem setPending_pix (s : State) (x : List Instr) : (s.setPending x).pix = s.pix := rfl
@[simp] theorem setPending_sns (s : State) (x : List Instr) : (s.setPending x).sns = s.sns := rfl
@[simp] theorem setPending_aud (s : State) (x : List Instr) : (s.setPending x).aud = s.aud := rfl
@[simp] theorem setPending_gpt (s : State) (x : List Instr) : (s.setPending x).gpt = s.gpt := rfl
@[simp] theorem setPending_mgt (s : State) (x : List Instr) : (s.setPending x).mgt = s.mgt := rfl
@[simp] theorem setPending_dmx (s : State) (x : List Instr) : (s.setPending x).dmx = s.dmx := rfl
@[simp] theorem setPending_ros (s : State) (x : List Instr) : (s.setPending x).ros = s.ros := rfl
@[simp] theorem setPending_jtag (s : State) (x : List Instr) : (s.setPending x).jtag = s.jtag := rfl
@[simp] theorem setPending_pins (s : State) (x : List Instr) : (s.setPending x).pins = s.pins := rfl
@[simp] theorem setPending_free (s : State) (x : List Instr) : (s.setPending x).free = s.free := rfl
@[simp] theorem setPending_pending (s : State) (x : List Instr) : (s.setPending x).pending = x := rfl

end Sys2Proof.Machine.State
end

