-- ==== Sys2Proof/Laws/Keep.lean ====
section
/-! SUPPORT. What every operation keeps: the queue, the canonical form of the memories, and PD0 ON. -/

namespace Sys2Proof.Machine

set_option linter.unusedSimpArgs false
set_option linter.unreachableTactic false
set_option linter.unusedTactic false
set_option linter.tactic.unusedName false

variable {Q : List Instr}

/-- What every operation keeps, of the three parts that it is about. -/
def KeptParts (Q p : List Instr) (m : Mem) (g : Gate) : Prop := p = Q ∧ m.wf = true ∧ g.aonOn = true

/-- The queue is `q`, the memories have their canonical form, and PD0 is ON. -/
abbrev State.Kept (Q : List Instr) (s : State) : Prop := KeptParts Q s.pending s.mem s.gate

@[simp] theorem ite_kept {c : Prop} [Decidable c] (a b : State) :
    (if c then a else b).Kept Q ↔ if c then a.Kept Q else b.Kept Q := by split <;> rfl

@[simp] theorem foldl_kept {α : Type} (f : State → α → State) (l : List α) (s : State) (h : s.Kept Q)
    (hf : ∀ s a, s.Kept Q → (f s a).Kept Q) : (l.foldl f s).Kept Q := by
  induction l generalizing s with
  | nil => exact h
  | cons a l ih => exact ih _ (hf _ _ h)

/-- The same, for a step that is taken at members of the list only. -/
theorem foldl_kept_mem {α : Type} (f : State → α → State) (l : List α) (s : State) (h : s.Kept Q)
    (hf : ∀ s, ∀ a ∈ l, s.Kept Q → (f s a).Kept Q) : (l.foldl f s).Kept Q := by
  induction l generalizing s with
  | nil => exact h
  | cons a l ih => exact ih _ (hf _ _ (by simp) h) fun s b hb => hf s b (by simp [hb])

/-- A change of the memories that keeps their form. -/
theorem KeptParts.remem {p : List Instr} {m m' : Mem} {g : Gate} (h : KeptParts Q p m g)
    (hm : m.wf = true → m'.wf = true) : KeptParts Q p m' g := ⟨h.1, hm h.2.1, h.2.2⟩

/-- A change of the gate controller that keeps PD0 ON. -/
theorem KeptParts.regate {p : List Instr} {m : Mem} {g g' : Gate} (h : KeptParts Q p m g)
    (hg : g.aonOn = true → g'.aonOn = true) : KeptParts Q p m g' := ⟨h.1, h.2.1, hg h.2.2⟩

theorem setPd_zero (n : Nat) (x : PdState) (g : Gate) : (setPd n x g).pd[0] = if n = 0 then x else g.pd[0] := by
  simp [setPd, Vector.getElem_setIfInBounds]

/-- Setting a domain other than PD0, or PD0 to ON, keeps PD0 ON. -/
theorem setPd_aonOn (n : Nat) (x : PdState) (g : Gate) (h : g.aonOn = true) (hn : n ≠ 0 ∨ x = .on) :
    (setPd n x g).aonOn = true := by
  have h0 := setPd_zero n x g
  simp only [Gate.aonOn, Bool.and_eq_true, beq_iff_eq] at h ⊢
  refine ⟨?_, h.2⟩
  rw [h0]
  split
  · rcases hn with hn | hn
    · contradiction
    · exact hn
  · exact h.1

/-- The same, with the list of updaters changed. -/
theorem setPd_updater_aonOn (n : Nat) (x : PdState) (u : List (Nat × Requester)) (g : Gate) (h : g.aonOn = true)
    (hn : n ≠ 0 ∨ x = .on) : ({ setPd n x g with updater := u } : Gate).aonOn = true := setPd_aonOn n x g h hn

@[simp] theorem setChn_kept (x : Chn) (s : State) (h : s.Kept Q) : (s.setChn x).Kept Q := h

@[simp] theorem setHead_kept (x : Head) (s : State) (h : s.Kept Q) : (s.setHead x).Kept Q := h

@[simp] theorem setFree_kept (x : Nat) (s : State) (h : s.Kept Q) : (s.setFree x).Kept Q := h

@[simp] theorem setEcc_kept (x : Ecc) (s : State) (h : s.Kept Q) : (s.setEcc x).Kept Q := h

@[simp] theorem setMrg_kept (x : Mrg) (s : State) (h : s.Kept Q) : (s.setMrg x).Kept Q := h

@[simp] theorem setVox_kept (x : Vox) (s : State) (h : s.Kept Q) : (s.setVox x).Kept Q := h

@[simp] theorem setMgt_kept (x : Mgt) (s : State) (h : s.Kept Q) : (s.setMgt x).Kept Q := h

@[simp] theorem raiseWith_kept (c : Cause) (detail : Word) (pb : Option Nat) (s : State)
    (hk : s.Kept Q) : (raiseWith c detail pb s).Kept Q := by
  unfold raiseWith; simp [State.Kept, hk]

@[simp] theorem raise_kept (c : Cause) (s : State) (hk : s.Kept Q) : (raise c s).Kept Q := by
  unfold raise; simp [State.Kept, hk]

@[simp] theorem raiseD_kept (c : Cause) (detail : Nat) (s : State)
    (hk : s.Kept Q) : (raiseD c detail s).Kept Q := by
  unfold raiseD; simp [State.Kept, hk]

@[simp] theorem raiseGpt_kept (n : Nat) (s : State) (hk : s.Kept Q) : (raiseGpt n s).Kept Q := by
  unfold raiseGpt; simp [State.Kept, hk]

@[simp] theorem when_kept (b : Bool) (f : State → State) (s : State) (h : s.Kept Q)
    (hf : ∀ s, s.Kept Q → (f s).Kept Q) : (when b f s).Kept Q := by
  unfold when; split <;> simp [h, hf]

@[simp] theorem memReadEffect_kept (src : BitVec 4) (a : Nat) (s : State)
    (h : s.Kept Q) : (memReadEffect src a s).Kept Q := by
  unfold memReadEffect
  split
  · exact h
  · dsimp only
    split
    · exact h
    · exact h
    · exact when_kept _ _ _ h fun s h => raise_kept _ _ h
    · exact raiseD_kept _ _ _ (h.remem (putRaw_wf _ _ _))

@[simp] theorem writeCode_kept (a : Nat) (w : Code) (s : State) (h : s.Kept Q) : (writeCode a w s).Kept Q := by
  unfold writeCode
  split
  · exact h
  · exact h.remem (putRaw_wf _ _ _)

@[simp] theorem write64_kept (a : Nat) (d : Quad) (s : State) (hk : s.Kept Q) : (write64 a d s).Kept Q := by
  unfold write64; simp [State.Kept, hk]

@[simp] theorem mergedWrite_kept (src : BitVec 4) (a size : Nat) (v : Word) (poison : Bool) (s : State)
    (hk : s.Kept Q) : (mergedWrite src a size v poison s).Kept Q := by
  unfold mergedWrite; simp [State.Kept, hk]

@[simp] theorem writeWords_kept (a : Nat) (l : List Quad) (s : State) (h : s.Kept Q) : (writeWords a l s).Kept Q := by
  induction l generalizing a s with
  | nil => exact h
  | cons d ds ih => exact ih _ _ (write64_kept _ _ _ h)

@[simp] theorem readWordsEffect_kept (src : BitVec 4) (a n : Nat) (s : State) (h : s.Kept Q) :
    (readWordsEffect src a n s).Kept Q := by
  induction n generalizing a s with
  | zero => exact h
  | succ n ih => exact ih _ _ (memReadEffect_kept _ _ _ h)

@[simp] theorem abandonAll_kept (s : State) (hk : s.Kept Q) : (abandonAll s).Kept Q := by
  unfold abandonAll; repeat' first | (simp (maxDischargeDepth := 12) [State.Kept, hk, apply_ite Prod.fst]; done) | split | (dsimp only; split)

@[simp] theorem resetPd1_kept (s : State) (hk : s.Kept Q) : (resetPd1 s).Kept Q := by
  unfold resetPd1; simp [State.Kept, hk]

@[simp] theorem resetDomain_kept (n : Nat) (s : State) (hk : s.Kept Q) : (resetDomain n s).Kept Q := by
  unfold resetDomain; simp [State.Kept, hk]

@[simp] theorem powerUpDomain_kept (n : Nat) (s : State) (h : s.Kept Q) : (powerUpDomain n s).Kept Q := by
  have h := resetDomain_kept n s h
  unfold powerUpDomain
  repeat' first | exact h | exact h.remem (zeroDomain_wf _ _) | split

@[simp] theorem pd1Off_kept (s : State) (hk : s.Kept Q) : (pd1Off s).Kept Q := by
  unfold pd1Off; repeat' first | (simp (maxDischargeDepth := 12) [State.Kept, hk, apply_ite Prod.fst]; done) | split | (dsimp only; split)

@[simp] theorem powerOffDomain_kept (n : Nat) (s : State) (h : s.Kept Q) : (powerOffDomain n s).Kept Q := by
  unfold powerOffDomain
  repeat' first | exact h | exact h.remem (zeroDomain_wf _ _) | exact resetDomain_kept n s h | split

@[simp] theorem reachOn_kept (n : Nat) (s : State) (hk : s.Kept Q) : (reachOn n s).Kept Q := by
  unfold reachOn; repeat' first | (simp (maxDischargeDepth := 12) [State.Kept, hk, apply_ite Prod.fst]; done) | split | (dsimp only; split)

@[simp] theorem powerUpAll_kept (p : Nat → Bool) (s : State) (h : s.Kept Q) : (powerUpAll p s).Kept Q := by
  refine foldl_kept _ _ _ h fun s n h => ?_
  split
  · exact (reachOn_kept n _ (powerUpDomain_kept n s h)).regate fun _ => setPd_updater_aonOn _ _ _ _ h.2.2 (.inr rfl)
  · exact h

@[simp] theorem powerDownAll_kept (p : Nat → Bool) (s : State) (h : s.Kept Q) : (powerDownAll p s).Kept Q := by
  refine foldl_kept _ _ _ h fun s n h => ?_
  split
  · rename_i hn
    have hn0 : n ≠ 0 := by simp at hn; exact hn.2
    exact (powerOffDomain_kept n s h).regate fun _ => setPd_updater_aonOn _ _ _ _ h.2.2 (.inl hn0)
  · exact h

@[simp] theorem resetState_kept (k : ResetKind) (b : BitVec 3) (c : Nat) (s : State) (h : s.Kept Q) :
    (resetState k b c s).Kept Q := by
  refine ⟨h.1, ?_, by rfl⟩
  unfold resetState
  split
  · rfl
  · exact h.2.1

@[simp] theorem setCkp_kept (c : Ckp) (r : Bool) (s : State) (hk : s.Kept Q) : (setCkp c r s).Kept Q := by
  unfold setCkp; repeat' first | (simp (maxDischargeDepth := 12) [State.Kept, hk, apply_ite Prod.fst]; done) | (simp (maxDischargeDepth := 12) +contextual [State.Kept, hk, apply_ite Prod.fst]; done) | split | (dsimp only; split)

@[simp] theorem redecideRef_kept (s : State) (hk : s.Kept Q) : (redecideRef s).Kept Q := by
  unfold redecideRef; simp [State.Kept, hk]

@[simp] theorem clockDies_kept (k : Clk) (s : State) (hk : s.Kept Q) : (clockDies k s).Kept Q := by
  unfold clockDies; simp [State.Kept, hk]

@[simp] theorem clockLives_kept (k : Clk) (s : State) (hk : s.Kept Q) : (clockLives k s).Kept Q := by
  unfold clockLives; simp [State.Kept, hk]

@[simp] theorem requal_kept (s : State) (hk : s.Kept Q) : (requal s).Kept Q := by
  unfold requal; simp [State.Kept, hk]

@[simp] theorem writeIclk_kept (n : Nat) (v : Word) (s : State) (hk : s.Kept Q) : (writeIclk n v s).Kept Q := by
  unfold writeIclk; simp [State.Kept, hk]

@[simp] theorem refSelect_kept (sel : BitVec 2) (s : State) (hk : s.Kept Q) : (refSelect sel s).Kept Q := by
  unfold refSelect; simp [State.Kept, hk]

@[simp] theorem acceptHeld_kept (s : State) (hk : s.Kept Q) : (acceptHeld s).Kept Q := by
  unfold acceptHeld; simp [State.Kept, hk]

@[simp] theorem commit_kept (s : State) (hk : s.Kept Q) : (commit s).Kept Q := by
  unfold commit; simp [State.Kept, hk]

@[simp] theorem migrationTick_kept (s : State) (hk : s.Kept Q) : (migrationTick s).Kept Q := by
  unfold migrationTick; repeat' first | (simp [State.Kept, hk]; done) | split

@[simp] theorem modSess_kept (n : Nat) (f : Session → Session) (s : State)
    (hk : s.Kept Q) : (modSess n f s).Kept Q := by
  unfold modSess; simp [State.Kept, hk]

@[simp] theorem countDrop_kept (n : Nat) (s : State) (hk : s.Kept Q) : (countDrop n s).Kept Q := by
  unfold countDrop; simp [State.Kept, hk]

@[simp] theorem countOutrange_kept (n : Nat) (s : State) (hk : s.Kept Q) : (countOutrange n s).Kept Q := by
  unfold countOutrange; simp [State.Kept, hk]

@[simp] theorem touch_kept (n : Nat) (s : State) (hk : s.Kept Q) : (touch n s).Kept Q := by
  unfold touch; simp [State.Kept, hk]

@[simp] theorem acceptFor_kept (n : Nat) (ok : Bool) (e : EvBytes) (s : State)
    (hk : s.Kept Q) : (acceptFor n ok e s).Kept Q := by
  unfold acceptFor; simp (maxDischargeDepth := 12) [State.Kept, hk]

@[simp] theorem acceptEvent_kept (src : EvSource) (e : EvBytes) (s : State)
    (hk : s.Kept Q) : (acceptEvent src e s).Kept Q := by
  unfold acceptEvent; simp [State.Kept, hk]

@[simp] theorem sessionOpen_kept (n : Nat) (s : State) (hk : s.Kept Q) : (sessionOpen n s).Kept Q := by
  unfold sessionOpen; simp [State.Kept, hk]

@[simp] theorem sessionFree_kept (n : Nat) (s : State) (hk : s.Kept Q) : (sessionFree n s).Kept Q := by
  unfold sessionFree; simp [State.Kept, hk]

@[simp] theorem writeKey_kept (n w : Nat) (v : Word) (s : State)
    (hk : s.Kept Q) : (writeKey n w v s).Kept Q := by
  unfold writeKey; simp [State.Kept, hk]

@[simp] theorem setKey_kept (n : Nat) (k : BitVec 128) (s : State) (hk : s.Kept Q) : (setKey n k s).Kept Q := by
  unfold setKey; simp [State.Kept, hk]

@[simp] theorem evalClaim_kept (c : CellBytes) (s : State) (hk : s.Kept Q) : (evalClaim c s).Kept Q := by
  unfold evalClaim; simp (maxDischargeDepth := 12) [State.Kept, hk]

@[simp] theorem acceptParams_kept (n : SIdx) (c : CellBytes) (s : State)
    (hk : s.Kept Q) : (acceptParams n c s).Kept Q := by
  unfold acceptParams; simp [State.Kept, hk]

@[simp] theorem wtRead_kept (i o : Nat) (s : State) (hk : s.Kept Q) : (wtRead i o s).Kept Q := by
  unfold wtRead; simp [State.Kept, hk]

@[simp] theorem setRes_kept (s : State) (hk : s.Kept Q) : (setRes s).Kept Q := by
  unfold setRes; simp [State.Kept, hk]

@[simp] theorem countNovoice_kept (n : Nat) (s : State) (hk : s.Kept Q) : (countNovoice n s).Kept Q := by
  unfold countNovoice; simp [State.Kept, hk]

@[simp] theorem countSteal_kept (n : Nat) (s : State) (hk : s.Kept Q) : (countSteal n s).Kept Q := by
  unfold countSteal; simp [State.Kept, hk]

@[simp] theorem modVoice_kept (i : Nat) (f : Voice → Voice) (s : State)
    (hk : s.Kept Q) : (modVoice i f s).Kept Q := by
  unfold modVoice; simp [State.Kept, hk]

@[simp] theorem readRecordEffect_kept (a : Nat) (s : State)
    (hk : s.Kept Q) : (readRecordEffect a s).Kept Q := by
  unfold readRecordEffect; split <;> simp [State.Kept, hk]

@[simp] theorem PatchRead.advanceEffect_kept (k : Nat) (r : PatchRead) (s : State) (hk : s.Kept Q) : (PatchRead.advanceEffect k r s).Kept Q := by
  unfold PatchRead.advanceEffect; repeat' first | (simp (maxDischargeDepth := 12) [State.Kept, hk, apply_ite Prod.fst]; done) | split | (dsimp only; split)

@[simp] theorem slideReads_kept (s : State) (h : s.Kept Q) : (slideReads s).Kept Q :=
  foldl_kept _ _ _ h fun s r h => PatchRead.advanceEffect_kept _ r s h

@[simp] theorem completeRead_kept (r : PatchRead) (s : State) (hk : s.Kept Q) : (completeRead r s).Kept Q := by
  unfold completeRead; repeat' first | (simp (maxDischargeDepth := 12) [State.Kept, hk, apply_ite Prod.fst]; done) | (simp (maxDischargeDepth := 12) +contextual [State.Kept, hk, apply_ite Prod.fst]; done) | split | (dsimp only; split)

@[simp] theorem completeOldest_kept (s : State) (hk : s.Kept Q) : (completeOldest s).Kept Q := by
  unfold completeOldest; split <;> simp [State.Kept, hk]

@[simp] theorem completeAll_kept (s : State) (hk : s.Kept Q) : (completeAll s).Kept Q := by
  unfold completeAll; repeat' first | (simp (maxDischargeDepth := 12) [State.Kept, hk, apply_ite Prod.fst]; done) | (simp (maxDischargeDepth := 12) +contextual [State.Kept, hk, apply_ite Prod.fst]; done) | split | (dsimp only; split)

@[simp] theorem installPending_kept (p : Pending) (t i : Nat) (s : State)
    (hk : s.Kept Q) : (installPending p t i s).Kept Q := by
  unfold installPending; simp [State.Kept, hk]

@[simp] theorem endStoop_kept (t i : Nat) (s : State) (hk : s.Kept Q) : (endStoop t i s).Kept Q := by
  unfold endStoop; split <;> simp [State.Kept, hk]

@[simp] theorem stealVoice_kept (p : Pending) (t i : Nat) (s : State) (h : s.Kept Q) : (stealVoice p t i s).Kept Q := by
  unfold stealVoice
  extract_lets v again s1 s2 len
  have h1 : s1.Kept Q := by
    unfold s1
    split
    · split
      · exact countNovoice_kept _ _ h
      · exact h
    · exact h
  have h2 : s2.Kept Q := countSteal_kept _ _ h1
  clear_value len s2
  split
  · exact modVoice_kept _ _ _ (installPending_kept _ _ _ _ h2)
  · exact modVoice_kept _ _ _ h2

@[simp] theorem strike_kept (t : Nat) (n : SIdx) (e : EvBytes) (play : Nat) (copy : Option Patch) (s : State)
    (h : s.Kept Q) : (strike t n e play copy s).Kept Q := by
  unfold strike
  extract_lets rg s1 a r s2
  have h1 : s1.Kept Q := when_kept _ _ _ h fun s h => countOutrange_kept _ _ h
  have h2 : s2.Kept Q := when_kept _ _ _ h1 fun s h => readRecordEffect_kept _ _ h
  clear_value r s2
  split
  · exact countDrop_kept _ _ h2
  · split
    · extract_lets late s3
      exact when_kept _ _ _ (modVoice_kept _ _ _ h2) fun s h => setVox_kept _ _ h
    · exact stealVoice_kept _ _ _ _ h2
    · exact countNovoice_kept _ _ h2

@[simp] theorem killAll_kept (n t : Nat) (s : State) (hk : s.Kept Q) : (killAll n t s).Kept Q := by
  unfold killAll; simp [State.Kept, hk]

@[simp] theorem applyEvent_kept (t : Nat) (n : SIdx) (e : EvBytes) (play : Nat) (copy : Option Patch) (s : State)
    (hk : s.Kept Q) : (applyEvent t n e play copy s).Kept Q := by
  unfold applyEvent; split <;> simp [State.Kept, hk]

@[simp] theorem handOver_kept (b t : Nat) (s : State) (hk : s.Kept Q) : (handOver b t s).Kept Q := by
  unfold handOver; repeat' first | (simp (maxDischargeDepth := 12) [State.Kept, hk, apply_ite Prod.fst]; done) | (simp (maxDischargeDepth := 12) +contextual [State.Kept, hk, apply_ite Prod.fst]; done) | split | (dsimp only; split)

@[simp] theorem applyParams_kept (s : State) (hk : s.Kept Q) : (applyParams s).Kept Q := by
  unfold applyParams; simp [State.Kept, hk]

@[simp] theorem issuePrefetch_kept (b : Nat) (s : State) (hk : s.Kept Q) : (issuePrefetch b s).Kept Q := by
  unfold issuePrefetch; simp [State.Kept, hk]

@[simp] theorem applyVoxKill_kept (b : Nat) (s : State) (hk : s.Kept Q) : (applyVoxKill b s).Kept Q := by
  unfold applyVoxKill; repeat' first | (simp (maxDischargeDepth := 12) [State.Kept, hk, apply_ite Prod.fst]; done) | (simp (maxDischargeDepth := 12) +contextual [State.Kept, hk, apply_ite Prod.fst]; done) | split | (dsimp only; split)

@[simp] theorem endStoops_kept (b : Nat) (s : State) (hk : s.Kept Q) : (endStoops b s).Kept Q := by
  unfold endStoops; repeat' first | (simp (maxDischargeDepth := 12) [State.Kept, hk, apply_ite Prod.fst]; done) | (simp (maxDischargeDepth := 12) +contextual [State.Kept, hk, apply_ite Prod.fst]; done) | split | (dsimp only; split)

@[simp] theorem turnSessions_kept (s : State) (hk : s.Kept Q) : (turnSessions s).Kept Q := by
  unfold turnSessions; simp [State.Kept, hk]

@[simp] theorem voxKill_kept (m : Half) (s : State) (hk : s.Kept Q) : (voxKill m s).Kept Q := by
  unfold voxKill; simp [State.Kept, hk]

@[simp] theorem vacateReserve_kept (e : Nat) (s : State) (h : s.Kept Q) : (vacateReserve e s).Kept Q := by
  unfold vacateReserve
  dsimp only [State.Kept]
  generalize List.zip _ _ = l
  exact KeptParts.regate h fun hg => hg

@[simp] theorem vacateMove_kept (e : Nat) (s : State) (h : s.Kept Q) : (vacateMove e s).Kept Q := by
  unfold vacateMove
  extract_lets moves moved lost x0 x v m s1
  have h1 : s1.Kept Q := h.regate fun hg => hg
  clear_value s1
  refine foldl_kept _ _ _ h1 fun s n h => ?_
  split <;> simp [h]

@[simp] theorem vacateTick_kept (s : State) (hk : s.Kept Q) : (vacateTick s).Kept Q := by
  unfold vacateTick; split <;> simp [State.Kept, hk]

@[simp] theorem beginVacate_kept (e : Nat) (s : State) (h : s.Kept Q) : (beginVacate e s).Kept Q := by
  unfold beginVacate
  split
  · exact h.regate fun hg => hg
  · exact vacateMove_kept _ _ (h.regate fun hg => hg)

@[simp] theorem leaveEpochWait_kept (s : State) (hk : s.Kept Q) : (leaveEpochWait s).Kept Q := by
  unfold leaveEpochWait; split <;> simp [State.Kept, hk]

@[simp] theorem migrationDone_kept (s : State) (hk : s.Kept Q) : (migrationDone s).Kept Q := by
  unfold migrationDone; simp (maxDischargeDepth := 12) [State.Kept, hk]

@[simp] theorem acceptLevel_kept (n : SIdx) (target level : Nat) (key : Option CellKey) (tick : Nat) (s : State)
    (hk : s.Kept Q) : (acceptLevel n target level key tick s).Kept Q := by
  unfold acceptLevel; simp [State.Kept, hk]

@[simp] theorem applyLevels_kept (b t : Nat) (s : State) (hk : s.Kept Q) : (applyLevels b t s).Kept Q := by
  unfold applyLevels; simp [State.Kept, hk]

@[simp] theorem timeOut_kept (n : Nat) (s : State) (hk : s.Kept Q) : (timeOut n s).Kept Q := by
  unfold timeOut; simp [State.Kept, hk]

@[simp] theorem missTick_kept (b : Nat) (s : State) (hk : s.Kept Q) : (missTick b s).Kept Q := by
  unfold missTick; simp [State.Kept, hk]

@[simp] theorem presentBlocks_kept (em ao : List MrgOut) (px : List (Nat × MrgOut)) (s : State)
    (hk : s.Kept Q) : (presentBlocks em ao px s).Kept Q := by
  unfold presentBlocks; simp [State.Kept, hk]

@[simp] theorem present_kept (j : Nat) (s : State) (hk : s.Kept Q) : (present j s).Kept Q := by
  unfold present; simp [State.Kept, hk]

@[simp] theorem writeLevel_kept (r : Requester) (v : Word) (s : State)
    (hk : s.Kept Q) : (writeLevel r v s).Kept Q := by
  unfold writeLevel; simp [State.Kept, hk]

@[simp] theorem mirror_kept (s : State) (hk : s.Kept Q) : (mirror s).Kept Q := by
  unfold mirror; simp [State.Kept, hk]

@[simp] theorem emtWrap_kept (f : Nat) (s : State) (hk : s.Kept Q) : (emtWrap f s).Kept Q := by
  unfold emtWrap; simp [State.Kept, hk]

@[simp] theorem emtFrame_kept (s : State) (hk : s.Kept Q) : (emtFrame s).Kept Q := by
  unfold emtFrame; simp [State.Kept, hk]

@[simp] theorem raiseReport_kept (r : DrvReport) (s : State) (hk : s.Kept Q) : (raiseReport r s).Kept Q := by
  unfold raiseReport; split <;> simp [State.Kept, hk]

@[simp] theorem deliver_kept (s : State) (hk : s.Kept Q) : (deliver s).Kept Q := by
  unfold deliver; repeat' first | (simp (maxDischargeDepth := 12) [State.Kept, hk, apply_ite Prod.fst]; done) | (simp (maxDischargeDepth := 12) +contextual [State.Kept, hk, apply_ite Prod.fst]; done) | split | (dsimp only; split)

@[simp] theorem linkTraffic_kept (s : State) (hk : s.Kept Q) : (linkTraffic s).Kept Q := by
  unfold linkTraffic; simp [State.Kept, hk]

@[simp] theorem linkHoodRelease_kept (s : State) (hk : s.Kept Q) : (linkHoodRelease s).Kept Q := by
  unfold linkHoodRelease; simp [State.Kept, hk]

@[simp] theorem modEm_kept (n : Nat) (f : DrvEm → DrvEm) (s : State)
    (hk : s.Kept Q) : (modEm n f s).Kept Q := by
  unfold modEm; simp [State.Kept, hk]

@[simp] theorem report_kept (r : DrvReport) (s : State) (hk : s.Kept Q) : (report r s).Kept Q := by
  unfold report; simp [State.Kept, hk]

@[simp] theorem shortTrip_kept (n : Fin 64) (s : State) (hk : s.Kept Q) : (shortTrip n s).Kept Q := by
  unfold shortTrip; simp [State.Kept, hk]

@[simp] theorem shortClear_kept (n : Nat) (s : State) (hk : s.Kept Q) : (shortClear n s).Kept Q := by
  unfold shortClear; simp [State.Kept, hk]

@[simp] theorem openClear_kept (n : Nat) (s : State) (hk : s.Kept Q) : (openClear n s).Kept Q := by
  unfold openClear; simp [State.Kept, hk]

@[simp] theorem tieAck_kept (hi : Bool) (m : Word) (s : State) (hk : s.Kept Q) : (tieAck hi m s).Kept Q := by
  unfold tieAck; simp [State.Kept, hk]

@[simp] theorem beginScan_kept (s : State) (hk : s.Kept Q) : (beginScan s).Kept Q := by
  unfold beginScan; simp [State.Kept, hk]

@[simp] theorem scanStart_kept (s : State) (hk : s.Kept Q) : (scanStart s).Kept Q := by
  unfold scanStart; simp [State.Kept, hk]

@[simp] theorem scanComplete_kept (s : State) (hk : s.Kept Q) : (scanComplete s).Kept Q := by
  unfold scanComplete; simp [State.Kept, hk]

@[simp] theorem queueFire_kept (b : Nat) (s : State) (hk : s.Kept Q) : (queueFire b s).Kept Q := by
  unfold queueFire; simp [State.Kept, hk]

@[simp] theorem timerStrobe_kept (n : Nat) (s : State) (hk : s.Kept Q) : (timerStrobe n s).Kept Q := by
  unfold timerStrobe; simp [State.Kept, hk]

@[simp] theorem reachTime_kept (t : Quad) (s : State) (hk : s.Kept Q) : (reachTime t s).Kept Q := by
  unfold reachTime; simp [State.Kept, hk]

@[simp] theorem modAo_kept (n : Nat) (f : DrvAo → DrvAo) (s : State)
    (hk : s.Kept Q) : (modAo n f s).Kept Q := by
  unfold modAo; simp [State.Kept, hk]

@[simp] theorem stageChange_kept (n : Nat) (mode range : Bool) (s : State)
    (hk : s.Kept Q) : (stageChange n mode range s).Kept Q := by
  unfold stageChange; simp [State.Kept, hk]

@[simp] theorem overvoltage_kept (n : Fin 16) (s : State) (hk : s.Kept Q) : (overvoltage n s).Kept Q := by
  unfold overvoltage; simp [State.Kept, hk]

@[simp] theorem pixFrame_kept (s : State) (hk : s.Kept Q) : (pixFrame s).Kept Q := by
  unfold pixFrame; simp [State.Kept, hk]

@[simp] theorem pixSnapshot_kept (s : State) (hk : s.Kept Q) : (pixSnapshot s).Kept Q := by
  unfold pixSnapshot; simp [State.Kept, hk]

@[simp] theorem snsTrigger_kept (k : Nat) (s : State) (hk : s.Kept Q) : (snsTrigger k s).Kept Q := by
  unfold snsTrigger; simp [State.Kept, hk]

@[simp] theorem snsTimerTrigger_kept (n : Nat) (s : State) (hk : s.Kept Q) : (snsTimerTrigger n s).Kept Q := by
  unfold snsTimerTrigger; simp [State.Kept, hk]

@[simp] theorem modGpt_kept (n : Nat) (f : Gpt → Gpt) (s : State) (hk : s.Kept Q) : (modGpt n f s).Kept Q := by
  unfold modGpt; simp [State.Kept, hk]

@[simp] theorem gptMatch_kept (n : Nat) (s : State) (hk : s.Kept Q) : (gptMatch n s).Kept Q := by
  unfold gptMatch; repeat' first | (simp (maxDischargeDepth := 12) [State.Kept, hk, apply_ite Prod.fst]; done) | (simp (maxDischargeDepth := 12) +contextual [State.Kept, hk, apply_ite Prod.fst]; done) | split | (dsimp only; split)

@[simp] theorem gptOverflow_kept (n : Nat) (s : State) (hk : s.Kept Q) : (gptOverflow n s).Kept Q := by
  unfold gptOverflow; repeat' first | (simp (maxDischargeDepth := 12) [State.Kept, hk, apply_ite Prod.fst]; done) | (simp (maxDischargeDepth := 12) +contextual [State.Kept, hk, apply_ite Prod.fst]; done) | split | (dsimp only; split)

@[simp] theorem gptCapture_kept (n : Nat) (c : Word) (s : State)
    (hk : s.Kept Q) : (gptCapture n c s).Kept Q := by
  unfold gptCapture; repeat' first | (simp (maxDischargeDepth := 12) [State.Kept, hk, apply_ite Prod.fst]; done) | (simp (maxDischargeDepth := 12) +contextual [State.Kept, hk, apply_ite Prod.fst]; done) | split | (dsimp only; split)

@[simp] theorem gptWrap_kept (n : Nat) (s : State) (hk : s.Kept Q) : (gptWrap n s).Kept Q := by
  unfold gptWrap; repeat' first | (simp (maxDischargeDepth := 12) [State.Kept, hk, apply_ite Prod.fst]; done) | split | (dsimp only; split)

@[simp] theorem countEdge_kept (n : Nat) (s : State) (hk : s.Kept Q) : (countEdge n s).Kept Q := by
  unfold countEdge; repeat' first | (simp (maxDischargeDepth := 12) [State.Kept, hk, apply_ite Prod.fst]; done) | split | (dsimp only; split)

@[simp] theorem chainCount_kept (sel : Bool) (n : Nat) (s : State)
    (hk : s.Kept Q) : (chainCount sel n s).Kept Q := by
  unfold chainCount; simp (maxDischargeDepth := 12) [State.Kept, hk]

@[simp] theorem pinCount_kept (rising : Bool) (n : Nat) (s : State) (hk : s.Kept Q) : (pinCount rising n s).Kept Q := by
  unfold pinCount; repeat' first | (simp (maxDischargeDepth := 12) [State.Kept, hk, apply_ite Prod.fst]; done) | split | (dsimp only; split)

@[simp] theorem chainTick_kept (sel : Bool) (s : State) (hk : s.Kept Q) : (chainTick sel s).Kept Q := by
  unfold chainTick; repeat' first | (simp (maxDischargeDepth := 12) [State.Kept, hk, apply_ite Prod.fst]; done) | (simp (maxDischargeDepth := 12) +contextual [State.Kept, hk, apply_ite Prod.fst]; done) | split | (dsimp only; split)

@[simp] theorem freeCount_kept (n : Nat) (s : State) (hk : s.Kept Q) : (freeCount n s).Kept Q := by
  unfold freeCount; repeat' first | (simp (maxDischargeDepth := 12) [State.Kept, hk, apply_ite Prod.fst]; done) | split | (dsimp only; split)

@[simp] theorem stopCount_kept (n : Nat) (s : State) (hk : s.Kept Q) : (stopCount n s).Kept Q := by
  unfold stopCount; simp [State.Kept, hk]

@[simp] theorem freezeTimers_kept (k : Nat) (s : State) (hk : s.Kept Q) : (freezeTimers k s).Kept Q := by
  unfold freezeTimers; repeat' first | (simp (maxDischargeDepth := 12) [State.Kept, hk, apply_ite Prod.fst]; done) | (simp (maxDischargeDepth := 12) +contextual [State.Kept, hk, apply_ite Prod.fst]; done) | split | (dsimp only; split)

@[simp] theorem audUnlock_kept (s : State) (hk : s.Kept Q) : (audUnlock s).Kept Q := by
  unfold audUnlock; repeat' first | (simp (maxDischargeDepth := 12) [State.Kept, hk, apply_ite Prod.fst]; done) | (simp (maxDischargeDepth := 12) +contextual [State.Kept, hk, apply_ite Prod.fst]; done) | split | (dsimp only; split)

@[simp] theorem silentFollow_kept (s : State) (hk : s.Kept Q) : (silentFollow s).Kept Q := by
  unfold silentFollow; repeat' first | (simp (maxDischargeDepth := 12) [State.Kept, hk, apply_ite Prod.fst]; done) | split | (dsimp only; split)

@[simp] theorem beatTick_kept (s : State) (hk : s.Kept Q) : (beatTick s).Kept Q := by
  unfold beatTick; simp [State.Kept, hk]

@[simp] theorem modPort_kept (p : PortIdx) (f : LanePort → LanePort) (s : State)
    (hk : s.Kept Q) : (modPort p f s).Kept Q := by
  unfold modPort; simp [State.Kept, hk]

@[simp] theorem retime_kept (s : State) (hk : s.Kept Q) : (retime s).Kept Q := by
  unfold retime; repeat' first | (simp (maxDischargeDepth := 12) [State.Kept, hk, apply_ite Prod.fst]; done) | split | (dsimp only; split)

@[simp] theorem portSilent_kept (p : PortIdx) (s : State) (hk : s.Kept Q) : (portSilent p s).Kept Q := by
  unfold portSilent; repeat' first | (simp (maxDischargeDepth := 12) [State.Kept, hk, apply_ite Prod.fst]; done) | split | (dsimp only; split)

@[simp] theorem moveTo_kept (p : PortIdx) (st : PortState) (s : State)
    (hk : s.Kept Q) : (moveTo p st s).Kept Q := by
  unfold moveTo; repeat' first | (simp (maxDischargeDepth := 12) [State.Kept, hk]; done) | split

@[simp] theorem portDefect_kept (p : PortIdx) (cause : BitVec 3) (f : LanePort → LanePort) (s : State) (hk : s.Kept Q) : (portDefect p cause f s).Kept Q := by
  unfold portDefect; repeat' first | (simp (maxDischargeDepth := 12) [State.Kept, hk, apply_ite Prod.fst]; done) | split | (dsimp only; split)

@[simp] theorem forceWrap_kept (p : PortIdx) (on : Bool) (s : State)
    (hk : s.Kept Q) : (forceWrap p on s).Kept Q := by
  unfold forceWrap; simp [State.Kept, hk]

@[simp] theorem wakeLane_kept (n : Nat) (s : State) (hk : s.Kept Q) : (wakeLane n s).Kept Q := by
  unfold wakeLane; simp [State.Kept, hk]

@[simp] theorem stopLane_kept (n : Nat) (s : State) (hk : s.Kept Q) : (stopLane n s).Kept Q := by
  unfold stopLane; split <;> simp [State.Kept, hk]

@[simp] theorem stopTap_kept (n : Nat) (s : State) (hk : s.Kept Q) : (stopTap n s).Kept Q := by
  unfold stopTap; repeat' first | (simp (maxDischargeDepth := 12) [State.Kept, hk, apply_ite Prod.fst]; done) | split | (dsimp only; split)

@[simp] theorem modK_kept (k : Nat) (f : Kestrel → Kestrel) (s : State)
    (hk : s.Kept Q) : (modK k f s).Kept Q := by
  unfold modK; simp [State.Kept, hk]

@[simp] theorem debugHalt_kept (k : Nat) (cause : BitVec 3) (s : State)
    (hk : s.Kept Q) : (debugHalt k cause s).Kept Q := by
  unfold debugHalt; simp (maxDischargeDepth := 12) [State.Kept, hk]

@[simp] theorem doubleFault_kept (k : Nat) (s : State) (hk : s.Kept Q) : (doubleFault k s).Kept Q := by
  unfold doubleFault; simp [State.Kept, hk]

@[simp] theorem afterInstr_kept (k : Nat) (s : State) (h : s.Kept Q) : (afterInstr k s).Kept Q := by
  have hp : ∀ b f, (when b (modK k f) s).Kept Q := fun b f => when_kept _ _ _ h fun s h => modK_kept _ _ _ h
  unfold afterInstr
  dsimp only
  repeat' first | (simp [h, hp]; done) | split

@[simp] theorem haltRequest_kept (k : Nat) (s : State) (hk : s.Kept Q) : (haltRequest k s).Kept Q := by
  unfold haltRequest; simp [State.Kept, hk]

@[simp] theorem kResume_kept (k : Nat) (s : State) (hk : s.Kept Q) : (kResume k s).Kept Q := by
  unfold kResume; simp [State.Kept, hk]

@[simp] theorem kStep_kept (k : Nat) (s : State) (hk : s.Kept Q) : (kStep k s).Kept Q := by
  unfold kStep; simp [State.Kept, hk]

@[simp] theorem kStart_kept (k : Nat) (s : State) (hk : s.Kept Q) : (kStart k s).Kept Q := by
  unfold kStart; simp [State.Kept, hk]

@[simp] theorem writeKctrl_kept (k : Nat) (v : Word) (s : State)
    (hk : s.Kept Q) : (writeKctrl k v s).Kept Q := by
  unfold writeKctrl; simp [State.Kept, hk]

@[simp] theorem parkAll_kept (s : State) (hk : s.Kept Q) : (parkAll s).Kept Q := by
  unfold parkAll; simp [State.Kept, hk]

@[simp] theorem unparkAll_kept (s : State) (hk : s.Kept Q) : (unparkAll s).Kept Q := by
  unfold unparkAll; simp [State.Kept, hk]

@[simp] theorem gateResult_kept (res : BitVec 4) (c : GateCmd) (r : Requester) (n : Fin 67) (s : State) (h : s.Kept Q) :
    (gateResult res c r n s).Kept Q := raise_kept _ _ (h.regate id)

@[simp] theorem gateCloses_kept (c : GateCmd) (n : Nat) (s : State) (hk : s.Kept Q) : (gateCloses c n s).Kept Q := by
  unfold gateCloses; repeat' first | (simp (maxDischargeDepth := 12) [State.Kept, hk, apply_ite Prod.fst]; done) | split | (dsimp only; split)

/-- A close or a switch begins on a domain other than PD0. -/
theorem setPd_run_aonOn (c : GateCmd) (r : Requester) (n : Fin 67) (x : PdState) (ph : BitVec 3) (g : Gate)
    (h : g.aonOn = true) (hn : n.val ≠ 0) :
    ({ setPd n x g with run := some (c, n, r), busy := true, phase := ph } : Gate).aonOn = true := by
  have h0 := setPd_zero n.val x g
  rw [if_neg hn] at h0
  simp only [Gate.aonOn, Bool.and_eq_true, beq_iff_eq] at h ⊢
  exact ⟨h0.trans h.1, by simpa using hn⟩

theorem startClose_kept (c : GateCmd) (r : Requester) (n : Fin 67) (s : State) (h : s.Kept Q) (hn : n.val ≠ 0) :
    (startClose c r n s).Kept Q := by
  have h1 := setPd_run_aonOn c r n .transit 3 s.gate h.2.2 hn
  unfold startClose
  extract_lets g s1
  have h2 : s1.Kept Q := ⟨h.1, h.2.1, h1⟩
  clear_value s1
  split
  · split
    · exact h2.regate fun hg => hg
    · exact beginVacate_kept _ _ h2
  · exact gateCloses_kept _ _ _ h2

@[simp] theorem gateOpens_kept (n : Nat) (s : State) (hk : s.Kept Q) : (gateOpens n s).Kept Q := by
  unfold gateOpens; simp [State.Kept, hk]

@[simp] theorem dropUpdater_kept (n : Nat) (s : State) (h : s.Kept Q) : (dropUpdater n s).Kept Q := h.regate fun hg => hg

@[simp] theorem assertReset_kept (n : Nat) (s : State) (hk : s.Kept Q) : (assertReset n s).Kept Q := by
  unfold assertReset; simp [State.Kept, hk]

theorem startSwitch_kept (c : GateCmd) (r : Requester) (n : Fin 67) (ph : BitVec 3) (s : State) (h : s.Kept Q)
    (hn : n.val ≠ 0) : (startSwitch c r n ph s).Kept Q :=
  h.regate fun hg => setPd_run_aonOn c r n .transit ph s.gate hg hn

theorem gateAct_kept (c : GateCmd) (r : Requester) (n : Fin 67) (s : State) (h : s.Kept Q) (hn : n.val ≠ 0) :
    (gateAct c r n s).Kept Q := by
  have hd := dropUpdater_kept n.val s h
  unfold gateAct
  generalize pdState s n = p
  cases p <;> cases c <;> dsimp only <;> with_reducible first
    | exact h
    | exact startClose_kept _ _ _ _ h hn
    | exact startSwitch_kept _ _ _ _ _ h hn
    | exact gateResult_kept _ _ _ _ _ h
    | exact startSwitch_kept _ _ _ _ _ hd hn
    | exact startSwitch_kept _ _ _ _ _ (assertReset_kept _ _ hd) hn
    | exact gateResult_kept _ _ _ _ _ (gateOpens_kept _ _ (hd.regate fun hg => setPd_aonOn _ _ _ hg (.inl hn)))

@[simp] theorem entryLast_kept (s : State) (hk : s.Kept Q) : (entryLast s).Kept Q := by
  unfold entryLast; repeat' first | (simp (maxDischargeDepth := 12) [State.Kept, hk, apply_ite Prod.fst]; done) | split | (dsimp only; split)

/-- No mode entry switches PD0 (R90). -/
theorem entryTodo_ne_zero (s : State) (c : GateCmd × Fin 67) (hc : c ∈ entryTodo s) : c.2.val ≠ 0 := by
  intro h0
  have h1 : modeDomain 0 = false := by decide
  unfold entryTodo at hc
  obtain ⟨c, n⟩ := c
  simp only at h0
  repeat' split at hc
  all_goals simp_all

@[simp] theorem entryGoes_kept (s : State) (h : s.Kept Q) : (entryGoes s).Kept Q := by
  unfold entryGoes
  split
  · extract_lets t
    have ht : t.Kept Q := by
      refine foldl_kept_mem _ _ _ h fun s c hc h => ?_
      split
      · exact h
      · exact gateAct_kept _ _ _ _ h (entryTodo_ne_zero _ c hc)
    clear_value t
    split <;> simp [ht]
  · exact h

@[simp] theorem gateFinish_kept (st : PdState) (s : State) (h : s.Kept Q) : (gateFinish st s).Kept Q := by
  unfold gateFinish
  split
  · rename_i c n r hr
    refine entryGoes_kept _ (gateResult_kept _ _ _ _ _ (h.regate fun hg => ?_))
    have hn : n.val ≠ 0 := by
      have := hg
      simp only [Gate.aonOn, hr, Bool.and_eq_true, bne_iff_ne] at this
      exact this.2.1
    have h0 := setPd_zero n.val st s.gate
    rw [if_neg hn] at h0
    simp only [Gate.aonOn, Bool.and_eq_true, beq_iff_eq] at hg ⊢
    exact ⟨h0.trans hg.1, rfl⟩
  · exact h

@[simp] theorem userBlockEffect_kept (s : State) (hk : s.Kept Q) : (userBlockEffect s).Kept Q := by
  unfold userBlockEffect; split <;> simp [State.Kept, hk]

@[simp] theorem capturePart_kept (s : State) (hk : s.Kept Q) : (capturePart s).Kept Q := by
  unfold capturePart; simp [State.Kept, hk]

@[simp] theorem tearSlot_kept (s : State) (hk : s.Kept Q) : (tearSlot s).Kept Q := by
  unfold tearSlot; simp [State.Kept, hk]

@[simp] theorem restoreUser_kept (k : Nat) (s : State) (hk : s.Kept Q) : (restoreUser k s).Kept Q := by
  unfold restoreUser; repeat' first | (simp (maxDischargeDepth := 12) [State.Kept, hk, apply_ite Prod.fst]; done) | (simp (maxDischargeDepth := 12) +contextual [State.Kept, hk, apply_ite Prod.fst]; done) | split | (dsimp only; split)

@[simp] theorem restoreRegs_kept (k : Nat) (s : State) (hk : s.Kept Q) : (restoreRegs k s).Kept Q := by
  unfold restoreRegs; simp [State.Kept, hk]

@[simp] theorem restorePolicy_kept (k : Nat) (s : State) (hk : s.Kept Q) : (restorePolicy k s).Kept Q := by
  unfold restorePolicy; simp (maxDischargeDepth := 12) [State.Kept, hk]

@[simp] theorem roostCheck_kept (s : State) (hk : s.Kept Q) : (roostCheck s).Kept Q := by
  unfold roostCheck; repeat' first | (simp (maxDischargeDepth := 12) [State.Kept, hk, apply_ite Prod.fst]; done) | (simp (maxDischargeDepth := 12) +contextual [State.Kept, hk, apply_ite Prod.fst]; done) | split | (dsimp only; split)

@[simp] theorem endLook_kept (s : State) (hk : s.Kept Q) : (endLook s).Kept Q := by
  unfold endLook; simp [State.Kept, hk]

@[simp] theorem setResult_kept (r : BitVec 2) (s : State) (h : s.Kept Q) : (setResult r s).Kept Q :=
  when_kept _ _ _ h fun s h => raise_kept _ _ h

@[simp] theorem startCount_kept (s : State) (hk : s.Kept Q) : (startCount s).Kept Q := by
  unfold startCount; simp [State.Kept, hk]

@[simp] theorem takeRole_kept (src : ModeSrc) (s : State) (hk : s.Kept Q) : (takeRole src s).Kept Q := by
  unfold takeRole; repeat' first | (simp (maxDischargeDepth := 12) [State.Kept, hk, apply_ite Prod.fst]; done) | (simp (maxDischargeDepth := 12) +contextual [State.Kept, hk, apply_ite Prod.fst]; done) | split | (dsimp only; split)

@[simp] theorem hoodMode_kept (s : State) (hk : s.Kept Q) : (hoodMode s).Kept Q := by
  unfold hoodMode; simp [State.Kept, hk]

@[simp] theorem quiet_kept (s : State) (hk : s.Kept Q) : (quiet s).Kept Q := by
  unfold quiet; simp [State.Kept, hk]

@[simp] theorem entryActions_kept (f m : Mode) (src : ModeSrc) (s : State)
    (hk : s.Kept Q) : (entryActions f m src s).Kept Q := by
  unfold entryActions; split <;> simp (maxDischargeDepth := 12) [State.Kept, hk]

@[simp] theorem enterMode_kept (m : Mode) (src : ModeSrc) (s : State) (h : s.Kept Q) : (enterMode m src s).Kept Q :=
  entryGoes_kept _ (redecideRef_kept _ (entryActions_kept _ _ _ _ h))

@[simp] theorem takeTrigger_kept (t : Trigger) (s : State) (hk : s.Kept Q) : (takeTrigger t s).Kept Q := by
  unfold takeTrigger; repeat' first | (simp (maxDischargeDepth := 12) [State.Kept, hk, apply_ite Prod.fst]; done) | split | (dsimp only; split)

@[simp] theorem trigger_kept (t : Trigger) (s : State) (hk : s.Kept Q) : (trigger t s).Kept Q := by
  unfold trigger; repeat' first | (simp (maxDischargeDepth := 12) [State.Kept, hk, apply_ite Prod.fst]; done) | split | (dsimp only; split)

@[simp] theorem heldTriggers_kept (s : State) (hk : s.Kept Q) : (heldTriggers s).Kept Q := by
  unfold heldTriggers; repeat' first | (simp (maxDischargeDepth := 12) [State.Kept, hk, apply_ite Prod.fst]; done) | split | (dsimp only; split)

@[simp] theorem transitionDone_kept (s : State) (hk : s.Kept Q) : (transitionDone s).Kept Q := by
  unfold transitionDone; simp (maxDischargeDepth := 12) [State.Kept, hk]

@[simp] theorem enterRoost_kept (req : Bool) (src : ModeSrc) (s : State)
    (hk : s.Kept Q) : (enterRoost req src s).Kept Q := by
  unfold enterRoost; repeat' first | (simp (maxDischargeDepth := 12) [State.Kept, hk, apply_ite Prod.fst]; done) | (simp (maxDischargeDepth := 12) +contextual [State.Kept, hk, apply_ite Prod.fst]; done) | split | (dsimp only; split)

@[simp] theorem hostRequest_kept (c : Mode) (s : State) (hk : s.Kept Q) : (hostRequest c s).Kept Q := by
  unfold hostRequest; repeat' first | (simp (maxDischargeDepth := 12) [State.Kept, hk, apply_ite Prod.fst]; done) | (simp (maxDischargeDepth := 12) +contextual [State.Kept, hk, apply_ite Prod.fst]; done) | split | (dsimp only; split)

@[simp] theorem mgmtRequest_kept (c : BitVec 3) (s : State) (hk : s.Kept Q) : (mgmtRequest c s).Kept Q := by
  unfold mgmtRequest; simp [State.Kept, hk]

@[simp] theorem evalRequest_kept (c : Mode) (src : ModeSrc) (s : State)
    (hk : s.Kept Q) : (evalRequest c src s).Kept Q := by
  unfold evalRequest; simp [State.Kept, hk]

@[simp] theorem evalPending_kept (s : State) (hk : s.Kept Q) : (evalPending s).Kept Q := by
  unfold evalPending; repeat' first | (simp (maxDischargeDepth := 12) [State.Kept, hk, apply_ite Prod.fst]; done) | (simp (maxDischargeDepth := 12) +contextual [State.Kept, hk, apply_ite Prod.fst]; done) | split | (dsimp only; split)

@[simp] theorem ringTriggers_kept (s : State) (hk : s.Kept Q) : (ringTriggers s).Kept Q := by
  unfold ringTriggers; simp [State.Kept, hk]

@[simp] theorem candidateTrigger_kept (s : State) (hk : s.Kept Q) : (candidateTrigger s).Kept Q := by
  unfold candidateTrigger; simp [State.Kept, hk]

@[simp] theorem softReset_kept (keep : Bool) (s : State) (hk : s.Kept Q) : (softReset keep s).Kept Q := by
  unfold softReset; simp [State.Kept, hk]

@[simp] theorem owlReset_kept (s : State) (hk : s.Kept Q) : (owlReset s).Kept Q := by
  unfold owlReset; simp [State.Kept, hk]

@[simp] theorem wake_kept (s : State) (hk : s.Kept Q) : (wake s).Kept Q := by
  unfold wake; simp [State.Kept, hk]

@[simp] theorem toStep_kept (n : BitVec 4) (s : State) (hk : s.Kept Q) : (toStep n s).Kept Q := by
  unfold toStep; simp [State.Kept, hk]

@[simp] theorem fuseDomains_kept (s : State) (h : s.Kept Q) : (fuseDomains s).Kept Q := by
  unfold fuseDomains
  dsimp only
  split
  · exact powerUpAll_kept _ _ h
  · refine h.regate fun hg => ?_
    simp only [Gate.aonOn, mapPd, Vector.getElem_mapIdx] at hg ⊢
    simpa using hg

@[simp] theorem startLanes_kept (s : State) (hk : s.Kept Q) : (startLanes s).Kept Q := by
  unfold startLanes; repeat' first | (simp (maxDischargeDepth := 12) [State.Kept, hk, apply_ite Prod.fst]; done) | (simp (maxDischargeDepth := 12) +contextual [State.Kept, hk, apply_ite Prod.fst]; done) | split | (dsimp only; split)

@[simp] theorem startWirescan_kept (s : State) (hk : s.Kept Q) : (startWirescan s).Kept Q := by
  unfold startWirescan; simp [State.Kept, hk]

@[simp] theorem leaveBoot_kept (s : State) (hk : s.Kept Q) : (leaveBoot s).Kept Q := by
  unfold leaveBoot; simp [State.Kept, hk]

@[simp] theorem queueCommand_kept (c : CellBytes) (s : State) (hk : s.Kept Q) : (queueCommand c s).Kept Q := by
  unfold queueCommand; simp [State.Kept, hk]

@[simp] theorem mewsWrite_kept (a : Nat) (d : Quad) (s : State) (hk : s.Kept Q) : (mewsWrite a d s).Kept Q := by
  unfold mewsWrite; split <;> simp [State.Kept, hk]

@[simp] theorem mewsWrites_kept (a : Nat) (l : List Quad) (s : State) (h : s.Kept Q) : (mewsWrites a l s).Kept Q := by
  induction l generalizing a s with
  | nil => exact h
  | cons d ds ih => unfold mewsWrites; exact ih _ _ (by repeat' first | (simp [h]; done) | split)

@[simp] theorem bulkChunk_kept (c : CellBytes) (s : State) (hk : s.Kept Q) : (bulkChunk c s).Kept Q := by
  unfold bulkChunk; simp [State.Kept, hk]

@[simp] theorem checkEnd_kept (s : State) (hk : s.Kept Q) : (checkEnd s).Kept Q := by
  unfold checkEnd; simp [State.Kept, hk]

@[simp] theorem tailWrites_kept (src : BitVec 4) (a : Nat) (l : List Byte) (s : State) (h : s.Kept Q) :
    (tailWrites src a l s).Kept Q := by
  induction l generalizing a s with
  | nil => exact h
  | cons d ds ih => unfold tailWrites; exact ih _ _ (by repeat' first | (simp [h]; done) | split)

@[simp] theorem copyBytes_kept (a : Nat) (bs : List Byte) (s : State)
    (hk : s.Kept Q) : (copyBytes a bs s).Kept Q := by
  unfold copyBytes; simp [State.Kept, hk]

@[simp] theorem loadCue_kept (k : Nat) (b : List Byte) (s : State)
    (hk : s.Kept Q) : (loadCue k b s).Kept Q := by
  unfold loadCue; simp (maxDischargeDepth := 12) [State.Kept, hk]

@[simp] theorem loadCurve_kept (c : Nat) (b : List Byte) (s : State)
    (hk : s.Kept Q) : (loadCurve c b s).Kept Q := by
  unfold loadCurve; simp [State.Kept, hk]

@[simp] theorem copySection_kept (base : Nat) (x : Section) (s : State) (h : s.Kept Q) :
    (copySection base x s).1.Kept Q := by
  unfold copySection
  dsimp only
  repeat' first | (simp [h]; done) | split

@[simp] theorem copySections_kept (base : Nat) (l : List Section) (s : State) (h : s.Kept Q) :
    (copySections base l s).1.Kept Q := by
  induction l generalizing s with
  | nil => exact h
  | cons x xs ih =>
    have hx := copySection_kept base x s h
    unfold copySections
    split <;> simp_all

@[simp] theorem activateFinish_kept (flags : Nat) (xs : List Section) (s : State)
    (hk : s.Kept Q) : (activateFinish flags xs s).Kept Q := by
  unfold activateFinish; repeat' first | (simp (maxDischargeDepth := 12) [State.Kept, hk, apply_ite Prod.fst]; done) | (simp (maxDischargeDepth := 12) +contextual [State.Kept, hk, apply_ite Prod.fst]; done) | split | (dsimp only; split)

@[simp] theorem activateEnd_kept (s : State) (h : s.Kept Q) : (activateEnd s).Kept Q := by
  have hc (base : Nat) (l : List Section) := copySections_kept base l s h
  have hf (base : Nat) (l : List Section) := copySections_kept base l _ (setFree_kept (s.free + 1) _ h)
  unfold activateEnd
  dsimp only
  split
  · exact hf _ _
  · split
    all_goals
      rename_i ht
      have h1 := congrArg (fun r => State.Kept Q r.1) ht
      have h2 := h1.mp (hc _ _)
      first | exact h2 | exact activateFinish_kept _ _ _ h2

@[simp] theorem contentOp_kept (sub : Nat) (cid : Word) (len : Nat) (s : State)
    (hk : s.Kept Q) : (contentOp sub cid len s).1.Kept Q := by
  unfold contentOp; repeat' first | (simp (maxDischargeDepth := 12) [State.Kept, hk, apply_ite Prod.fst]; done) | (simp (maxDischargeDepth := 12) +contextual [State.Kept, hk, apply_ite Prod.fst]; done) | split | (dsimp only; split)

@[simp] theorem writeCcmd_kept (v : Nat) (s : State) (hk : s.Kept Q) : (writeCcmd v s).Kept Q := by
  unfold writeCcmd; simp [State.Kept, hk]

@[simp] theorem endTurn_kept (p : PortIdx) (s : State) (hk : s.Kept Q) : (endTurn p s).Kept Q := by
  unfold endTurn; repeat' first | (simp (maxDischargeDepth := 12) [State.Kept, hk, apply_ite Prod.fst]; done) | split | (dsimp only; split)

@[simp] theorem hopFrame_kept (h : Header) (f : FrameRx) (s : State)
    (hk : s.Kept Q) : (hopFrame h f s).Kept Q := by
  unfold hopFrame; simp [State.Kept, hk]

@[simp] theorem tapFrame_kept (f : FrameRx) (s : State) (hk : s.Kept Q) : (tapFrame f s).Kept Q := by
  unfold tapFrame; repeat' first | (simp (maxDischargeDepth := 12) [State.Kept, hk, apply_ite Prod.fst]; done) | split | (dsimp only; split)

@[simp] theorem runServo_kept (f : FrameRx) (h : Header) (acc : Option (BitVec 24)) (follows : Bool) (s : State)
    (hk : s.Kept Q) : (runServo f h acc follows s).Kept Q := by
  unfold runServo; split <;> simp [State.Kept, hk]

@[simp] theorem takePosition_kept (p : BitVec 10) (late : Bool) (s : State)
    (hk : s.Kept Q) : (takePosition p late s).Kept Q := by
  unfold takePosition; simp [State.Kept, hk]

@[simp] theorem releasePosition_kept (s : State) (hk : s.Kept Q) : (releasePosition s).Kept Q := by
  unfold releasePosition; simp [State.Kept, hk]

@[simp] theorem remusterCmd_kept (h : Header) (s : State) (hk : s.Kept Q) : (remusterCmd h s).Kept Q := by
  unfold remusterCmd; simp [State.Kept, hk]

@[simp] theorem adoptEpoch_kept (h : Header) (s : State) (hk : s.Kept Q) : (adoptEpoch h s).Kept Q := by
  unfold adoptEpoch; simp [State.Kept, hk]

@[simp] theorem countFrame_kept (f : FrameRx) (h : Header) (acc : Option (BitVec 24)) (s : State)
    (hk : s.Kept Q) : (countFrame f h acc s).Kept Q := by
  unfold countFrame; split <;> simp [State.Kept, hk]

@[simp] theorem endCmd_kept (h : Header) (s : State) (hk : s.Kept Q) : (endCmd h s).Kept Q := by
  unfold endCmd; simp [State.Kept, hk]

@[simp] theorem adoptHead_kept (uid : BitVec 48) (s : State) (hk : s.Kept Q) : (adoptHead uid s).1.Kept Q := by
  unfold adoptHead; repeat' first | (simp [State.Kept, hk]; done) | split

@[simp] theorem framesReturn_kept (s : State) (hk : s.Kept Q) : (framesReturn s).Kept Q := by
  unfold framesReturn; simp [State.Kept, hk]

@[simp] theorem validFrame_kept (f : FrameRx) (h : Header) (s : State) (hk : s.Kept Q) : (validFrame f h s).Kept Q := by
  unfold validFrame
  extract_lets i acc prev was s1 c c1 c2 s2 s3
  have h2 : s2.Kept Q := setChn_kept _ _ (framesReturn_kept _ hk)
  have h3 : s3.Kept Q := by unfold s3; clear_value s2; split <;> simp [h2]
  exact ringTriggers_kept _ (redecideRef_kept _ (endCmd_kept _ _ (countFrame_kept _ _ _ _ (adoptEpoch_kept _ _
    (remusterCmd_kept _ _ h3)))))

@[simp] theorem spoilFrame_kept (f : FrameRx) (s : State) (hk : s.Kept Q) : (spoilFrame f s).Kept Q := by
  unfold spoilFrame; repeat' first | (simp (maxDischargeDepth := 12) [State.Kept, hk, apply_ite Prod.fst]; done) | split | (dsimp only; split)

@[simp] theorem frameMissing_kept (s : State) (hk : s.Kept Q) : (frameMissing s).Kept Q := by
  unfold frameMissing; simp [State.Kept, hk]

@[simp] theorem recordCell_kept (c : CellRx) (s : State) (hk : s.Kept Q) : (recordCell c s).Kept Q := by
  unfold recordCell; simp [State.Kept, hk]

@[simp] theorem streamCell_kept (key : CellKey) (c : CellBytes) (s : State)
    (hk : s.Kept Q) : (streamCell key c s).Kept Q := by
  unfold streamCell; repeat' first | (simp (maxDischargeDepth := 12) [State.Kept, hk, apply_ite Prod.fst]; done) | (simp (maxDischargeDepth := 12) +contextual [State.Kept, hk, apply_ite Prod.fst]; done) | split | (dsimp only; split)

@[simp] theorem strikeCell_kept (c : CellBytes) (s : State) (hk : s.Kept Q) : (strikeCell c s).Kept Q := by
  unfold strikeCell; repeat' first | (simp (maxDischargeDepth := 12) [State.Kept, hk, apply_ite Prod.fst]; done) | (simp (maxDischargeDepth := 12) +contextual [State.Kept, hk, apply_ite Prod.fst]; done) | split | (dsimp only; split)

@[simp] theorem paramCell_kept (c : CellBytes) (s : State) (hk : s.Kept Q) : (paramCell c s).Kept Q := by
  unfold paramCell; simp [State.Kept, hk]

@[simp] theorem rangeCell_kept (c : CellBytes) (s : State) (hk : s.Kept Q) : (rangeCell c s).Kept Q := by
  unfold rangeCell; simp [State.Kept, hk]

@[simp] theorem claimCell_kept (c : CellBytes) (s : State) (hk : s.Kept Q) : (claimCell c s).Kept Q := by
  unfold claimCell; simp [State.Kept, hk]

@[simp] theorem consumeCell_kept (key : CellKey) (c : CellBytes) (s : State)
    (hk : s.Kept Q) : (consumeCell key c s).Kept Q := by
  unfold consumeCell; split <;> simp [State.Kept, hk]

@[simp] theorem deliverCell_kept (c : CellRx) (s : State) (hk : s.Kept Q) : (deliverCell c s).Kept Q := by
  unfold deliverCell; simp [State.Kept, hk]

@[simp] theorem tapCell_kept (want : Nat) (c : CellRx) (s : State)
    (hk : s.Kept Q) : (tapCell want c s).Kept Q := by
  unfold tapCell; simp [State.Kept, hk]

@[simp] theorem loseElection_kept (uid : BitVec 48) (s : State)
    (hk : s.Kept Q) : (loseElection uid s).Kept Q := by
  unfold loseElection; repeat' first | (simp (maxDischargeDepth := 12) [State.Kept, hk, apply_ite Prod.fst]; done) | (simp (maxDischargeDepth := 12) +contextual [State.Kept, hk, apply_ite Prod.fst]; done) | split | (dsimp only; split)

@[simp] theorem remuster_kept (s : State) (hk : s.Kept Q) : (remuster s).Kept Q := by
  unfold remuster; repeat' first | (simp [State.Kept, hk]; done) | split

@[simp] theorem measureLoop_kept (f : FrameRx) (h : Header) (a : BitVec 24) (s : State) (hk : s.Kept Q) :
    (measureLoop f h a s).Kept Q := by
  unfold measureLoop
  dsimp only
  split
  · exact hk
  · split <;> exact setHead_kept _ _ hk

@[simp] theorem countEnd_kept (s : State) (hk : s.Kept Q) : (countEnd s).Kept Q := by
  unfold countEnd; simp [State.Kept, hk]

@[simp] theorem countReturn_kept (h : Header) (a : Option (BitVec 24)) (s : State)
    (hk : s.Kept Q) : (countReturn h a s).Kept Q := by
  unfold countReturn; repeat' first | (simp [State.Kept, hk]; done) | split

@[simp] theorem probeFound_kept (uid : BitVec 48) (s : State) (hk : s.Kept Q) : (probeFound uid s).Kept Q := by
  unfold probeFound; split <;> simp [State.Kept, hk]

@[simp] theorem probeReturn_kept (h : Header) (a : Option (BitVec 24)) (s : State)
    (hk : s.Kept Q) : (probeReturn h a s).Kept Q := by
  unfold probeReturn; split <;> simp [State.Kept, hk]

@[simp] theorem ownPair_kept (h : Header) (s : State) (hk : s.Kept Q) : (ownPair h s).Kept Q := by
  unfold ownPair; simp [State.Kept, hk]

@[simp] theorem ownReturn_kept (f : FrameRx) (h : Header) (s : State)
    (hk : s.Kept Q) : (ownReturn f h s).Kept Q := by
  unfold ownReturn; repeat' first | (simp (maxDischargeDepth := 12) [State.Kept, hk, apply_ite Prod.fst]; done) | (simp (maxDischargeDepth := 12) +contextual [State.Kept, hk, apply_ite Prod.fst]; done) | split | (dsimp only; split)

@[simp] theorem headFrame_kept (f : FrameRx) (h : Header) (s : State)
    (hk : s.Kept Q) : (headFrame f h s).Kept Q := by
  unfold headFrame; simp [State.Kept, hk]

@[simp] theorem frameAtChn_kept (f : FrameRx) (h : Header) (s : State)
    (hk : s.Kept Q) : (frameAtChn f h s).Kept Q := by
  unfold frameAtChn; simp [State.Kept, hk]

@[simp] theorem ownDelivery_kept (cells : List (List Byte × Bool × Nat)) (s : State)
    (hk : s.Kept Q) : (ownDelivery cells s).Kept Q := by
  unfold ownDelivery; repeat' first | (simp (maxDischargeDepth := 12) [State.Kept, hk, apply_ite Prod.fst]; done) | (simp (maxDischargeDepth := 12) +contextual [State.Kept, hk, apply_ite Prod.fst]; done) | split | (dsimp only; split)

@[simp] theorem launchFrame_kept (s : State) (hk : s.Kept Q) : (launchFrame s).Kept Q := by
  unfold launchFrame; simp [State.Kept, hk]

@[simp] theorem writeHead_kept (v : Word) (s : State) (hk : s.Kept Q) : (writeHead v s).Kept Q := by
  unfold writeHead; simp [State.Kept, hk]

@[simp] theorem writeCtset_kept (hi : Byte) (go : Bool) (s : State)
    (hk : s.Kept Q) : (writeCtset hi go s).Kept Q := by
  unfold writeCtset; simp [State.Kept, hk]

@[simp] theorem genlockCompare_kept (t : Quad) (s : State) (h : s.Kept Q) : (genlockCompare t s).Kept Q :=
  setHead_kept _ _ (setFree_kept _ _ h)

@[simp] theorem genlockEdge_kept (t : Quad) (s : State) (hk : s.Kept Q) : (genlockEdge t s).Kept Q := by
  unfold genlockEdge; simp [State.Kept, hk]

@[simp] theorem uplinkPass_kept (u : Nat) (c : CellBytes) (s : State)
    (hk : s.Kept Q) : (uplinkPass u c s).Kept Q := by
  unfold uplinkPass; simp [State.Kept, hk]

@[simp] theorem modDmx_kept (p : Fin 2) (f : DmxPort → DmxPort) (s : State)
    (hk : s.Kept Q) : (modDmx p f s).Kept Q := by
  unfold modDmx; simp [State.Kept, hk]

@[simp] theorem dmxLevels_kept (p : Fin 2) (slots : List Byte) (s : State) (h : s.Kept Q) :
    (dmxLevels p slots s).Kept Q := by
  unfold dmxLevels
  dsimp only
  split
  · exact h
  · refine setMrg_kept _ _ (foldl_kept _ _ _ h fun s k h => ?_)
    repeat' first | (simp [h]; done) | split

@[simp] theorem dmxPacket_kept (p : Fin 2) (bytes : List Byte) (framingError : Bool) (s : State)
    (hk : s.Kept Q) : (dmxPacket p bytes framingError s).Kept Q := by
  unfold dmxPacket; repeat' first | (simp (maxDischargeDepth := 12) [State.Kept, hk, apply_ite Prod.fst]; done) | (simp (maxDischargeDepth := 12) +contextual [State.Kept, hk, apply_ite Prod.fst]; done) | split | (dsimp only; split)

@[simp] theorem dmxTrigger_kept (f : Nat) (p : Fin 2) (s : State)
    (hk : s.Kept Q) : (dmxTrigger f p s).Kept Q := by
  unfold dmxTrigger; simp [State.Kept, hk]

@[simp] theorem dmxFrame_kept (s : State) (hk : s.Kept Q) : (dmxFrame s).Kept Q := by
  unfold dmxFrame; simp [State.Kept, hk]

@[simp] theorem answer_kept (q : RdmReq) (a : RdmAnswer) (s : State)
    (hk : s.Kept Q) : (answer q a s).Kept Q := by
  unfold answer; simp [State.Kept, hk]

@[simp] theorem storeLabel_kept (label : List Byte) (s : State)
    (hk : s.Kept Q) : (storeLabel label s).Kept Q := by
  unfold storeLabel; simp [State.Kept, hk]

@[simp] theorem answerReads_kept (s : State) (hk : s.Kept Q) : (answerReads s).Kept Q := by
  unfold answerReads; repeat' first | (simp (maxDischargeDepth := 12) [State.Kept, hk, apply_ite Prod.fst]; done) | (simp (maxDischargeDepth := 12) +contextual [State.Kept, hk, apply_ite Prod.fst]; done) | split | (dsimp only; split)

@[simp] theorem renderVoices_kept (s : State) (h : s.Kept Q) : (renderVoices s).Kept Q := by
  unfold renderVoices
  refine foldl_kept _ _ _ (setVox_kept _ _ h) fun s i h => ?_
  split <;> simp [h]

@[simp] theorem closeTick_kept (s : State) (h : s.Kept Q) : (closeTick s).Kept Q :=
  setVox_kept _ _ (present_kept _ _ (renderVoices_kept _ (answerReads_kept _ (completeAll_kept _ h))))

@[simp] theorem reachTick_kept (b : Nat) (s : State) (h : s.Kept Q) : (reachTick b s).Kept Q := setChn_kept _ _ h

@[simp] theorem beginVoices_kept (b : Nat) (s : State) (hk : s.Kept Q) : (beginVoices b s).Kept Q := by
  unfold beginVoices; simp [State.Kept, hk]

@[simp] theorem openTick_kept (b : Nat) (s : State) (hk : s.Kept Q) : (openTick b s).Kept Q := by
  unfold openTick; repeat' first | (simp (maxDischargeDepth := 12) [State.Kept, hk, apply_ite Prod.fst]; done) | (simp (maxDischargeDepth := 12) +contextual [State.Kept, hk, apply_ite Prod.fst]; done) | split | (dsimp only; split)

@[simp] theorem tickOthers_kept (b : Nat) (s : State) (hk : s.Kept Q) : (tickOthers b s).Kept Q := by
  unfold tickOthers; repeat' first | (simp (maxDischargeDepth := 12) [State.Kept, hk, apply_ite Prod.fst]; done) | (simp (maxDischargeDepth := 12) +contextual [State.Kept, hk, apply_ite Prod.fst]; done) | split | (dsimp only; split)

@[simp] theorem endTick_kept (s : State) (hk : s.Kept Q) : (endTick s).Kept Q := by
  unfold endTick; repeat' first | (simp (maxDischargeDepth := 12) [State.Kept, hk, apply_ite Prod.fst]; done) | split | (dsimp only; split)

@[simp] theorem beginTick_kept (b : Nat) (s : State) (hk : s.Kept Q) : (beginTick b s).Kept Q := by
  unfold beginTick; repeat' first | (simp (maxDischargeDepth := 12) [State.Kept, hk, apply_ite Prod.fst]; done) | split | (dsimp only; split)

@[simp] theorem tickBoundary_kept (s : State) (hk : s.Kept Q) : (tickBoundary s).Kept Q := by
  unfold tickBoundary; simp (maxDischargeDepth := 12) [State.Kept, hk]

@[simp] theorem reachFrame_kept (f : Nat) (s : State) (hk : s.Kept Q) : (reachFrame f s).Kept Q := by
  unfold reachFrame; simp [State.Kept, hk]

@[simp] theorem composeUplink_kept (s : State) (hk : s.Kept Q) : (composeUplink s).Kept Q := by
  unfold composeUplink; simp [State.Kept, hk]

@[simp] theorem liftHoods_kept (s : State) (hk : s.Kept Q) : (liftHoods s).Kept Q := by
  unfold liftHoods; simp [State.Kept, hk]

@[simp] theorem frameOutputs_kept (s : State) (hk : s.Kept Q) : (frameOutputs s).Kept Q := by
  unfold frameOutputs; simp (maxDischargeDepth := 12) [State.Kept, hk]

@[simp] theorem frameBoundary_kept (s : State) (hk : s.Kept Q) : (frameBoundary s).Kept Q := by
  unfold frameBoundary; simp (maxDischargeDepth := 12) [State.Kept, hk]

@[simp] theorem gateCommand_kept (r : Requester) (c : GateCmd) (pd : BitVec 7) (s : State) (h : s.Kept Q) :
    (gateCommand r c pd s).Kept Q := by
  unfold gateCommand
  extract_lets n
  split
  · exact h
  · split
    · exact gateResult_kept _ _ _ _ _ h
    · rename_i hr
      have hn : n.val ≠ 0 := by
        intro h0
        exact hr (by simp [gateRule, h0])
      repeat' first | exact gateResult_kept _ _ _ _ _ h | exact gateAct_kept _ _ _ _ h hn | split

@[simp] theorem drainEnd_kept (s : State) (h : s.Kept Q) : (drainEnd s).Kept Q := by
  have ha := abandonAll_kept s h
  unfold drainEnd
  split
  · split
    · exact h
    · extract_lets t
      split
      · exact ha.regate fun hg => hg
      · exact assertReset_kept _ _ (ha.regate fun hg => hg)
      · exact gateFinish_kept _ _ (ha.regate fun hg => hg)
  · exact h

@[simp] theorem sysReadEffect_kept (off : Nat) (s : State) (hk : s.Kept Q) : (sysReadEffect off s).Kept Q := by
  unfold sysReadEffect; simp [State.Kept, hk]

@[simp] theorem sysWrite_kept (r : Requester) (off : Nat) (v : Word) (s : State) (h : s.Kept Q) :
    (sysWrite r off v s).Kept Q := by
  unfold sysWrite
  repeat' first
    | (simp (maxDischargeDepth := 12) [State.Kept, h]; done)
    | split
    | exact KeptParts.regate h fun hg => hg

@[simp] theorem enableWrite_kept (v : BitVec 6) (s : State) (hk : s.Kept Q) : (enableWrite v s).Kept Q := by
  unfold enableWrite; simp [State.Kept, hk]

@[simp] theorem ckpWrite_kept (off : Nat) (v : Word) (s : State)
    (hk : s.Kept Q) : (ckpWrite off v s).Kept Q := by
  unfold ckpWrite; simp [State.Kept, hk]

@[simp] theorem chxReadEffect_kept (p : PortIdx) (off : Nat) (s : State)
    (hk : s.Kept Q) : (chxReadEffect p off s).Kept Q := by
  unfold chxReadEffect; simp [State.Kept, hk]

@[simp] theorem chxWrite_kept (p : PortIdx) (off : Nat) (v : Word) (s : State)
    (hk : s.Kept Q) : (chxWrite p off v s).Kept Q := by
  unfold chxWrite; simp [State.Kept, hk]

@[simp] theorem chnReadEffect_kept (off : Nat) (s : State) (hk : s.Kept Q) : (chnReadEffect off s).Kept Q := by
  unfold chnReadEffect; simp [State.Kept, hk]

@[simp] theorem chnStatWrite_kept (v : Word) (s : State) (hk : s.Kept Q) : (chnStatWrite v s).Kept Q := by
  unfold chnStatWrite; simp [State.Kept, hk]

@[simp] theorem chnWrite_kept (off : Nat) (v : Word) (s : State)
    (hk : s.Kept Q) : (chnWrite off v s).Kept Q := by
  unfold chnWrite; simp [State.Kept, hk]

@[simp] theorem sessReadEffect_kept (n o : Nat) (s : State)
    (hk : s.Kept Q) : (sessReadEffect n o s).Kept Q := by
  unfold sessReadEffect; simp [State.Kept, hk]

@[simp] theorem modEntry_kept (n : Nat) (f : SessEntry → SessEntry) (s : State)
    (hk : s.Kept Q) : (modEntry n f s).Kept Q := by
  unfold modEntry; simp [State.Kept, hk]

@[simp] theorem sessCmd_kept (n : Nat) (v : Word) (s : State) (hk : s.Kept Q) : (sessCmd n v s).Kept Q := by
  unfold sessCmd; simp [State.Kept, hk]

@[simp] theorem sessWrite_kept (n o : Nat) (v : Word) (s : State)
    (hk : s.Kept Q) : (sessWrite n o v s).Kept Q := by
  unfold sessWrite; simp [State.Kept, hk]

@[simp] theorem disReadEffect_kept (off : Nat) (s : State) (hk : s.Kept Q) : (disReadEffect off s).Kept Q := by
  unfold disReadEffect; simp [State.Kept, hk]

@[simp] theorem disWrite_kept (off : Nat) (v : Word) (s : State)
    (hk : s.Kept Q) : (disWrite off v s).Kept Q := by
  unfold disWrite; simp [State.Kept, hk]

@[simp] theorem voxReadEffect_kept (off : Nat) (s : State) (hk : s.Kept Q) : (voxReadEffect off s).Kept Q := by
  unfold voxReadEffect; simp [State.Kept, hk]

@[simp] theorem voxWrite_kept (off : Nat) (v : Word) (s : State)
    (hk : s.Kept Q) : (voxWrite off v s).Kept Q := by
  unfold voxWrite; simp [State.Kept, hk]

@[simp] theorem modWrite_kept (off : Nat) (v : Word) (s : State)
    (hk : s.Kept Q) : (modWrite off v s).Kept Q := by
  unfold modWrite; simp [State.Kept, hk]

@[simp] theorem mrgWrite_kept (r : Requester) (off : Nat) (v : Word) (s : State)
    (hk : s.Kept Q) : (mrgWrite r off v s).Kept Q := by
  unfold mrgWrite; simp [State.Kept, hk]

@[simp] theorem emtWrite_kept (off : Nat) (v : Word) (s : State)
    (hk : s.Kept Q) : (emtWrite off v s).Kept Q := by
  unfold emtWrite; simp [State.Kept, hk]

@[simp] theorem timerConfig_kept (n : Nat) (v : Word) (s : State)
    (hk : s.Kept Q) : (timerConfig n v s).Kept Q := by
  unfold timerConfig; simp [State.Kept, hk]

@[simp] theorem swcap_kept (n : Nat) (s : State) (hk : s.Kept Q) : (swcap n s).Kept Q := by
  unfold swcap; simp [State.Kept, hk]

@[simp] theorem timerWrite_kept (n o : Nat) (v : Word) (s : State)
    (hk : s.Kept Q) : (timerWrite n o v s).Kept Q := by
  unfold timerWrite; simp [State.Kept, hk]

@[simp] theorem gptReadEffect_kept (off : Nat) (s : State) (hk : s.Kept Q) : (gptReadEffect off s).Kept Q := by
  unfold gptReadEffect; simp [State.Kept, hk]

@[simp] theorem gptWrite_kept (off : Nat) (v : Word) (s : State)
    (hk : s.Kept Q) : (gptWrite off v s).Kept Q := by
  unfold gptWrite; simp [State.Kept, hk]

@[simp] theorem aouWrite_kept (off : Nat) (v : Word) (s : State)
    (hk : s.Kept Q) : (aouWrite off v s).Kept Q := by
  unfold aouWrite; simp [State.Kept, hk]

@[simp] theorem modPix_kept (p : Nat) (f : PixPort → PixPort) (s : State)
    (hk : s.Kept Q) : (modPix p f s).Kept Q := by
  unfold modPix; simp [State.Kept, hk]

@[simp] theorem pixReadEffect_kept (off : Nat) (s : State) (hk : s.Kept Q) : (pixReadEffect off s).Kept Q := by
  unfold pixReadEffect; simp [State.Kept, hk]

@[simp] theorem pixWrite_kept (off : Nat) (v : Word) (s : State)
    (hk : s.Kept Q) : (pixWrite off v s).Kept Q := by
  unfold pixWrite; simp [State.Kept, hk]

@[simp] theorem drvReadEffect_kept (off : Nat) (s : State) (hk : s.Kept Q) : (drvReadEffect off s).Kept Q := by
  unfold drvReadEffect; simp [State.Kept, hk]

@[simp] theorem emStatWrite_kept (n : Nat) (v : Word) (s : State)
    (hk : s.Kept Q) : (emStatWrite n v s).Kept Q := by
  unfold emStatWrite; simp (maxDischargeDepth := 12) [State.Kept, hk]

@[simp] theorem drvWrite_kept (off : Nat) (v : Word) (s : State)
    (hk : s.Kept Q) : (drvWrite off v s).Kept Q := by
  unfold drvWrite; simp [State.Kept, hk]

@[simp] theorem snsReadEffect_kept (off : Nat) (s : State) (hk : s.Kept Q) : (snsReadEffect off s).Kept Q := by
  unfold snsReadEffect; simp [State.Kept, hk]

@[simp] theorem snsCtrlWrite_kept (v : Word) (s : State) (hk : s.Kept Q) : (snsCtrlWrite v s).Kept Q := by
  unfold snsCtrlWrite; simp [State.Kept, hk]

@[simp] theorem snsWrite_kept (off : Nat) (v : Word) (s : State)
    (hk : s.Kept Q) : (snsWrite off v s).Kept Q := by
  unfold snsWrite; simp [State.Kept, hk]

@[simp] theorem audWrite_kept (off : Nat) (v : Word) (s : State)
    (hk : s.Kept Q) : (audWrite off v s).Kept Q := by
  unfold audWrite; simp [State.Kept, hk]

@[simp] theorem modDmxPort_kept (p : Nat) (f : DmxPort → DmxPort) (s : State)
    (hk : s.Kept Q) : (modDmxPort p f s).Kept Q := by
  unfold modDmxPort; simp [State.Kept, hk]

@[simp] theorem dmxReadEffect_kept (off : Nat) (s : State) (hk : s.Kept Q) : (dmxReadEffect off s).Kept Q := by
  unfold dmxReadEffect; simp [State.Kept, hk]

@[simp] theorem dmxWrite_kept (off : Nat) (v : Word) (s : State)
    (hk : s.Kept Q) : (dmxWrite off v s).Kept Q := by
  unfold dmxWrite; simp [State.Kept, hk]

@[simp] theorem mgtReadEffect_kept (off : Nat) (s : State) (hk : s.Kept Q) : (mgtReadEffect off s).Kept Q := by
  unfold mgtReadEffect; simp [State.Kept, hk]

@[simp] theorem mgtWrite_kept (off : Nat) (v : Word) (s : State)
    (hk : s.Kept Q) : (mgtWrite off v s).Kept Q := by
  unfold mgtWrite; simp [State.Kept, hk]

@[simp] theorem rosWrite_kept (off : Nat) (v : Word) (s : State)
    (hk : s.Kept Q) : (rosWrite off v s).Kept Q := by
  unfold rosWrite; simp [State.Kept, hk]

@[simp] theorem eccReadEffect_kept (off : Nat) (s : State) (hk : s.Kept Q) : (eccReadEffect off s).Kept Q := by
  unfold eccReadEffect; simp [State.Kept, hk]

@[simp] theorem clearWord_kept (a : Word) (s : State) (hk : s.Kept Q) : (clearWord a s).Kept Q := by
  unfold clearWord; simp [State.Kept, hk]

@[simp] theorem writeFlipctl_kept (v : Word) (s : State) (h : s.Kept Q) : (writeFlipctl v s).Kept Q := setEcc_kept _ _ h

@[simp] theorem eccWrite_kept (off : Nat) (v : Word) (s : State)
    (hk : s.Kept Q) : (eccWrite off v s).Kept Q := by
  unfold eccWrite; simp [State.Kept, hk]

@[simp] theorem kstReadEffect_kept (off : Nat) (s : State) (hk : s.Kept Q) : (kstReadEffect off s).Kept Q := by
  unfold kstReadEffect; simp [State.Kept, hk]

@[simp] theorem kstWrite_kept (off : Nat) (v : Word) (s : State)
    (hk : s.Kept Q) : (kstWrite off v s).Kept Q := by
  unfold kstWrite; simp [State.Kept, hk]

@[simp] theorem blockReadEffect_kept (a : Nat) (s : State) (hk : s.Kept Q) : (blockReadEffect a s).Kept Q := by
  unfold blockReadEffect; split <;> simp [State.Kept, hk]

@[simp] theorem mapReadEffect_kept (src : BitVec 4) (a : Nat) (s : State)
    (hk : s.Kept Q) : (mapReadEffect src a s).Kept Q := by
  unfold mapReadEffect; simp [State.Kept, hk]

@[simp] theorem blockWrite_kept (r : Requester) (a : Nat) (v : Word) (s : State)
    (hk : s.Kept Q) : (blockWrite r a v s).Kept Q := by
  unfold blockWrite; split <;> simp [State.Kept, hk]

@[simp] theorem mapWrite_kept (r : Requester) (src : BitVec 4) (a size : Nat) (v : Word) (poison : Bool) (s : State)
    (hk : s.Kept Q) : (mapWrite r src a size v poison s).Kept Q := by
  unfold mapWrite; simp [State.Kept, hk]

@[simp] theorem effectOf_kept (adm : Ending) (r : Requester) (a : Nat) (q : Ask) (s : State) (hk : s.Kept Q) : (effectOf adm r a q s).Kept Q := by
  unfold effectOf; repeat' first | (simp (maxDischargeDepth := 12) [State.Kept, hk, apply_ite Prod.fst]; done) | split | (dsimp only; split)

@[simp] theorem accessEffect_kept (r : Requester) (a : Nat) (q : Ask) (s : State)
    (hk : s.Kept Q) : (accessEffect r a q s).Kept Q := by
  unfold accessEffect; repeat' first | (simp [State.Kept, hk]; done) | split

@[simp] theorem countAbsent_kept (a : Word) (s : State) (hk : s.Kept Q) : (countAbsent a s).Kept Q := by
  unfold countAbsent; simp [State.Kept, hk]

@[simp] theorem owlExpire_kept (hrdy : Bool) (s : State) (hk : s.Kept Q) : (owlExpire hrdy s).Kept Q := by
  unfold owlExpire; repeat' first | (simp (maxDischargeDepth := 12) [State.Kept, hk, apply_ite Prod.fst]; done) | (simp (maxDischargeDepth := 12) +contextual [State.Kept, hk, apply_ite Prod.fst]; done) | split | (dsimp only; split)

@[simp] theorem modWin_kept (w : WIdx) (f : Window → Window) (s : State)
    (hk : s.Kept Q) : (modWin w f s).Kept Q := by
  unfold modWin; simp [State.Kept, hk]

@[simp] theorem setHd_kept (v : Half) (s : State) (hk : s.Kept Q) : (setHd v s).Kept Q := by
  unfold setHd; simp [State.Kept, hk]

@[simp] theorem windowRefused_kept (w : WIdx) (s : State) (hk : s.Kept Q) : (windowRefused w s).Kept Q := by
  unfold windowRefused; simp [State.Kept, hk]

@[simp] theorem dataLoWrite_kept (w : WIdx) (d : Half) (s : State)
    (hk : s.Kept Q) : (dataLoWrite w d s).Kept Q := by
  unfold dataLoWrite; simp [State.Kept, hk]

@[simp] theorem dataHiWrite_kept (w : WIdx) (d : Half) (s : State)
    (hk : s.Kept Q) : (dataHiWrite w d s).Kept Q := by
  unfold dataHiWrite; simp [State.Kept, hk]

@[simp] theorem dataLoRead_kept (w : WIdx) (s : State) (hk : s.Kept Q) : (dataLoRead w s).Kept Q := by
  unfold dataLoRead; simp [State.Kept, hk]

@[simp] theorem winData_kept (w : WIdx) (v : Word) (s : State) (hk : s.Kept Q) : (winData w v s).Kept Q := by
  unfold winData; simp [State.Kept, hk]

@[simp] theorem winPoison_kept (w : WIdx) (s : State) (hk : s.Kept Q) : (winPoison w s).Kept Q := by
  unfold winPoison; simp [State.Kept, hk]

@[simp] theorem windowMark_kept (w : WIdx) (addr : Word) (e : Ending) (s : State) (hk : s.Kept Q) : (windowMark w addr e s).Kept Q := by
  unfold windowMark; repeat' first | (simp (maxDischargeDepth := 12) [State.Kept, hk, apply_ite Prod.fst]; done) | split | (dsimp only; split)

@[simp] theorem latePerform_kept (w : WIdx) (p : Word × Word) (s : State) (hk : s.Kept Q) : (latePerform w p s).Kept Q := by
  unfold latePerform; repeat' first | (simp (maxDischargeDepth := 12) [State.Kept, hk, apply_ite Prod.fst]; done) | split | (dsimp only; split)

@[simp] theorem latePick_kept (q : Word → Bool) (w : WIdx) (s : State) (h : s.Kept Q) : (latePick q w s).Kept Q :=
  foldl_kept _ _ _ (modWin_kept _ _ _ h) fun s p h => latePerform_kept _ _ _ h

@[simp] theorem lateSettle_kept (a : Nat) (s : State) (hk : s.Kept Q) : (lateSettle a s).Kept Q := by
  unfold lateSettle; repeat' first | (simp (maxDischargeDepth := 12) [State.Kept, hk, apply_ite Prod.fst]; done) | split | (dsimp only; split)

@[simp] theorem lateChance_kept (w : WIdx) (s : State) (hk : s.Kept Q) : (lateChance w s).Kept Q := by
  unfold lateChance; repeat' first | (simp (maxDischargeDepth := 12) [State.Kept, hk, apply_ite Prod.fst]; done) | split | (dsimp only; split)

@[simp] theorem lateTime_kept (s : State) (hk : s.Kept Q) : (lateTime s).Kept Q := by
  unfold lateTime; repeat' first | (simp (maxDischargeDepth := 12) [State.Kept, hk, apply_ite Prod.fst]; done) | split | (dsimp only; split)

@[simp] theorem owlDone_kept (s : State) (hk : s.Kept Q) : (owlDone s).Kept Q := by
  unfold owlDone; repeat' first | (simp (maxDischargeDepth := 12) [State.Kept, hk, apply_ite Prod.fst]; done) | split | (dsimp only; split)

@[simp] theorem windowEnd_kept (w : WIdx) (x : Access) (s : State) (h : s.Kept Q) : (windowEnd w x s).Kept Q := by
  unfold windowEnd
  extract_lets a s1 r s2 s3 s4
  have h2 : s2.Kept Q := modWin_kept _ _ _ (effectOf_kept _ _ _ _ _ (lateSettle_kept _ _ h))
  have h3 : s3.Kept Q := by unfold s3; split <;> simp [h2]
  have h4 : s4.Kept Q := when_kept _ _ _ h3 fun s h => winPoison_kept _ _ h
  exact windowMark_kept _ _ _ _ (when_kept _ _ _ h4 fun s h => owlDone_kept _ h)

@[simp] theorem windowReply_kept (w : WIdx) (s : State) (hk : s.Kept Q) : (windowReply w s).Kept Q := by
  unfold windowReply; split <;> simp [State.Kept, hk]

@[simp] theorem windowTimeout_kept (w : WIdx) (s : State) (hk : s.Kept Q) : (windowTimeout w s).Kept Q := by
  unfold windowTimeout; repeat' first | (simp (maxDischargeDepth := 12) [State.Kept, hk]; done) | split

@[simp] theorem handover_kept (s : State) (hk : s.Kept Q) : (handover s).Kept Q := by
  unfold handover; repeat' first | (simp (maxDischargeDepth := 12) [State.Kept, hk, apply_ite Prod.fst]; done) | (simp (maxDischargeDepth := 12) +contextual [State.Kept, hk, apply_ite Prod.fst]; done) | split | (dsimp only; split)

@[simp] theorem writeHood_kept (v : Half) (s : State) (hk : s.Kept Q) : (writeHood v s).Kept Q := by
  unfold writeHood; simp [State.Kept, hk]

@[simp] theorem hostReadEffect_kept (i : Nat) (s : State) (hk : s.Kept Q) : (hostReadEffect i s).Kept Q := by
  unfold hostReadEffect; simp [State.Kept, hk]

@[simp] theorem isrClear_kept (hi : Bool) (v : Half) (s : State)
    (hk : s.Kept Q) : (isrClear hi v s).Kept Q := by
  unfold isrClear; simp [State.Kept, hk]

@[simp] theorem aonWrite_kept (i : Nat) (v : Half) (s : State) (hk : s.Kept Q) : (aonWrite i v s).Kept Q := by
  unfold aonWrite; split <;> simp [State.Kept, hk]

@[simp] theorem windowWrite_kept (w : WIdx) (i : Nat) (v : Half) (s : State)
    (hk : s.Kept Q) : (windowWrite w i v s).Kept Q := by
  unfold windowWrite; split <;> simp [State.Kept, hk]

@[simp] theorem roostWrite_kept (v : Half) (s : State) (hk : s.Kept Q) : (roostWrite v s).Kept Q := by
  unfold roostWrite; simp [State.Kept, hk]

@[simp] theorem epochWrite_kept (v : Half) (s : State) (hk : s.Kept Q) : (epochWrite v s).Kept Q := by
  unfold epochWrite; simp [State.Kept, hk]

@[simp] theorem hostWrite_kept (i : Nat) (v : Half) (s : State) (hk : s.Kept Q) : (hostWrite i v s).Kept Q := by
  unfold hostWrite; repeat' first | (simp [State.Kept, hk]; done) | split

@[simp] theorem owlSees_kept (o : Owl) (a : HostAccess) (s : State)
    (hk : s.Kept Q) : (owlSees o a s).Kept Q := by
  unfold owlSees; simp [State.Kept, hk]

@[simp] theorem hostServe_kept (a : HostAccess) (s : State) (hk : s.Kept Q) : (hostServe a s).Kept Q := by
  unfold hostServe; split <;> simp [State.Kept, hk]

@[simp] theorem hostBlank_kept (a : HostAccess) (s : State) (hk : s.Kept Q) : (hostBlank a s).Kept Q := by
  unfold hostBlank; split <;> simp [State.Kept, hk]

theorem aonServe_kept (a : HostAccess) (f : State → State) (s : State) (h : s.Kept Q)
    (hf : ∀ s, s.Kept Q → (f s).Kept Q) : (aonServe a f s).Kept Q := by
  unfold aonServe
  split
  · simp [h]
  · split
    · exact owlSees_kept _ _ _ (hf _ h)
    · simp [h]

@[simp] theorem aonAccess_kept (a : HostAccess) (s : State) (h : s.Kept Q) : (aonAccess a s).Kept Q :=
  aonServe_kept _ _ _ h fun s h => hostServe_kept _ _ h

@[simp] theorem roostDiscard_kept (i : Nat) (s : State) (hk : s.Kept Q) : (roostDiscard i s).Kept Q := by
  unfold roostDiscard; simp [State.Kept, hk]

theorem roostServe_kept (a : HostAccess) (f : State → State) (s : State) (h : s.Kept Q)
    (hf : ∀ s, s.Kept Q → (f s).Kept Q) : (roostServe a f s).Kept Q := by
  unfold roostServe
  split
  · exact owlSees_kept _ _ _ (hf _ h)
  · simp [h]

@[simp] theorem hostRun_kept (a : HostAccess) (f : State → State) (s : State) (h : s.Kept Q)
    (hf : ∀ s, s.Kept Q → (f s).Kept Q) : (hostRun a f s).Kept Q := by
  have hl := lateTime_kept s h
  unfold hostRun
  split
  · exact h
  · extract_lets t
    split
    · exact aonServe_kept _ _ _ hl hf
    · split
      · exact roostServe_kept _ _ _ hl hf
      · exact owlSees_kept _ _ _ (hf _ hl)

@[simp] theorem hostAccess_kept (a : HostAccess) (s : State) (h : s.Kept Q) : (hostAccess a s).Kept Q :=
  hostRun_kept _ _ _ h fun s h => hostServe_kept _ _ h

@[simp] theorem hostPut_kept (i : Fin 64) (v : Half) (s : State) (hk : s.Kept Q) : (hostPut i v s).Kept Q := by
  unfold hostPut; repeat' first | (simp (maxDischargeDepth := 12) [State.Kept, hk, apply_ite Prod.fst]; done) | split | (dsimp only; split)

@[simp] theorem requestWrite_kept (c : Mode) (s : State) (hk : s.Kept Q) : (requestWrite c s).Kept Q := by
  unfold requestWrite; repeat' first | (simp (maxDischargeDepth := 12) [State.Kept, hk, apply_ite Prod.fst]; done) | split | (dsimp only; split)

@[simp] theorem memGrant_kept (q : MemReq) (s : State) (h : s.Kept Q) : (memGrant q s).Kept Q := by
  have hs := slideReads_kept s h
  unfold memGrant
  extract_lets a
  split
  · exact memReadEffect_kept _ _ _ h
  · split
    · exact writeCode_kept _ _ _ hs
    · exact mergedWrite_kept _ _ _ _ _ _ hs

@[simp] theorem scrubRewrite_kept (a : Nat) (w : Code) (s : State) (h : s.Kept Q) : (scrubRewrite a w s).Kept Q := by
  unfold scrubRewrite
  split
  · exact KeptParts.remem h (putRaw_wf _ _ _)
  · exact h

@[simp] theorem scrubBank_kept (m : Nat) (s : State) (h : s.Kept Q) : (scrubBank m s).Kept Q :=
  setEcc_kept _ _ (scrubRewrite_kept _ _ _ (memReadEffect_kept _ _ _ h))

@[simp] theorem trap_kept (k : KIdx) (cause : BitVec 4) (info : Word) (s : State)
    (hk : s.Kept Q) : (trap k cause info s).Kept Q := by
  unfold trap; simp (maxDischargeDepth := 12) [State.Kept, hk]

@[simp] theorem takeTrap_kept (k : KIdx) (t : BitVec 4 × Word) (s : State) (h : s.Kept Q) : (takeTrap k t s).Kept Q :=
  trap_kept _ _ _ _ (when_kept _ _ _ h fun s h => countAbsent_kept _ _ h)

@[simp] theorem trapAny_kept (k : KIdx) (first : BitVec 4 × Word) (rest : List (BitVec 4 × Word)) (s : State)
    (hk : s.Kept Q) : (trapAny k first rest s).Kept Q := by
  unfold trapAny; split <;> simp [State.Kept, hk]

@[simp] theorem orTrap_kept (k : KIdx) (ts : List (BitVec 4 × Word)) (f : State → State) (s : State) (h : s.Kept Q)
    (hf : ∀ s, s.Kept Q → (f s).Kept Q) : (orTrap k ts f s).Kept Q := by
  unfold orTrap; split <;> simp [h, hf]

theorem kRun_kept (k : KIdx) (sel : KInstr → Option (Word → State → State)) (s : State) (h : s.Kept Q)
    (hf : ∀ i f w s, sel i = some f → s.Kept Q → (f w s).Kept Q) : (kRun k sel s).Kept Q := by
  unfold kRun
  split
  · dsimp only
    split
    · exact h
    · rename_i f hs
      split
      · simp [h]
      · obtain ⟨i, -, hi⟩ := Option.bind_eq_some_iff.mp hs
        exact hf i f _ _ hi (by simp [h])
  · exact h

@[simp] theorem complete_kept (k : KIdx) (f : Kestrel → Kestrel) (s : State)
    (hk : s.Kept Q) : (complete k f s).Kept Q := by
  unfold complete; simp [State.Kept, hk]

@[simp] theorem aluStep_kept (k : KIdx) (f : Alu) (rd ra rb : Fin 16) (w : Word) (s : State)
    (hk : s.Kept Q) : (aluStep k f rd ra rb w s).Kept Q := by
  unfold aluStep; repeat' first | (simp (maxDischargeDepth := 12) [State.Kept, hk, apply_ite Prod.fst]; done) | (simp (maxDischargeDepth := 12) +contextual [State.Kept, hk, apply_ite Prod.fst]; done) | split | (dsimp only; split)

@[simp] theorem kAlu_kept (f : Alu) (k : KIdx) (s : State) (h : s.Kept Q) : (kAlu f k s).Kept Q := by
  unfold kAlu
  refine kRun_kept _ _ _ h fun i g w s hi h => ?_
  repeat' split at hi
  all_goals first | (cases hi; done) | (cases hi; simp [h])

@[simp] theorem alukStep_kept (k : KIdx) (f : AluK) (rd ra : Fin 16) (v : BitVec 18) (w : Word) (s : State)
    (hk : s.Kept Q) : (alukStep k f rd ra v w s).Kept Q := by
  unfold alukStep; repeat' first | (simp (maxDischargeDepth := 12) [State.Kept, hk, apply_ite Prod.fst]; done) | (simp (maxDischargeDepth := 12) +contextual [State.Kept, hk, apply_ite Prod.fst]; done) | split | (dsimp only; split)

@[simp] theorem kAluk_kept (f : AluK) (k : KIdx) (s : State) (h : s.Kept Q) : (kAluk f k s).Kept Q := by
  unfold kAluk
  refine kRun_kept _ _ _ h fun i g w s hi h => ?_
  repeat' split at hi
  all_goals first | (cases hi; done) | (cases hi; simp [h])

@[simp] theorem khiStep_kept (k : KIdx) (rd : Fin 16) (v : BitVec 22) (_w : Word) (s : State)
    (hk : s.Kept Q) : (khiStep k rd v _w s).Kept Q := by
  unfold khiStep; simp [State.Kept, hk]

@[simp] theorem goStep_kept (k : KIdx) (link : Bool) (d : BitVec 25) (_w : Word) (s : State)
    (hk : s.Kept Q) : (goStep k link d _w s).Kept Q := by
  unfold goStep; simp [State.Kept, hk]

@[simp] theorem gorStep_kept (k : KIdx) (link : Bool) (ra : Fin 16) (v : BitVec 18) (w : Word) (s : State)
    (hk : s.Kept Q) : (gorStep k link ra v w s).Kept Q := by
  unfold gorStep; repeat' first | (simp (maxDischargeDepth := 12) [State.Kept, hk, apply_ite Prod.fst]; done) | (simp (maxDischargeDepth := 12) +contextual [State.Kept, hk, apply_ite Prod.fst]; done) | split | (dsimp only; split)

@[simp] theorem brStep_kept (k : KIdx) (f : Cond) (ra rb : Fin 16) (d : BitVec 15) (w : Word) (s : State)
    (hk : s.Kept Q) : (brStep k f ra rb d w s).Kept Q := by
  unfold brStep; repeat' first | (simp (maxDischargeDepth := 12) [State.Kept, hk, apply_ite Prod.fst]; done) | (simp (maxDischargeDepth := 12) +contextual [State.Kept, hk, apply_ite Prod.fst]; done) | split | (dsimp only; split)

@[simp] theorem kBr_kept (f : Cond) (k : KIdx) (s : State) (h : s.Kept Q) : (kBr f k s).Kept Q := by
  unfold kBr
  refine kRun_kept _ _ _ h fun i g w s hi h => ?_
  repeat' split at hi
  all_goals first | (cases hi; done) | (cases hi; simp [h])

@[simp] theorem rttStep_kept (k : KIdx) (_w : Word) (s : State) (hk : s.Kept Q) : (rttStep k _w s).Kept Q := by
  unfold rttStep; simp [State.Kept, hk]

@[simp] theorem brkStep_kept (k : KIdx) (_w : Word) (s : State) (hk : s.Kept Q) : (brkStep k _w s).Kept Q := by
  unfold brkStep; simp [State.Kept, hk]

@[simp] theorem issueAll_kept (k : KIdx) (s : State) (hk : s.Kept Q) : (issueAll k s).Kept Q := by
  unfold issueAll; repeat' first | (simp (maxDischargeDepth := 12) [State.Kept, hk, apply_ite Prod.fst]; done) | split | (dsimp only; split)

@[simp] theorem loadDone_kept (k : KIdx) (rt : Fin 16) (v : Word) (p : Bool) (s : State)
    (hk : s.Kept Q) : (loadDone k rt v p s).Kept Q := by
  unfold loadDone; simp [State.Kept, hk]

@[simp] theorem loadIssue_kept (k : KIdx) (rt : Fin 16) (a : Word) (size : Nat) (sx : Bool) (s : State)
    (hk : s.Kept Q) : (loadIssue k rt a size sx s).Kept Q := by
  unfold loadIssue; split <;> simp [State.Kept, hk]

@[simp] theorem ldStep_kept (k : KIdx) (z : LdSize) (rt ra : Fin 16) (d : BitVec 15) (w : Word) (s : State)
    (hk : s.Kept Q) : (ldStep k z rt ra d w s).Kept Q := by
  unfold ldStep; repeat' first | (simp (maxDischargeDepth := 12) [State.Kept, hk, apply_ite Prod.fst]; done) | (simp (maxDischargeDepth := 12) +contextual [State.Kept, hk, apply_ite Prod.fst]; done) | split | (dsimp only; split)

@[simp] theorem kLd_kept (z : LdSize) (k : KIdx) (s : State) (h : s.Kept Q) : (kLd z k s).Kept Q := by
  unfold kLd
  refine kRun_kept _ _ _ h fun i g w s hi h => ?_
  repeat' split at hi
  all_goals first | (cases hi; done) | (cases hi; simp [h])

@[simp] theorem loadReply_kept (k : KIdx) (s : State) (hk : s.Kept Q) : (loadReply k s).Kept Q := by
  unfold loadReply; repeat' first | (simp (maxDischargeDepth := 12) [State.Kept, hk, apply_ite Prod.fst]; done) | (simp (maxDischargeDepth := 12) +contextual [State.Kept, hk, apply_ite Prod.fst]; done) | split | (dsimp only; split)

@[simp] theorem enter_kept (k : KIdx) (e : SbEntry) (s : State) (hk : s.Kept Q) : (enter k e s).Kept Q := by
  unfold enter; simp [State.Kept, hk]

@[simp] theorem bufferEntry_kept (k : KIdx) (e : SbEntry) (w : Word) (s : State)
    (hk : s.Kept Q) : (bufferEntry k e w s).Kept Q := by
  unfold bufferEntry; repeat' first | (simp (maxDischargeDepth := 12) [State.Kept, hk, apply_ite Prod.fst]; done) | (simp (maxDischargeDepth := 12) +contextual [State.Kept, hk, apply_ite Prod.fst]; done) | split | (dsimp only; split)

@[simp] theorem stStep_kept (k : KIdx) (z : StSize) (rt ra : Fin 16) (d : BitVec 15) (w : Word) (s : State)
    (hk : s.Kept Q) : (stStep k z rt ra d w s).Kept Q := by
  unfold stStep; repeat' first | (simp (maxDischargeDepth := 12) [State.Kept, hk, apply_ite Prod.fst]; done) | (simp (maxDischargeDepth := 12) +contextual [State.Kept, hk, apply_ite Prod.fst]; done) | split | (dsimp only; split)

@[simp] theorem kSt_kept (z : StSize) (k : KIdx) (s : State) (h : s.Kept Q) : (kSt z k s).Kept Q := by
  unfold kSt
  refine kRun_kept _ _ _ h fun i g w s hi h => ?_
  repeat' split at hi
  all_goals first | (cases hi; done) | (cases hi; simp [h])

@[simp] theorem bufferRoom_kept (k : KIdx) (s : State) (hk : s.Kept Q) : (bufferRoom k s).Kept Q := by
  unfold bufferRoom; repeat' first | (simp (maxDischargeDepth := 12) [State.Kept, hk, apply_ite Prod.fst]; done) | (simp (maxDischargeDepth := 12) +contextual [State.Kept, hk, apply_ite Prod.fst]; done) | split | (dsimp only; split)

@[simp] theorem performPost_kept (k : KIdx) (e : EvBytes) (n : BitVec 4) (adm : Ending) (s : State) (hk : s.Kept Q) : (performPost k e n adm s).Kept Q := by
  unfold performPost; repeat' first | (simp (maxDischargeDepth := 12) [State.Kept, hk, apply_ite Prod.fst]; done) | split | (dsimp only; split)

@[simp] theorem atomicEffect_kept (k : KIdx) (a : Word) (v : Word) (p : Bool) (cmp : Option Word) (adm : Ending) (s : State) (hk : s.Kept Q) : (atomicEffect k a v p cmp adm s).Kept Q := by
  unfold atomicEffect; repeat' first | (simp (maxDischargeDepth := 12) [State.Kept, hk, apply_ite Prod.fst]; done) | split | (dsimp only; split)

@[simp] theorem performOr_kept (a : Word) (adm : Ending) (q : Ask) (f : State → State) (s : State) (h : s.Kept Q)
    (hf : (f s).Kept Q) : (performOr a adm q f s).Kept Q := by
  unfold performOr; split <;> simp [h, hf]

@[simp] theorem perform_kept (k : KIdx) (e : SbEntry) (s : State) (h : s.Kept Q) : (perform k e s).Kept Q := by
  unfold perform; split <;> simp [h]

@[simp] theorem storeReply_kept (k : KIdx) (s : State) (hk : s.Kept Q) : (storeReply k s).Kept Q := by
  unfold storeReply; repeat' first | (simp (maxDischargeDepth := 12) [hk]; done) | split

@[simp] theorem waitIn_kept (k : KIdx) (w : KWait) (s : State) (hk : s.Kept Q) : (waitIn k w s).Kept Q := by
  unfold waitIn; simp [State.Kept, hk]

@[simp] theorem atomicStep_kept (k : KIdx) (rd ra rb : Fin 16) (cas : Bool) (w : Word) (s : State)
    (hk : s.Kept Q) : (atomicStep k rd ra rb cas w s).Kept Q := by
  unfold atomicStep; repeat' first | (simp (maxDischargeDepth := 12) [State.Kept, hk, apply_ite Prod.fst]; done) | (simp (maxDischargeDepth := 12) +contextual [State.Kept, hk, apply_ite Prod.fst]; done) | split | (dsimp only; split)

@[simp] theorem atomicReply_kept (k : KIdx) (s : State) (hk : s.Kept Q) : (atomicReply k s).Kept Q := by
  unfold atomicReply; split <;> simp [State.Kept, hk]

@[simp] theorem fenceStep_kept (k : KIdx) (_w : Word) (s : State)
    (hk : s.Kept Q) : (fenceStep k _w s).Kept Q := by
  unfold fenceStep; simp [State.Kept, hk]

@[simp] theorem fenceDone_kept (k : KIdx) (s : State) (hk : s.Kept Q) : (fenceDone k s).Kept Q := by
  unfold fenceDone; simp [State.Kept, hk]

@[simp] theorem waitDone_kept (k : KIdx) (rd : Fin 16) (v : Word) (s : State)
    (hk : s.Kept Q) : (waitDone k rd v s).Kept Q := by
  unfold waitDone; simp [State.Kept, hk]

@[simp] theorem waitStep_kept (k : KIdx) (rd ra : Fin 16) (w : Word) (s : State)
    (hk : s.Kept Q) : (waitStep k rd ra w s).Kept Q := by
  unfold waitStep; repeat' first | (simp (maxDischargeDepth := 12) [State.Kept, hk, apply_ite Prod.fst]; done) | (simp (maxDischargeDepth := 12) +contextual [State.Kept, hk, apply_ite Prod.fst]; done) | split | (dsimp only; split)

@[simp] theorem waitReady_kept (k : KIdx) (s : State) (hk : s.Kept Q) : (waitReady k s).Kept Q := by
  unfold waitReady; split <;> simp [State.Kept, hk]

@[simp] theorem postStep_kept (k : KIdx) (ra : Fin 16) (w : Word) (s : State)
    (hk : s.Kept Q) : (postStep k ra w s).Kept Q := by
  unfold postStep; repeat' first | (simp (maxDischargeDepth := 12) [State.Kept, hk, apply_ite Prod.fst]; done) | (simp (maxDischargeDepth := 12) +contextual [State.Kept, hk, apply_ite Prod.fst]; done) | split | (dsimp only; split)

@[simp] theorem sprReadEffect_kept (k : KIdx) (sr : Nat) (s : State)
    (hk : s.Kept Q) : (sprReadEffect k sr s).Kept Q := by
  unfold sprReadEffect; split <;> simp [State.Kept, hk]

@[simp] theorem pendClear_kept (k : KIdx) (m : Word) (s : State)
    (hk : s.Kept Q) : (pendClear k m s).Kept Q := by
  unfold pendClear; simp [State.Kept, hk]

@[simp] theorem signal_kept (m : Word) (s : State) (hk : s.Kept Q) : (signal m s).Kept Q := by
  unfold signal; simp [State.Kept, hk]

@[simp] theorem ringHost_kept (k : KIdx) (m : Word) (s : State) (hk : s.Kept Q) : (ringHost k m s).Kept Q := by
  unfold ringHost; simp [State.Kept, hk]

@[simp] theorem sprWrite_kept (k : KIdx) (sr : Nat) (v : Word) (s : State)
    (hk : s.Kept Q) : (sprWrite k sr v s).Kept Q := by
  unfold sprWrite; split <;> simp [State.Kept, hk]

@[simp] theorem sprAct_kept (k : KIdx) (a : SprAct) (sr : Nat) (old v : Word) (s : State)
    (hk : s.Kept Q) : (sprAct k a sr old v s).Kept Q := by
  unfold sprAct; simp [State.Kept, hk]

@[simp] theorem sprStep_kept (k : KIdx) (a : SprAct) (rd ra : Fin 16) (sr : BitVec 12) (w : Word) (s : State)
    (hk : s.Kept Q) : (sprStep k a rd ra sr w s).Kept Q := by
  unfold sprStep; repeat' first | (simp (maxDischargeDepth := 12) [State.Kept, hk, apply_ite Prod.fst]; done) | (simp (maxDischargeDepth := 12) +contextual [State.Kept, hk, apply_ite Prod.fst]; done) | split | (dsimp only; split)

@[simp] theorem kSpr_kept (a : SprAct) (k : KIdx) (s : State) (h : s.Kept Q) : (kSpr a k s).Kept Q := by
  unfold kSpr
  refine kRun_kept _ _ _ h fun i g w s hi h => ?_
  repeat' split at hi
  all_goals first | (cases hi; done) | (cases hi; simp [h])

@[simp] theorem blockPeekEffect_kept (a : Nat) (s : State) (hk : s.Kept Q) : (blockPeekEffect a s).Kept Q := by
  unfold blockPeekEffect; split <;> simp [State.Kept, hk]

@[simp] theorem peekEffect_kept (a : Nat) (s : State) (hk : s.Kept Q) : (peekEffect a s).Kept Q := by
  unfold peekEffect; simp [State.Kept, hk]

@[simp] theorem mgmtReadFn_kept (c : List Byte) (s : State) (hk : s.Kept Q) : (mgmtReadFn c s).1.Kept Q := by
  unfold mgmtReadFn; repeat' first | (simp (maxDischargeDepth := 12) [State.Kept, hk, apply_ite Prod.fst]; done) | (simp (maxDischargeDepth := 12) +contextual [State.Kept, hk, apply_ite Prod.fst]; done) | split | (dsimp only; split)

@[simp] theorem mgmtWriteFn_kept (c : List Byte) (s : State) (hk : s.Kept Q) : (mgmtWriteFn c s).1.Kept Q := by
  unfold mgmtWriteFn; simp [State.Kept, hk]

@[simp] theorem mgmtModeFn_kept (c : List Byte) (s : State) (hk : s.Kept Q) : (mgmtModeFn c s).1.Kept Q := by
  unfold mgmtModeFn; simp [State.Kept, hk]

@[simp] theorem mgmtGateFn_kept (c : List Byte) (s : State) (hk : s.Kept Q) : (mgmtGateFn c s).1.Kept Q := by
  unfold mgmtGateFn; simp [State.Kept, hk]

@[simp] theorem mgmtCommitFn_kept (s : State) (hk : s.Kept Q) : (mgmtCommitFn s).1.Kept Q := by
  unfold mgmtCommitFn; simp [State.Kept, hk]

@[simp] theorem mgmtKeysetFn_kept (c : List Byte) (s : State)
    (hk : s.Kept Q) : (mgmtKeysetFn c s).1.Kept Q := by
  unfold mgmtKeysetFn; repeat' first | (simp (maxDischargeDepth := 12) [State.Kept, hk, apply_ite Prod.fst]; done) | (simp (maxDischargeDepth := 12) +contextual [State.Kept, hk, apply_ite Prod.fst]; done) | split | (dsimp only; split)

@[simp] theorem mgmtContentFn_kept (c : List Byte) (s : State)
    (hk : s.Kept Q) : (mgmtContentFn c s).1.Kept Q := by
  unfold mgmtContentFn; simp [State.Kept, hk]

@[simp] theorem mgmtLogclrFn_kept (s : State) (hk : s.Kept Q) : (mgmtLogclrFn s).1.Kept Q := by
  unfold mgmtLogclrFn; simp [State.Kept, hk]

@[simp] theorem mgmtRaise_kept (fn : Nat) (s : State) (hk : s.Kept Q) : (mgmtRaise fn s).Kept Q := by
  unfold mgmtRaise; simp [State.Kept, hk]

@[simp] theorem mgmtEnd_kept (c : List Byte) (r : State × Nat × Word) (h : r.1.Kept Q) : (mgmtEnd c r).Kept Q :=
  mgmtRaise_kept _ _ (setMgt_kept _ _ h)

theorem mgmtEval_kept (f : List Byte → State → State × Nat × Word) (c : List Byte) (s : State) (h : s.Kept Q)
    (hf : ∀ c s, s.Kept Q → (f c s).1.Kept Q) : (mgmtEval f c s).Kept Q := by
  unfold mgmtEval
  split
  · exact mgmtEnd_kept _ _ h
  · refine mgmtEnd_kept _ _ (hf _ _ ?_)
    split
    · exact setMgt_kept _ _ h
    · exact h

theorem mgmtRow_kept (row : List Byte → Bool) (f : List Byte → State → State × Nat × Word) (s : State) (h : s.Kept Q)
    (hf : ∀ c s, s.Kept Q → (f c s).1.Kept Q) : (mgmtRow row f s).Kept Q := by
  unfold mgmtRow
  split
  · exact h
  · split
    · exact mgmtEval_kept _ _ _ (setMgt_kept _ _ h) hf
    · exact h

theorem mgmtFnRow_kept (fn : Nat) (f : List Byte → State → State × Nat × Word) (s : State) (h : s.Kept Q)
    (hf : ∀ c s, s.Kept Q → (f c s).1.Kept Q) : (mgmtFnRow fn f s).Kept Q := mgmtRow_kept _ f s h hf

theorem mgmtAccessRow_kept (fn : Nat) (f : List Byte → State → State × Nat × Word) (s : State) (h : s.Kept Q)
    (hf : ∀ c s, s.Kept Q → (f c s).1.Kept Q) : (mgmtAccessRow fn f s).Kept Q := by
  unfold mgmtAccessRow
  split
  · exact h
  · exact mgmtFnRow_kept _ _ _ h hf

@[simp] theorem contentRow_kept (sub : Nat) (host : Bool) (s : State) (h : s.Kept Q) : (contentRow sub host s).Kept Q := by
  unfold contentRow
  split
  · split <;> simp [h]
  · exact mgmtRow_kept _ _ _ h fun c s h => mgmtContentFn_kept c s h

@[simp] theorem setIr_kept (i : JtagIr) (s : State) (hk : s.Kept Q) : (setIr i s).Kept Q := by
  unfold setIr; simp [State.Kept, hk]

@[simp] theorem kdebugDone_kept (data : Word) (absent : Bool) (s : State)
    (hk : s.Kept Q) : (kdebugDone data absent s).Kept Q := by
  unfold kdebugDone; simp [State.Kept, hk]

@[simp] theorem kdebugEnd_kept (s : State) (hk : s.Kept Q) : (kdebugEnd s).Kept Q := by
  unfold kdebugEnd; split <;> simp [State.Kept, hk]

@[simp] theorem kestrelDrvEnd_kept (k : KIdx) (s : State) (hk : s.Kept Q) : (kestrelDrvEnd k s).Kept Q := by
  unfold kestrelDrvEnd; repeat' first | (simp [State.Kept, hk]; done) | split

@[simp] theorem idle_kept (s : State) (hk : s.Kept Q) : (idle s).Kept Q := by
  unfold idle; simp [State.Kept, hk]

end Sys2Proof.Machine
end

