-- ==== Sys2Proof/Laws/Kestrel.lean ====
section
/-! SUPPORT. What the shared operations of a kestrel's instructions do: its place in the state, what follows an instruction,
traps, and the store buffer. -/

namespace Sys2Proof.Machine

/-! ## One kestrel in the state -/

theorem vget_vmod {α : Type} {n : Nat} (v : Vector α n) (i j : Nat) (f : α → α) (d : α) (h : i < n) :
    vget (vmod v i f) j d = if j = i then f (vget v i d) else vget v j d := by
  have hi : v[i]? = some v[i] := by simp [h]
  simp only [vget, vmod, hi]
  by_cases hj : j = i
  · subst hj; simp [h]
  · simp [hj, Ne.symm hj]

theorem kes_modK (k : KIdx) (j : Nat) (f : Kestrel → Kestrel) (s : State) :
    kes (modK k f s) j = if j = k.val then f (kes s k) else kes s j := vget_vmod _ _ _ _ _ k.isLt

@[simp] theorem kes_modK_self (k : KIdx) (f : Kestrel → Kestrel) (s : State) : kes (modK k f s) k = f (kes s k) := by
  simp [kes_modK]

/-! ## The timers that a halt freezes (R381) -/

/-- `u` differs from `s` by the counts of timers that kestrel `k` owns with FRZ = 1. -/
def Froze (k : Nat) (s u : State) : Prop :=
  u = { s with gpt := u.gpt, free := u.free } ∧
    ∀ n : Nat, n < 8 → fld (gpt s n).cfg 25 2 ≠ k ∨ bit (gpt s n).cfg 27 = false → gpt u n = gpt s n

theorem Froze.trans {k : Nat} {s u t : State} (h : Froze k s u) (g : Froze k u t) : Froze k s t := by
  refine ⟨by rw [g.1, h.1], fun n hn hc => ?_⟩
  rw [g.2 n hn (by rw [h.2 n hn hc]; exact hc), h.2 n hn hc]

theorem stopCount_froze (k n : Nat) (s : State) (hn : n < 8)
    (hc : (bit (gpt s n).cfg 31 && bit (gpt s n).cfg 27 && fld (gpt s n).cfg 25 2 == k) = true) :
    Froze k s (stopCount n s) := by
  simp only [Bool.and_eq_true, beq_iff_eq] at hc
  simp only [stopCount, freeCount]
  split
  · refine ⟨rfl, fun m hm hd => ?_⟩
    simp only [gpt, modGpt] at hc hd ⊢
    rw [vget_vmod _ _ _ _ _ hn]
    split
    · rename_i he; subst he; rcases hd with hd | hd
      · exact absurd hc.2 hd
      · rw [hc.1.2] at hd; simp at hd
    · rfl
  · exact ⟨rfl, fun _ _ _ => rfl⟩

theorem freezeTimers_froze (k : Nat) (s : State) : Froze k s (freezeTimers k s) := by
  have main (l : List Nat) (hl : ∀ n ∈ l, n < 8) (s : State) : Froze k s (l.foldl (fun s n =>
      let t := gpt s n
      if bit t.cfg 31 && bit t.cfg 27 && fld t.cfg 25 2 == k then stopCount n s else s) s) := by
    induction l generalizing s with
    | nil => exact ⟨rfl, fun _ _ _ => rfl⟩
    | cons a l ih =>
      refine Froze.trans ?_ (ih (fun n hn => hl n (by simp [hn])) _)
      simp only
      split
      · rename_i hc; exact stopCount_froze k a s (hl a (by simp)) hc
      · exact ⟨rfl, fun _ _ _ => rfl⟩
  exact main _ (by simp) s

/-! ## Raising a cause -/

theorem bit_setBit {n : Nat} (w : BitVec n) (i j : Nat) (b : Bool) (hi : i < n) :
    bit (setBit w i b) j = if j = i then b else bit w j := by
  obtain ⟨q, hq⟩ : ∃ q, q = w.toNat / 2 ^ (i + 1) := ⟨_, rfl⟩
  have hw : w.toNat = 2 ^ i * (q * 2 + (w.toNat / 2 ^ i) % 2) + w.toNat % 2 ^ i := by
    have h1 : w.toNat / 2 ^ i / 2 = q := by rw [hq, Nat.div_div_eq_div_mul, ← Nat.pow_succ]
    have h2 := Nat.div_add_mod (w.toNat / 2 ^ i) 2
    have h3 := Nat.div_add_mod w.toNat (2 ^ i)
    rw [h1] at h2
    have : q * 2 + w.toNat / 2 ^ i % 2 = w.toNat / 2 ^ i := by omega
    rw [this]; exact h3.symm
  have hlt : w.toNat % 2 ^ i < 2 ^ i := Nat.mod_lt _ (Nat.two_pow_pos i)
  have hs : (setBit w i b).toNat = (2 ^ i * (q * 2 + b.toNat) + w.toNat % 2 ^ i) % 2 ^ n := by
    simp only [setBit, setFld, BitVec.toNat_ofNat, ← hq, pow_one]
    congr 1
    cases b <;> simp [Nat.pow_succ] <;> ring
  by_cases hj : j < n
  · simp only [bit, BitVec.getLsbD, hs, Nat.testBit_mod_two_pow, hj, decide_true, Bool.true_and]
    rw [Nat.testBit_two_pow_mul_add _ hlt]
    conv_rhs => rw [hw, Nat.testBit_two_pow_mul_add _ hlt]
    by_cases h1 : j < i
    · simp [h1]; omega
    · simp only [h1, if_false]
      by_cases h2 : j = i
      · subst h2
        cases b <;> simp [Nat.testBit_zero]
      · obtain ⟨m, hm⟩ : ∃ m, j - i = m + 1 := ⟨j - i - 1, by omega⟩
        have e1 : (q * 2 + b.toNat) / 2 = q := by cases b <;> (simp; try omega)
        have e2 : (q * 2 + w.toNat / 2 ^ i % 2) / 2 = q := by omega
        simp only [h2, if_false, hm, Nat.testBit_succ, e1, e2]
  · have : j ≠ i := by omega
    simp [bit, BitVec.getLsbD_of_ge _ _ (Nat.le_of_not_lt hj), this]

theorem raised_setIsr (c d : Cause) (h : HostBus) :
    bit (setIsr d.num h).isr c.num = (c == d || bit h.isr c.num) := by
  rw [setIsr, bit_setBit _ _ _ _ (by cases d <;> decide)]
  by_cases hc : c = d
  · simp [hc]
  · have : c.num ≠ d.num := by cases c <;> cases d <;> first | (exact absurd rfl hc) | decide
    simp [hc, this]

/-- A raised cause reads 1, and every other keeps what it reads or is the log-full cause. -/
theorem raiseWith_isr (c d : Cause) (w : Word) (pb : Option Nat) (s : State) :
    bit (raiseWith d w pb s).host.isr c.num = true ↔
      c = d ∨ bit s.host.isr c.num = true ∨
        (c = .mgmt ∧ (s.mgt.log.length < 63 && (raiseWith d w pb s).mgt.log.length == 63) = true) := by
  simp only [raiseWith]
  generalize (if d.logged = true then logEvent d.num w s.chn.ctime s.mode.code s.mgt else s.mgt) = m
  split
  · rename_i h
    rw [raised_setIsr, Bool.or_eq_true, raised_setIsr, Bool.or_eq_true]
    simp [h]; tauto
  · rename_i h
    rw [raised_setIsr, Bool.or_eq_true]
    simp [h]

/-- KHALT is not logged. -/
theorem raise_khalt (s : State) : raise .khalt s = { s with host := setIsr 9 s.host } := by
  have : ¬((s.mgt.log.length < 63 && s.mgt.log.length == 63) = true) := by simp; omega
  simp [raise, raiseWith, Cause.logged, Cause.pendBit, Cause.num, this]

/-! ## Debug halt, and what follows an instruction (R291-R295) -/

/-- `t` differs from `s` in kestrel `k`, an ISR bit, and timers that a halt of `k` freezes. -/
def HaltOnly (k : KIdx) (s t : State) : Prop :=
  t = { s with kst := t.kst, host := { s.host with isr := t.host.isr }, gpt := t.gpt, free := t.free } ∧
    (∀ j : KIdx, j ≠ k → kes t j = kes s j) ∧
    ∀ n : Nat, n < 8 → fld (gpt s n).cfg 25 2 ≠ k.val ∨ bit (gpt s n).cfg 27 = false → gpt t n = gpt s n

theorem modK_haltOnly (k : KIdx) (f : Kestrel → Kestrel) (s : State) : HaltOnly k s (modK k f s) :=
  ⟨rfl, fun j hj => by rw [kes_modK, if_neg (fun h => hj (Fin.ext h))], fun _ _ _ => rfl⟩

theorem HaltOnly.trans {k : KIdx} {s u t : State} (h : HaltOnly k s u) (g : HaltOnly k u t) : HaltOnly k s t := by
  refine ⟨?_, fun j hj => by rw [g.2.1 j hj, h.2.1 j hj], fun n hn hc => ?_⟩
  · rw [g.1, h.1]
  · rw [g.2.2 n hn (by rw [h.2.2 n hn hc]; exact hc), h.2.2 n hn hc]

theorem debugHalt_spec (k : KIdx) (cause : BitVec 3) (s : State) :
    HaltOnly k s (debugHalt k cause s) ∧ raised .khalt (debugHalt k cause s) = true ∧
      kes (debugHalt k cause s) k = { (kes s k).dropWait with
        halted := true, hcause := cause, haltReq := false, stepping := false, skipBrk := false } := by
  unfold debugHalt
  rw [raise_khalt]
  obtain ⟨h1, h2⟩ := freezeTimers_froze k { (modK k (fun c => { c.dropWait with halted := true, hcause := cause, haltReq := false, stepping := false, skipBrk := false }) s) with
    host := setIsr 9 (modK k (fun c => { c.dropWait with halted := true, hcause := cause, haltReq := false, stepping := false, skipBrk := false }) s).host }
  refine ⟨⟨by rw [h1]; rfl, fun j hj => ?_, fun n hn hc => ?_⟩, ?_, ?_⟩
  · rw [h1]; exact (modK_haltOnly k _ s).2.1 j hj
  · exact h2 n hn hc
  · rw [h1]; simp only [raised]
    exact (raised_setIsr .khalt .khalt _).trans (by simp)
  · rw [h1]; exact kes_modK_self k _ s

/-- After an instruction of a kestrel that nothing stops (R292-R294). -/
theorem afterInstr_spec (k : KIdx) (s : State) (hg : Going s k) (hw : (kes s k).wait = .none) :
    HaltOnly k s (afterInstr k s) ∧ GoesOn k (kes s k) s (afterInstr k s) := by
  obtain ⟨h1, h2, h3⟩ := hg
  have hi : (kes s k).inside = false := by simp [Kestrel.inside, hw]
  obtain ⟨u, hu⟩ : ∃ u, u = when (kes s k).parkReq (modK k fun c => { c with parked := true, parkReq := false }) s := ⟨_, rfl⟩
  have hk : kes u k = { kes s k with parked := (kes s k).parked || (kes s k).parkReq, parkReq := false } := by
    rw [hu, when]
    split
    · rename_i h; simp [h]
    · rename_i h; simp only [Bool.not_eq_true] at h; rw [Bool.or_eq_left_iff_imp.2 (by simp [h])]
      conv_lhs => rw [show kes s k = { kes s k with parkReq := (kes s k).parkReq } from rfl, h]
  have hH : HaltOnly k s u := by
    rw [hu, when]
    split
    · exact modK_haltOnly k _ s
    · exact ⟨rfl, fun _ _ => rfl, fun _ _ _ => rfl⟩
  have hgpt : u.gpt = s.gpt ∧ u.free = s.free := by rw [hu, when]; split <;> exact ⟨rfl, rfl⟩
  have hd (c : BitVec 3) := debugHalt_spec k c u
  have hwu : (kes u k).wait = .none := by rw [hk]; exact hw
  have hdrop : (kes u k).dropWait = kes u k := by simp [Kestrel.dropWait, hwu]
  have ha : afterInstr k s = if (kes s k).haltReq then debugHalt k 0 u else if (kes s k).stepping then debugHalt k 3 u
      else modK k (fun c => { c with skipBrk := false }) u := by
    simp [afterInstr, h1, h2, h3, hi, hu]
  rw [ha]
  by_cases hr : (kes s k).haltReq = true
  · rw [if_pos hr]
    obtain ⟨a, b, c⟩ := hd 0
    refine ⟨hH.trans a, fun h => by simp [hr] at h, fun _ => ⟨b, ?_, fun n hn => ?_⟩⟩
    · rw [c, hdrop, hk]; simp [hr]
    · exact (hH.trans a).2.2 n n.isLt hn
  · rw [if_neg hr]
    by_cases hs : (kes s k).stepping = true
    · rw [if_pos hs]
      obtain ⟨a, b, c⟩ := hd 3
      refine ⟨hH.trans a, fun _ h => by simp [hs] at h, fun _ => ⟨b, ?_, fun n hn => ?_⟩⟩
      · rw [c, hdrop, hk]; simp [hr]
      · exact (hH.trans a).2.2 n n.isLt hn
    · rw [if_neg hs]
      refine ⟨hH.trans (modK_haltOnly k _ u), fun _ _ => ⟨?_, hgpt⟩, fun h => by simp [hr, hs] at h⟩
      rw [kes_modK_self, hk]

/-- An instruction completes as `f` says, for an `f` that leaves the controls of the kestrel alone. -/
theorem complete_spec (k : KIdx) (f : Kestrel → Kestrel) (s : State) (hg : Going (modK k f s) k)
    (hw : (f (kes s k)).wait = .none) :
    HaltOnly k s (complete k f s) ∧ GoesOn k (f (kes s k)) s (complete k f s) := by
  have h := afterInstr_spec k (modK k f s) hg (by rw [kes_modK_self]; exact hw)
  rw [kes_modK_self] at h
  exact ⟨(modK_haltOnly k f s).trans h.1, h.2⟩

/-! ## Reads of memory -/

/-- A read that finds no uncorrectable word changes only ECC counters, a cause and the log. -/
theorem memReadEffect_frame (src : BitVec 4) (a : Nat) (s : State) (h : eccMarker (rawWord s.mem a) = false) :
    memReadEffect src a s = { s with ecc := (memReadEffect src a s).ecc
                                     host := { s.host with isr := (memReadEffect src a s).host.isr } } ∧
      (eccClass (rawWord s.mem a) ≠ .corrected → memReadEffect src a s = s) := by
  unfold memReadEffect
  split
  · exact ⟨rfl, fun _ => rfl⟩
  · simp only
    split
    · exact ⟨rfl, fun _ => rfl⟩
    · exact ⟨rfl, fun _ => rfl⟩
    · rename_i hc
      refine ⟨?_, fun h => absurd hc h⟩
      unfold when
      split
      · have : ¬((s.mgt.log.length < 63 && s.mgt.log.length == 63) = true) := by simp; omega
        simp [raise, raiseWith, Cause.logged, Cause.pendBit, setIsr, this]
      · rfl
    · rename_i hc; simp [eccMarker, hc] at h

/-! ## One instruction -/

theorem Going.modK {k : KIdx} {f : Kestrel → Kestrel} {s : State}
    (hf : (f (kes s k)).rst = false ∧ (f (kes s k)).halted = false ∧ (f (kes s k)).dfault = false) : Going (modK k f s) k := by
  simpa [Going] using hf

theorem Executes.going {s : State} {k : KIdx} {i : KInstr} (h : Executes s k i) :
    Going s k ∧ (kes s k).wait = .none ∧ (kes s k).parked = false := by
  obtain ⟨h, -, -⟩ := h
  simp only [kIssues, kReady, Bool.and_eq_true, Bool.not_eq_true', decide_eq_true_eq] at h
  exact ⟨⟨h.1.1.1.1.1.1.1.2, h.1.1.1.1.1.2, h.1.1.1.2⟩, h.1.2, h.1.1.1.1.2⟩

/-- What the fetch of an instruction leaves (R267, R302). -/
theorem fetch_frame {s : State} {k : KIdx} (h : (fetched s k).2 = false) :
    let t := memReadEffect (kSrc k) (fetchAddr s k) s
    t = { s with ecc := t.ecc, host := { s.host with isr := t.host.isr } } ∧
      (eccClass (rawWord s.mem (fetchAddr s k)) ≠ .corrected → t.ecc = s.ecc) := by
  have h := memReadEffect_frame (kSrc k) (fetchAddr s k) s (by simpa [fetched, memWord32, memData] using h)
  exact ⟨h.1, fun hc => by rw [h.2 hc]⟩

theorem GoesOn.congr {k : KIdx} {c : Kestrel} {u s t : State} (h : GoesOn k c u t) (hg : u.gpt = s.gpt)
    (hf : u.free = s.free) : GoesOn k c s t := by
  have e (n : Nat) : gpt u n = gpt s n := by simp [gpt, hg]
  simpa [GoesOn, hg, hf, e] using h

/-- A row whose instruction stands at PC executes it on the state that the fetch leaves. -/
theorem kRun_spec {s : State} {k : KIdx} {i : KInstr} (sel : KInstr → Option (Word → State → State)) (f : Word → State → State)
    (h : Executes s k i) (hs : sel i = some f) :
    kRun k sel s = f (fetched s k).1 (memReadEffect (kSrc k) (fetchAddr s k) s) := by
  obtain ⟨h1, h2, h3⟩ := h
  simp [kRun, h1, h2, h3, hs]

/-- A change of kestrel `k` on the state that its fetch leaves touches nothing else. -/
theorem HaltOnly.onlyKestrel {s t : State} {k : KIdx} (h : (fetched s k).2 = false)
    (ht : HaltOnly k (memReadEffect (kSrc k) (fetchAddr s k) s) t) : OnlyKestrel k s t ∧ t.mgt = s.mgt := by
  obtain ⟨h1, h2⟩ := fetch_frame h
  obtain ⟨g1, g2, -⟩ := ht
  refine ⟨⟨?_, ?_, fun hc => ?_, fun j hj => ?_⟩, ?_⟩
  · rw [g1, h1]
  · rw [g1, h1]
  · rw [← h2 hc]; rw [g1]
  · rw [g2 j hj, h1]; rfl
  · rw [g1, h1]

/-- An instruction that changes its registers and completes. -/
theorem complete_wrote {s : State} {k : KIdx} {i : KInstr} (h : Executes s k i) (rd : Fin 16) (v : Word) (m : Bool)
    (pc : BitVec 14) (n : Nat) :
    Wrote k rd v m pc s (complete k (fun c => (c.setReg rd v m).done pc n) (memReadEffect (kSrc k) (fetchAddr s k) s)) := by
  obtain ⟨hg, hw, hp⟩ := h.going
  obtain ⟨h1, h2⟩ := fetch_frame h.2.2
  generalize hu : memReadEffect (kSrc k) (fetchAddr s k) s = u at h1 h2 ⊢
  have hk (j : Nat) : kes u j = kes s j := by rw [h1]; rfl
  have hset (c : Kestrel) : (c.setReg rd v m) = { c with regs := (c.setReg rd v m).regs, mark := (c.setReg rd v m).mark } := by
    unfold Kestrel.setReg; split <;> rfl
  have hd (c : Kestrel) : (c.setReg rd v m).done pc n = { c with
      regs := (c.setReg rd v m).regs, mark := (c.setReg rd v m).mark, pc := pc, cyc := c.cyc + BitVec.ofNat 64 n } := by
    rw [Kestrel.done]; rw [hset c]
  have hc := complete_spec k (fun c => (c.setReg rd v m).done pc n) u
    (Going.modK (by simp only [hd, hk]; exact hg)) (by simp only [hd, hk]; exact hw)
  generalize complete k (fun c => (c.setReg rd v m).done pc n) u = t at hc
  obtain ⟨c1, c2⟩ := hc
  rw [hk, hd] at c2
  have ho := HaltOnly.onlyKestrel h.2.2 (hu ▸ c1)
  have hreg : (kes t k).regs = ((kes s k).setReg rd v m).regs ∧ (kes t k).mark = ((kes s k).setReg rd v m).mark ∧
      (kes t k).cyc = (kes s k).cyc + BitVec.ofNat 64 n ∧ (kes t k).sbuf = (kes s k).sbuf := by
    by_cases hq : (kes s k).haltReq = true ∨ (kes s k).stepping = true
    · have := (c2.2 hq).2.1; rw [this]; exact ⟨rfl, rfl, rfl, rfl⟩
    · simp only [not_or, Bool.not_eq_true] at hq
      have := (c2.1 hq.1 hq.2).1; rw [this]; exact ⟨rfl, rfl, rfl, rfl⟩
  refine ⟨ho.1, ho.2, hreg.2.2.2, ?_, by rw [hreg.2.2.2], fun r => ?_⟩
  · rw [hreg.1, hreg.2.1, hreg.2.2.1, hreg.2.2.2]
    rw [hw] at c2
    exact c2.congr (by rw [h1]) (by rw [h1])
  · simp only [Kestrel.reg, Kestrel.bad, hreg.1, hreg.2.1, Kestrel.setReg]
    by_cases hr : rd = 0
    · subst hr; by_cases h0 : r = 0 <;> simp [h0]
    · simp only [hr, if_false]
      by_cases h0 : r = 0
      · simp [h0]
      · by_cases he : r = rd
        · subst he; simp [h0]
        · simp [h0, he]
          have : ¬ rd.val = r.val := fun h => he (Fin.ext h.symm)
          simp [this]

end Sys2Proof.Machine
end

