-- ==== Sys2Proof/Tests/Slice0.lean ====
section
/-! SUPPORT. Tests: the operand checks refuse ill-formed commands, single steps on small states with results taken from
the spec, and for each statement with hypotheses states that meet them. Each theorem is about at most one step. -/

namespace Sys2Proof.Tests

open Sys2Proof Sys2Proof.Machine

-- One proof at a time: each waits for the kernel, and many that wait at once take a thread each.
set_option Elab.async false

/-! ## Helpers -/

/-- The device in mode `m` with every domain ON, every peripheral enabled, every clock live, the islands on NOMINAL, locks set
and the link up. -/
def up (m : Mode) : State :=
  { State.reset with
    mode := { code := m, step := 5, done := true }
    gate := { pd := Vector.replicate 67 .on }
    ckp := { en := 63, lock := 31, live := Vector.replicate 10 true, xoq := true, iclk := Vector.replicate 7 { act := 0 } }
    sys := { dlink := true } }

/-- `up` with one domain in another state. -/
def upPd (m : Mode) (n : Fin 67) (x : PdState) : State :=
  { up m with gate := { pd := (Vector.replicate 67 .on).set n x } }

/-- Kestrel K0 of a running device about to execute the word `w`, the rest of it as `c`. -/
def kAt (w : Word) (c : Kestrel) : State :=
  { up .show with
    mem := putRaw {} 0x700000 (cleanCode (w.setWidth 64))
    kst := { core := (Vector.replicate 4 {}).set 0 { c with rst := false } } }

/-- A property of the next state that a command gives. -/
def gives (c : Instr) (s : State) (p : State → Bool) : Bool :=
  match exec c s with
  | .next t => p t
  | _ => false

/-! ## Operand checks (WellFormed.lean) -/

theorem test_wf_refuses_misaligned_register : (Instr.registerWrite (.internal .mgmt 0x201 0)).wf = false := by decide
theorem test_wf_refuses_cell_index :
    (Instr.streamCell ⟨0, false, 44544, true, Vector.replicate 72 0, false⟩).wf = false := by decide
theorem test_wf_refuses_misaligned_mews : (Instr.mewsAccess ⟨0, 0x01000001, none⟩).wf = false := by decide
theorem test_wf_refuses_long_packet : (Instr.dmxPacketEnd 0 (List.replicate 514 0) false).wf = false := by decide +kernel
theorem test_wf_refuses_long_label : (Instr.deviceLabelSet 0 ⟨0, 0, 0⟩ (List.replicate 33 0)).wf = false := by decide
theorem test_wf_accepts_last_cell :
    (Instr.streamCell ⟨0, false, 44543, true, Vector.replicate 72 0, false⟩).wf = true := by decide

/-! ## The table gives no row any bits -/

theorem test_table_words_spell_nothing (nbits w : Nat) : decodeTableWord nbits w = none := rfl
theorem test_place_word_changes_nothing : State.reset.withFetchWord 32 0 = State.reset := rfl

/-! ## Instruction words of the kestrels (Tables 11.1, 11.2), written out field by field: op, rd, ra, rb, fn -/

theorem test_word_add : kDecode 0b000000_0011_0001_0010_00000000_000000 = some (.alu .add 3 1 2) := by decide +kernel
theorem test_word_max : kDecode 0b000000_0011_0001_0010_00000000_001110 = some (.alu .max 3 1 2) := by decide +kernel
theorem test_word_reserved_fn : kDecode 0b000000_0011_0001_0010_00000000_001111 = none := by decide +kernel
theorem test_word_addk : kDecode 0b000001_0011_0001_111111111111111111 = some (.aluk .addk 3 1 0x3FFFF) := by decide +kernel
theorem test_word_khi : kDecode 0b001000_0011_0000000000000000000001 = some (.khi 3 1) := by decide +kernel
theorem test_word_call : kDecode 0b001010_1_0000000000000000000000010 = some (.go true 2) := by decide +kernel
theorem test_word_branch : kDecode 0b001101_100_0001_0010_000000000000011 = some (.br .ltu 1 2 3) := by decide +kernel
theorem test_word_load : kDecode 0b010010_0011_0001_010_000000000000100 = some (.ld .hu 3 1 4) := by decide +kernel
theorem test_word_store : kDecode 0b010011_0011_0001_011_000000000000100 = some (.st .b 3 1 4) := by decide +kernel
theorem test_word_cas : kDecode 0b011011_0011_0001_0010_00000000_000000 = some (.cas 3 1 2) := by decide +kernel
theorem test_word_fence : kDecode 0b011100_00000000000000000000000000 = some .fence := by decide +kernel
theorem test_word_fence_operand : kDecode 0b011100_00000000000000000000000001 = none := by decide +kernel
theorem test_word_spr : kDecode 0b011101_0011_0001_01_0000_000100110011 = some (.spr .wr 3 1 0x133) := by decide +kernel
theorem test_word_post : kDecode 0b100000_0000_1100_000000000000000000 = some (.post 12) := by decide +kernel
theorem test_word_post_too_high : kDecode 0b100000_0000_1101_000000000000000000 = none := by decide +kernel

/-! ## Codes and numbers -/

/-- The check value of CRC-32C, of the digits 1 to 9. -/
theorem test_crc32c_check_value :
    crc32c [0x31, 0x32, 0x33, 0x34, 0x35, 0x36, 0x37, 0x38, 0x39] = 0xE3069283 := by decide +kernel

/-- The example of FIPS 197, decrypted. -/
theorem test_aes_decrypts : aesDecrypt 0x2b7e151628aed2a6abf7158809cf4f3c (beBytes 16 0x3925841d02dc09fbdc118597196a0b32) =
    0x3243f6a8885a308d313198a2e0370734 := by decide +kernel

/-- The 40-byte example of NIST SP 800-38B, and the empty message. -/
theorem test_cmac :
    aesCmac 0x2b7e151628aed2a6abf7158809cf4f3c
      (beBytes 40 0x6bc1bee22e409f96e93d7e117393172aae2d8a571e03ac9c9eb76fac45af8e5130c81c46a35ce411) =
        0xdfa66747de9ae63030ca32611497c827 ∧
    aesCmac 0x2b7e151628aed2a6abf7158809cf4f3c [] = 0xbb1d6929e95937287fa37d129b756746 := by decide +kernel

/-- The example of FIPS 180-4: the digest of "abc". -/
theorem test_sha256 : sha256 [0x61, 0x62, 0x63] =
    0xba7816bf8f01cfea414140de5dae2223b00361a396177a9cb410ff61f20015ad := by decide +kernel

/-- R300: one flipped bit is corrected, two are not. -/
theorem test_ecc_single_and_double :
    eccClass (cleanCode 0x123456789ABCDEF0 ^^^ 0x10) = .corrected ∧
      eccClass (cleanCode 0x123456789ABCDEF0 ^^^ 0x11) = .uncorrectable := by decide +kernel

/-! ## Single steps -/

/-- R55: MEMTEST is skipped after KEEP; R47: the soft reset sets bit 2 and keeps the others. -/
theorem test_soft_reset_cause : gives (.softReset true) (up .show) (fun t =>
    t.mode.rstcause == 0b0000101 && t.mode.keepBoot && t.mode.code == .boot) = true := by decide +kernel

/-- R44: a pulse of 99 ns does nothing. -/
theorem test_short_pulse_ignored : gives (.pinReset 99) (up .show) (fun t => t.mode.code == .show) = true := by decide +kernel

/-- R38: a second request supersedes the first. -/
theorem test_request_superseded : gives .requestSolo { up .show with mode := { code := .show, pend := true, pcode := 2 } }
    (fun t => t.mode.pcode == 5 && t.mode.result == 3) = true := by decide +kernel

/-- R402: a sag in SHOW enters ROOST. -/
theorem test_sag_enters_roost : gives .sag (up .show) (fun t => t.mode.code == .roost && t.mode.busy) = true := by decide +kernel

/-- R92: PD0 is refused by RULE (3). -/
theorem test_gate_down_pd0 : gives (.gateDown (.window 0) 0) (up .service) (fun t =>
    t.gate.result == 3 && t.gate.pd[0] == .on && !t.gate.busy) = true := by decide +kernel

/-- Table 4.3: UP of a domain that is OFF begins a power-up (PHASE 5). -/
theorem test_gate_up_off : gives (.gateUp (.window 0) 60) (upPd .service 60 .off) (fun t =>
    t.gate.phase == 5 && t.gate.busy && t.gate.pd[60] == .transit) = true := by decide +kernel

/-- R129: HB_ISR is cleared by writing ones. -/
theorem test_isr_write_one_clears : gives (.registerWrite (.host (.write 8 0x0003)))
    { up .show with host := { isr := 0x00010007 } } (fun t => t.host.isr == 0x00010004) = true := by decide +kernel

/-- R121: the high half completes the word written through the window. -/
theorem test_window_write : gives (.windowDataHiWrite 0 0x1234)
    { up .show with host := { win := #v[{ addr := 0x200, staging := 0x5678, staged := true }, {}] } }
    (fun t => (win t 0).acc.map (fun x => (x.addr, x.data, x.adm)) == some (0x200, some 0x12345678, .data)) = true := by decide +kernel

/-- R131: the eighth half-word posts the event. -/
theorem test_eighth_half_posts : gives (.eventPostHalf 0)
    { up .show with host := { evStage := List.replicate 7 0 } }
    (fun t => t.host.evFifo.length == 1 && t.host.evStage.isEmpty) = true := by decide +kernel

/-- R135: a wrong key is no kick. -/
theorem test_owl_bad_key : gives (.owlKick (.key 0x1234)) (up .show) (fun t => t.owl.badkick && !t.owl.lastKick) = true := by
  decide +kernel

/-- R138: the key 0x6F77 lifts the owl hood. -/
theorem test_owl_kick : gives (.owlKick (.key 0x6F77)) { up .show with owl := { hooded := true, strike := true } }
    (fun t => !t.owl.hooded && !t.owl.strike) = true := by decide +kernel

/-- R262: a commit during a migration is held. -/
theorem test_commit_held : gives .epochCommit { up .show with epoch := { mig := true } } (fun t =>
    t.epoch.held && !t.epoch.snap) = true := by decide +kernel

/-- R150: after the slowest rate the search goes on at RATEMAX. -/
theorem test_rate_wraps : gives (.laneRateTimeout 0 1)
    { up .show with lanes := { port := (Vector.replicate 2 {}).set 0 { rx := #v[{}, { st := .hunt, rate := 2 }] } } }
    (fun t => ((lport t 0).lane 1).rate == (lport t 0).ratemax) = true := by decide +kernel

/-- R326: a temperature report is taken by merge. -/
theorem test_temp_report : gives (.tempReport 85) (up .show) (fun t => t.mrg.tdie == 85 && t.mrg.newT) = true := by
  decide +kernel

/-- ADD: 5 + 7 = 12, and PC goes on by 4. -/
theorem test_add : gives (.kAdd 0) (kAt 0x00C48000 { regs := ((Vector.replicate 16 0).set 1 5).set 2 7 })
    (fun t => (kes t 0).reg 3 == 12 && (kes t 0).pc == 4) = true := by decide +kernel

/-- ADD wraps at 32 bits. -/
theorem test_add_wraps : gives (.kAdd 0) (kAt 0x00C48000 { regs := ((Vector.replicate 16 0).set 1 0xFFFFFFFF).set 2 1 })
    (fun t => (kes t 0).reg 3 == 0) = true := by decide +kernel

/-- MHI takes the high word of the signed product: -1 times 1 gives all ones. -/
theorem test_mhi_signed :
    gives (.kMhi 0) (kAt 0x00C4800B { regs := ((Vector.replicate 16 0).set 1 0xFFFFFFFF).set 2 1 })
      (fun t => (kes t 0).reg 3 == 0xFFFFFFFF) = true := by decide +kernel

/-- k0 discards what is written to it. -/
theorem test_k0_discards : gives (.kAddk 0) (kAt 0x04000007 {}) (fun t => (kes t 0).reg 0 == 0 && (kes t 0).pc == 4) = true := by
  decide +kernel

/-- R268: after 0x3FFC comes 0. -/
theorem test_pc_wraps : gives (.kAddk 0)
    { kAt 0x04C40001 { pc := 0x3FFC } with mem := { words := [(0xE07FF, cleanCode (0x04C40001 <<< 32))] } }
    (fun t => (kes t 0).pc == 0 && (kes t 0).reg 3 == 1) = true := by decide +kernel

/-- R274: an undecodable word traps with cause 1. -/
theorem test_illegal_traps : gives (.illegalInstruction 0) (kAt 0xFFFFFFFF { tentry := 0x100 }) (fun t =>
    (kes t 0).tcause == 1 && (kes t 0).pc == 0x100 && (kes t 0).tinfo == 0xFFFFFFFF && (kes t 0).intrap) = true := by
  decide +kernel

/-- R295: a trap inside a trap is DFAULT. -/
theorem test_double_fault : gives (.illegalInstruction 0) (kAt 0xFFFFFFFF { intrap := true }) (fun t =>
    (kes t 0).dfault && (kes t 0).halted && (kes t 0).hcause == 4) = true := by decide +kernel

/-- R331: a pulse of 3 cycles is not sent but kept in the accumulator, and one that makes it 8 is sent as 8. -/
theorem test_short_pulse_carried : pulse 0 3 = (3, 0, true) ∧ pulse 5 3 = (0, 8, false) := by decide +kernel

/-- R325: sums clamp at full scale. -/
theorem test_sum_clamps : combine true [0xFFFFFF, 1] = 0xFFFFFF := by decide +kernel

/-- R380: toggle. -/
theorem test_flip_flop_toggles : flipFlop 3 true = false ∧ flipFlop 3 false = true := by decide +kernel

/-- R433: an update while an access is in progress issues nothing. -/
theorem test_kdebug_busy : gives (.kdebugUpdate 0)
    { up .show with jtag := { ir := .kdebug, acc := some { addr := 0x100, data := none, adm := .data } } }
    (fun t => t.jtag.acc == some { addr := 0x100, data := none, adm := .data }) = true := by decide +kernel

/-! ## States that meet the hypotheses of the statements (Certificates/Slice0/Obligations.lean) -/

/-- `up` with a changed mode controller. -/
def upMode (x : ModeCtl) : State := { up .show with mode := x }

/-- `up` with a changed CKP. -/
def upCkp (x : Ckp) : State := { up .show with ckp := x }

/-- `up` with changed lanes. -/
def upPort (m : Mode) (x : LanePort) (y : LanePort) : State := { up m with lanes := { port := #v[x, y] } }

/-- A lane port whose lanes are both in READY, aligned and without a defect. -/
def goodPort : LanePort :=
  { rx := Vector.replicate 2 { st := .ready, los := false, locked := true }, aligned := true, tap := true, state := .up
    repeating := true }

theorem witness_StepRunsFrontCommand : ((up .show).setPending [.powerGood, .sag]).pending = [.powerGood, .sag] := rfl

theorem witness_EmptyQueueRunsOwlCountOnly :
    (let s : State := { State.reset with owl := { cfg := 0x857D, count := 1 } }; s.pending = [] ∧ owlRuns s = true) ∧
      (State.reset.pending = [] ∧ owlRuns State.reset = false) := by decide +kernel

theorem witness_CommandsLeaveQueueAlone : ∃ t, exec .sag (up .show) = .next t := ⟨_, rfl⟩

theorem witness_EveryStepKeepsMemoryForm :
    (kAt 0x00C48000 {}).mem.wf = true ∧ ∃ t, step ((kAt 0x00C48000 {}).setPending [.kAdd 0]) = .next t :=
  ⟨by decide +kernel, _, rfl⟩

theorem witness_EveryStepKeepsAonOn :
    (up .show).gate.aonOn = true ∧ ∃ t, step ((up .show).setPending [.gateDown (.window 0) 60]) = .next t :=
  ⟨by decide +kernel, _, rfl⟩

theorem witness_PowerSupplyEventsReset : (upMode { inPor := true }).mode.inPor = true := by decide +kernel

theorem witness_PinResetByPulseWidth :
    (up .show).mode.inPor = false ∧ (up .show).mode.code ≠ .roost ∧ (99 < 100 ∧ 1000 ≤ 1000 ∧ 100 ≤ 100 ∧ 999 < 1000) := by
  decide +kernel

theorem witness_ResetsRecordTheirCause :
    ((up .show).mode.inPor = false ∧ (lateTime (up .show)).mode.inPor = false ∧ (lateTime (up .show)).mode.code ≠ .roost ∧
      (lateTime (up .show)).mode.code ≠ .dormant ∧ aonAnswers (lateTime (up .show)) = false) ∧
    (let s : State := { up .show with owl := { cfg := 0xC57D } }; owlRuns s = true ∧ fld s.owl.cfg 13 2 = 2) ∧
    (let s : State := { up .show with owl := { cfg := 0xE57D, strike := true } }
     owlRuns s = true ∧ fld s.owl.cfg 13 2 = 3 ∧ s.owl.strike = true) ∧
    (let s := upMode { code := .roost, captured := true }; s.mode.code = .roost ∧ s.mode.captured = true) ∧
    (let s := upMode { code := .dormant, bootcfg := 0x0200, roostSleep := true }
     s.mode.code = .dormant ∧ s.mode.busy = false ∧ s.mode.inPor = false ∧ bit s.mode.bootcfg 9 = true ∧
       s.mode.roostSleep = true) := by decide +kernel

theorem witness_SoftResetKeepsRepeatPath :
    (up .relay).mode.inPor = false ∧ (lateTime (up .relay)).mode.inPor = false ∧ (lateTime (up .relay)).mode.code ≠ .roost ∧
      (lateTime (up .relay)).mode.code ≠ .dormant := by decide +kernel

theorem witness_WakeLeavesDormant :
    let s := upMode { code := .dormant, bootcfg := 0x0300, roostSleep := true }
    s.mode.code = .dormant ∧ s.mode.busy = false ∧ s.mode.inPor = false ∧ bit s.mode.bootcfg 9 = true ∧
      s.mode.roostSleep = true ∧ false ≠ bit s.mode.bootcfg 8 := by decide +kernel

theorem witness_BootStepsFollowInOrder :
    inStep State.reset 0 = true ∧ (State.reset.mode.keepBoot = false ∧ modeDomain 46 = false) ∧
    (let s : State := { State.reset with mode := { keepBoot := true }, gate := { State.reset.gate with failed := 0x80 } }
     inStep s 0 = true ∧ s.mode.keepBoot = true ∧ failedDomain s 53 = true ∧ failedDomain s 52 = false) ∧
    (let s : State := { upMode { step := 1 } with ckp := { xoq := true, lock := 0x0C } }
     inStep s 1 = true ∧ s.ckp.xoq = true ∧ bit s.ckp.lock 2 = true ∧ bit s.ckp.lock 3 = true ∧ s.mode.clkfail = false) ∧
    (inStep (upMode { step := 1, clkfail := true }) 1 = true ∧ (upMode { step := 1, clkfail := true }).mode.clkfail = true) ∧
    (let s : State := { upMode { step := 1 } with ckp := {} }; inStep s 1 = true ∧ s.ckp.xoq = false) ∧
    (inStep (upMode { step := 2 }) 2 = true ∧ bit (0x80 : BitVec 8) 7 = true ∧ bit (0x8 : BitVec 4) 3 = true) ∧
    (let s : State := { upMode { step := 3 } with drv := { scanBusy := true, scanPos := 64 } }
     inStep s 3 = true ∧ s.drv.scanBusy = true ∧ s.drv.scanPos = 64) ∧
    inStep (upMode { step := 4 }) 4 = true ∧
    (inStep (upMode { step := 5, bootcfg := 0xE000 }) 5 = true ∧
      fld (upMode { step := 5, bootcfg := 0xE000 }).mode.bootcfg 12 4 ≠ 15) := by decide +kernel

theorem witness_LeavingBootChoosesMode :
    (let s := upMode { step := 5, pend := true, pcode := 5 }; s.mode.code = .boot ∧ s.mode.pend = true) ∧
    (let s : State := { upMode { step := 5 } with chn := { framesNow := true } }
     s.mode.code = .boot ∧ s.mode.pend = false ∧ (s.chn.framesNow || candidate? s) = true) ∧
    (let s : State := { upMode { step := 5 } with ros := { look := true } }
     s.mode.code = .boot ∧ s.mode.pend = false ∧ (s.chn.framesNow || candidate? s) = false ∧ s.ros.look = true) ∧
    (let s := upMode { step := 5 }
     s.mode.code = .boot ∧ s.mode.pend = false ∧ (s.chn.framesNow || candidate? s) = false ∧ s.ros.look = false) := by
  decide +kernel

theorem witness_ModeRequestIsStored :
    (let s := upMode { code := .show, pend := true }
     s.mode.inPor = false ∧ (lateTime s).mode.code ≠ .roost ∧ (lateTime s).mode.code ≠ .dormant ∧
       (lateTime s).mode.inPor = false ∧ (lateTime s).mode.code ≠ .boot ∧ (lateTime s).mode.pend = true ∧
       (lateTime s).mode.result ≠ 3) ∧
    (let s := upMode { code := .boot, step := 2 }
     s.mode.inPor = false ∧ (lateTime s).mode.code = .boot ∧ (lateTime s).mode.pend = false ∧ (lateTime s).mode.result ≠ 2 ∧
       Mode.show ≠ .solo ∧ Mode.show ≠ .service) ∧
    aonAnswers (lateTime (up .show)) = false := by decide +kernel

theorem witness_PendingRequestIsEvaluated :
    (let s := upMode { code := .show, pend := true, pcode := 5 }
     s.mode.code.running = true ∧ s.mode.busy = false ∧ s.mode.inPor = false ∧ s.mode.mgmtReq = none ∧ s.mode.pend = true ∧
       s.mode.pcode = BitVec.ofNat 3 Mode.solo.num ∧ admits s .solo = true ∧ Mode.solo ≠ s.mode.code ∧ s.mode.result ≠ 1) ∧
    (let s := upMode { code := .show, pend := true, mgmtReq := some 6 }
     s.mode.mgmtReq = some (BitVec.ofNat 3 Mode.service.num) ∧ admits s .service = true ∧ s.mode.pend = true) ∧
    (let s := upMode { code := .show, pend := true, pcode := 1 }
     s.mode.code.running = true ∧ s.mode.pcode = BitVec.ofNat 3 Mode.boot.num ∧ admits s .boot = false) ∧
    ((up .show).mode.pend = false ∧ (up .show).mode.mgmtReq = none ∧ (upMode { busy := true }).mode.busy = true) ∧
    (let s := upMode { step := 4 }; s.mode.code = .boot ∧ s.mode.busy = false ∧ s.mode.inPor = false ∧ s.mode.step ≠ 5) ∧
    (let s := upMode { step := 5, pend := true, pcode := 6 }; s.mode.code = .boot ∧ s.mode.step = 5 ∧ s.mode.pend = true) := by
  decide +kernel

theorem witness_TransitionsEndAndLeaveMuster :
    (let s := upMode { code := .show, busy := true, from_ := .muster }
     s.mode.busy = true ∧ entryWaits s = false ∧ s.mode.code = .show ∧ s.mode.from_.active = false ∧ s.mode.held = []) ∧
    (let s : State := { upMode { code := .muster, busy := true, from_ := .show } with
       gate := { pd := Vector.replicate 67 .off } }
     s.mode.busy = true ∧ entryWaits s = false ∧ s.mode.code = .muster ∧ s.mode.from_.active = true) ∧
    (let s : State := { upMode { code := .dormant, busy := true } with gate := {} }
     s.mode.busy = true ∧ entryWaits s = false ∧ s.mode.code = .dormant) ∧
    (∀ x ∈ [(Trigger.lost, Mode.muster), (.lost, .show), (.remuster, .relay), (.remuster, .show)],
      let s := upMode { code := x.2, busy := true, from_ := x.2, held := [x.1] }
      s.mode.busy = true ∧ entryWaits s = false ∧ s.mode.held = [x.1] ∧ s.mode.code = x.2) ∧
    (let s := upMode { code := .solo, busy := true, from_ := .show, held := [.candidate], bootcfg := 0x0400 }
     s.mode.busy = true ∧ entryWaits s = false ∧ s.mode.held = [.candidate] ∧ s.mode.code = .solo ∧
       bit s.mode.bootcfg 10 = true) ∧
    (let s := upMode { code := .muster, busy := true, from_ := .show }; s.mode.busy = true ∧ entryWaits s = true) ∧
    (let s : State := { upMode { code := .muster } with chn := { held := true, fixed := true, framesNow := true, lock := true } }
     s.mode.code = .muster ∧ s.mode.busy = false ∧ s.chn.held = true ∧ s.chn.fixed = true ∧ s.chn.framesNow = true ∧
       s.chn.lock = true) := by decide +kernel

theorem witness_SagSavesInRoost :
    ((up .show).mode.inPor = false ∧ (up .show).mode.code.running = true ∧ (up .show).gate.phase ≠ 1) ∧
    ((upMode { code := .show, mgmtReq := some 2 }).mode.mgmtReq ≠ none) ∧
    ((upMode { code := .boot }).mode.inPor = false ∧ (upMode { code := .boot }).mode.code = .boot) ∧
    (let s := upMode { code := .roost }; s.mode.code = .roost ∧ s.mode.busy = false ∧ s.mode.captured = false) ∧
    (let s := upMode { code := .roost, captured := true }; s.mode.code = .roost ∧ s.mode.captured = true) := by
  decide +kernel

/-- A CKP with the XO live, in run 3 of its qualification against the RCO. -/
def qualifying (q : Bool) (f : Nat) : Ckp :=
  { live := (Vector.replicate 10 false).set 0 true, xoq := q, run := 3, fails := f }

theorem witness_QualificationWindows :
    (comparatorRuns (upCkp (qualifying false 0)) = true ∧
      (qualifying false 0).windowPasses (qualifying false 0).runRef (xoExpected / 32) = true) ∧
    ((qualifying true 1).windowPasses .rco (0 : BitVec 24).toNat = false ∧ (qualifying true 1).xoq = true ∧
      1 ≤ (qualifying true 1).fails) ∧
    ((qualifying true 0).windowPasses .rco (0 : BitVec 24).toNat = false ∧ (qualifying true 0).fails = 0) ∧
    comparatorRuns (upMode { code := .boot, step := 0 }) = false := by decide +kernel

theorem witness_ClocksDieAndComeBack :
    (let s := up .show; pd1Up s = true ∧ s.ckp.isLive .core500 = true ∧ (s.ckp.icl 3).sw = none ∧
       sourceClk 3 (s.ckp.icl 3).act.toNat = some .core500 ∧ sourceClk 4 (s.ckp.icl 4).act.toNat ≠ some .core500) ∧
    (let s := upCkp { live := Vector.replicate 10 true, iclk := (Vector.replicate 7 {}).set 3 { act := 1 } }
     pd1Up s = true ∧ s.ckp.isLive .xo = true ∧ sourceClk 3 (s.ckp.icl 3).act.toNat = some .xo) ∧
    (let w : Switch := { dst := 1, div := 0, stopped := true, engaged := false, failover := false }
     let s := upCkp { live := Vector.replicate 10 true, iclk := (Vector.replicate 7 { act := 0 }).set 2 { act := 0, sw := some w } }
     (s.ckp.icl 2).sw = some w ∧ w.stopped = true ∧ sourceClk 2 w.dst.toNat = some .xo ∧ sourceClk 2 w.dst.toNat ≠ some .pwm) ∧
    (pd1Up (upPd .show 1 .off) = false ∧ (upCkp {}).ckp.isLive .xo = false ∧ (upPd .show 1 .off).ckp.isLive .xo = true) ∧
    (let s := upCkp { iclk := (Vector.replicate 7 {}).set 3 { waitsrc := true, cfg := 0x401 } }
     pd1Up s = true ∧ recoveredLocked .xo s = true ∧ s.ckp.isLive .xo = false ∧ (s.ckp.icl 3).sw = none ∧
       (s.ckp.icl 3).waitsrc = true ∧ sourceClk 3 (s.ckp.icl 3).src = some .xo) ∧
    (recoveredLocked .crw (up .show) = false ∧ recoveredLocked .cre (upPort .show goodPort goodPort) = true) ∧
    (pllStarted .core (upMode { step := 1 }) = true ∧ pllStarted .sdw (up .show) = true ∧ pllStarted .core (up .show) = false) ∧
    (let s := upCkp { en := 0x10 }; pd1Up s = true ∧ pllStarted .aud s = true ∧ (s.ckp.icl 6).act = 3) := by decide +kernel

/-- A CKP whose other islands stand on NOMINAL with island 2 as `i`. -/
def island2 (i : Iclk) : State :=
  upCkp { live := Vector.replicate 10 true, iclk := (Vector.replicate 7 { act := 0 }).set 2 i }

/-- A CKP with a switch of island 2 in progress. -/
def switching (w : Switch) (step : BitVec 3) : State := island2 { sw := some w, act := 1, step := step }

theorem witness_IslandSwitchesInSteps :
    pd1Up (upPd .show 1 .off) = false ∧ pd1Up (island2 {}) = true ∧
    ((switching ⟨2, 0, false, false, false, false⟩ 0).ckp.icl 2).sw ≠ none ∧
    (let s := island2 { act := 3 }; (s.ckp.icl 2).sw = none ∧ (s.ckp.icl 2).act = 3) ∧
    (let s := island2 { act := 0 }
     let c := applyWrite iclkFields (s.ckp.icl 2).cfg 0x0401
     (s.ckp.icl 2).sw = none ∧ coreStarted s = true ∧ (s.ckp.icl 2).act ≠ 3 ∧ fld c 0 2 ≠ fld (s.ckp.icl 2).cfg 0 2 ∧
       s.ckp.srcLive 2 (fld c 0 2) = true) ∧
    (let s := upCkp { iclk := Vector.replicate 7 { act := 0 } }
     let c := applyWrite iclkFields (s.ckp.icl 2).cfg 0x0401
     fld c 0 2 ≠ fld (s.ckp.icl 2).cfg 0 2 ∧ s.ckp.srcLive 2 (fld c 0 2) = false) ∧
    (let i : Iclk := { act := 0, cfg := 0x0420, step := 2 }
     (fld (applyWrite iclkFields i.cfg 0x0420) 4 3 = fld i.cfg 4 3 ∧ i.waitsrc = false) ∧
     (fld (applyWrite iclkFields i.cfg 0x0410) 4 3 ≠ fld i.cfg 4 3 ∧ fld (applyWrite iclkFields i.cfg 0x0410) 4 3 < i.step.toNat ∧
       fld (applyWrite iclkFields i.cfg 0x0410) 0 2 = fld i.cfg 0 2) ∧
     (fld (applyWrite iclkFields i.cfg 0x0430) 4 3 ≠ fld i.cfg 4 3 ∧
       i.step.toNat ≤ fld (applyWrite iclkFields i.cfg 0x0430) 4 3)) ∧
    ((island2 {}).ckp.icl 2).sw = none ∧
    ((switching ⟨2, 0, false, false, false, false⟩ 0).ckp.icl 2).sw = some ⟨2, 0, false, false, false, false⟩ ∧
    (let s := switching ⟨2, 4, true, false, false, false⟩ 0
     (s.ckp.icl 2).sw = some ⟨2, 4, true, false, false, false⟩ ∧ (4 : BitVec 3).toNat < (5 : BitVec 3).toNat) ∧
    (let s := switching ⟨2, 5, true, false, true, true⟩ 5
     (s.ckp.icl 2).sw = some ⟨2, 5, true, false, true, true⟩ ∧ (s.ckp.icl 2).step.toNat ≤ (5 : BitVec 3).toNat ∧
       (s.ckp.icl 2).held = none ∧ (s.ckp.icl 2).waitsrc = false) ∧
    (let s := switching ⟨2, 3, true, true, false, false⟩ 5
     (s.ckp.icl 2).sw = some ⟨2, 3, true, true, false, false⟩ ∧ (3 : BitVec 3).toNat + 1 < (s.ckp.icl 2).step.toNat) ∧
    (let s := switching ⟨2, 4, true, true, false, false⟩ 5
     (s.ckp.icl 2).sw = some ⟨2, 4, true, true, false, false⟩ ∧ (4 : BitVec 3).toNat + 1 = (s.ckp.icl 2).step.toNat) := by
  decide +kernel

theorem witness_ForcedAndReferenceSwitches :
    (let w : Switch := ⟨2, 0, false, false, false, false⟩
     ((switching w 0).ckp.icl 2).sw = some w ∧ w.stopped = false ∧ w.engaged = false) ∧
    ((up .show).ckp.icl 2).sw = none ∧ (up .show).ckp.refNext = none ∧
    (upCkp { refNext := some 1 }).ckp.refNext = some 1 ∧
    (pd1Up (upPd .show 1 .off) = false ∧ pd1Up (upCkp {}) = true ∧ coreStarted (upCkp {}) = false) ∧
    (let s := up .show
     pd1Up s = true ∧ coreStarted s = true ∧ refWanted s { s.ckp with refSel := 1 } = some 0) ∧
    (let s := upCkp { lock := 31, iclk := Vector.replicate 7 { act := 0 } }
     pd1Up s = true ∧ coreStarted s = true ∧ refWanted s { s.ckp with refSel := 0 } = none) := by decide +kernel

theorem witness_PeripheralEnableKeepsRegisters :
    (hostUp (up .show) = true ∧ hostUp (up .roost) = false) ∧
    (bit (0x3F : BitVec 6) 3 = true ∧ coreStarted (up .show) = true ∧ ((up .show).ckp.icl 5).act ≠ 3) ∧
    (let s := upCkp { iclk := (Vector.replicate 7 { act := 0 }).set 5 {} }; coreStarted s = true ∧ (s.ckp.icl 5).act = 3) ∧
    (bit (0 : BitVec 6) 3 = false ∧ bit (0 : BitVec 6) 4 = false ∧ bit (0x24 : BitVec 6) 2 = true ∧ bit (0x24 : BitVec 6) 5 = true) := by
  decide +kernel

theorem witness_LinkTrafficDelivers :
    (pd1Up (up .show) = true ∧ pd1Up (upPd .show 1 .off) = false) ∧
    (let s : State := { up .show with sys := {}, drv := { linkloss := true } }
     pd1Up s = true ∧ s.sys.dlink = false ∧ s.drv.linkloss = true) ∧
    (let s : State := { up .show with drv := { reports := [.fault 63, .tie 0, .analog 15] } }
     pd1Up s = true ∧ s.sys.dlink = true ∧ DrvReport.fault 63 ∈ s.drv.reports ∧ DrvReport.tie 0 ∈ s.drv.reports ∧
       DrvReport.analog 15 ∈ s.drv.reports) ∧
    ((up .show).sys.dlink = true ∧ pdOn (up .show) 58 = true ∧ pdOn (upPd .show 58 .off) 58 = false) := by decide +kernel

def winAcc (a : Word) (d : Option Word) : State :=
  { up .show with host := { win := #v[{ acc := some { addr := a, data := d, adm := .data } }, {}] } }

theorem witness_LinkLossHoodsAndDrvAccessEnds :
    pd1Up (up .show) = true ∧
    ((win (winAcc 0x00150000 none) 0).acc = some ⟨0x00150000, none, .data⟩ ∧ inDrv (0x00150000 : Word).toNat = true) ∧
    (let s : State := { winAcc 0x0015FFFC (some 1) with sys := {} }
     (win s 0).acc = some ⟨0x0015FFFC, some 1, .data⟩ ∧ inDrv (0x0015FFFC : Word).toNat = true ∧
       (lateTime s).sys.dlink = false ∧ (win s 0).late = [] ∧ (win s (1 - 0)).late = []) ∧
    (let s : State := { up .show with sys := {}, jtag := { acc := some ⟨0x00150000, none, .data⟩ } }
     s.jtag.acc = some ⟨0x00150000, none, .data⟩ ∧ s.sys.dlink = false) ∧
    ((win (winAcc 0x00160000 none) 0).acc = some ⟨0x00160000, none, .data⟩ ∧ inDrv (0x00160000 : Word).toNat = false ∧
      (up .show).jtag.acc = none) := by decide +kernel

theorem witness_GateRefusals :
    (chainRuns (up .service) = true ∧ chainRuns State.reset = false) ∧ GateCmd.down ≠ .nop ∧ gateDomain 67 = 0 ∧
    gateDomain 66 = 66 ∧
    gateRule (up .service) .down (.window 0) 0 = true ∧
    gateMode (up .muster) (.window 0) 45 = true ∧ gateRule (up .muster) .down (.window 0) 45 = false ∧
    ({ up .service with gate := { pd := Vector.replicate 67 .on, busy := true } } : State).gate.busy = true ∧
    (Requester.window 0) ≠ .mode := by decide +kernel

theorem witness_GateCommandsActAsTable :
    gateDomain 13 = 13 ∧ gateDomain 44 = 44 ∧ gateDomain 54 = 54 ∧
    (∀ c ∈ [GateCmd.down, .reset, .update], gateAccepts (up .service) c (.window 0) 13 = true ∧ (up .service).gate.pd[13] = .on) ∧
    (∀ c ∈ [GateCmd.up, .update],
      gateAccepts (upPd .service 44 .off) c (.window 0) 44 = true ∧ (upPd .service 44 .off).gate.pd[44] = .off) ∧
    (∀ c ∈ [GateCmd.down, .reset, .up, .reopen],
      gateAccepts (upPd .service 54 .closed) c (.window 0) 54 = true ∧ (upPd .service 54 .closed).gate.pd[54] = .closed) ∧
    (∀ c ∈ [GateCmd.up, .reopen], gateAccepts (up .service) c (.window 0) 13 = true) ∧
    gateAccepts (upPd .service 44 .off) .down (.window 0) 44 = true ∧
    gateAccepts (upPd .service 54 .closed) .update (.window 0) 54 = true := by decide +kernel

/-- The device with a gate command in progress on `n`. -/
def gating (c : GateCmd) (n : Fin 67) (ph : BitVec 3) : State :=
  { up .service with
    gate := { pd := (Vector.replicate 67 .on).set n .transit, busy := true, run := some (c, n, .window 0), phase := ph } }

theorem witness_GateStepsReachEndState :
    (∀ x ∈ [(GateCmd.down, (3 : BitVec 3)), (.reset, 3), (.update, 3), (.down, 4), (.reset, 4), (.up, 5), (.update, 5)],
      let s := gating x.1 46 x.2
      s.gate.run = some (x.1, 46, .window 0) ∧ s.gate.busy = true ∧ s.gate.pd[46] = .transit ∧ s.gate.phase = x.2 ∧
        s.mode.busy = false) ∧
    (let s := { gating .down 46 4 with mode := { code := .muster, busy := true } }; s.mode.busy = true) ∧
    ((up .service).gate.run = none ∧ (up .service).gate.updater = [] ∧ (gating .down 46 4).gate.phase ≠ 3) ∧
    (let s : State := { upPd .service 46 .closed with
       gate := { pd := (Vector.replicate 67 .on).set 46 .closed, updater := [(46, .window 0)] } }
     s.gate.updater = [((46 : Fin 67).val, Requester.window 0)] ∧ s.gate.busy = false) ∧
    memOf 0x01000000 = some 0 ∧ memOf 0x013FFFFF = some 7 := by decide +kernel

theorem witness_HostWritesOfAonRegisters :
    ((up .show).mode.inPor = false ∧ aonAnswers (lateTime (up .show)) = false ∧ (lateTime (up .show)).mode.code ≠ .roost ∧
      (lateTime (up .show)).mode.code ≠ .service) ∧
    ((up .roost).mode.inPor = false ∧ aonAnswers (lateTime (up .roost)) = false ∧ (lateTime (up .roost)).mode.code = .roost) ∧
    (0 : Fin 64) ∉ [(8 : Fin 64), 10, 0x13, 0x1B] := by decide +kernel

theorem witness_InternalWritesStoreOrAbsent :
    (let w : Switch := { dst := 1, div := 0, stopped := true, engaged := false, failover := false }
     let s := upCkp { iclk := (Vector.replicate 7 { act := 0 }).set 1 { act := 0, sw := some w } }
     accessWaits s 0x200 true = true ∧ s.ckp.frozen 1 = true) ∧
    accessWaits (upPd .show 58 .off) 0x00080000 true = false ∧
    (∀ r ∈ [Requester.window 1, .kestrel 3, .mgmt, .mode, .jtag],
      ending (upPd .show 58 .off) r 0x00080000 (.write 4 0 false) = .absent ∧
      ending (upCkp { en := 0x3E, iclk := Vector.replicate 7 { act := 0 } }) r 0x000A0000 (.write 4 0 false) = .berr) ∧
    (let s : State := { upCkp { en := 0x3E } with kst := { core := Vector.replicate 4 { rst := false } } }
     (kes s 3).rst = false ∧ (kes s 3).intrap = false ∧ ending s (.kestrel 3) 0x000A0000 (.write 4 0 false) = .berr) ∧
    (0x02000000 ≤ (0x0203FFFC : Word).toNat ∧ (0x0203FFFC : Word).toNat < 0x02040000) ∧
    (0x00160000 ≤ (0x00160000 : Word).toNat ∧ (0x006FFFFC : Word).toNat < 0x00700000) ∧
    (0x00714000 ≤ (0x00714000 : Word).toNat ∧ (0x00FFFFFC : Word).toNat < 0x01000000) ∧
    0x02040000 ≤ (0xFFFFFFFC : Word).toNat ∧ pdOn (up .show) 1 = true ∧ (up .show).ckp.frozen 1 = false := by decide +kernel

theorem witness_AonAnswersForHostBus :
    aonAnswers (up .show) = false ∧
    (aonAnswers State.reset = true ∧ State.reset.mode.inPor = false ∧ State.reset.mode.code ≠ .dormant ∧
      ((1 : Fin 64).val < 2 ∧ 16 ≤ (16 : Fin 64).val)) ∧
    (2 ≤ (2 : Fin 64).val ∧ (15 : Fin 64).val < 16) ∧
    (let s := upMode { code := .dormant }; s.mode.code = .dormant ∧ s.mode.inPor = false ∧ s.mode.busy = false) ∧
    (upMode { code := .dormant, busy := true }).mode.busy = true := by decide +kernel

theorem witness_WindowAccesses :
    (aonAnswers (lateTime (up .show)) = false ∧ (win (lateTime (up .show)) 0).acc = none ∧ (win (up .show) 0).acc = none) ∧
    (aonAnswers (lateTime (winAcc 0x200 none)) = false ∧ (win (lateTime (winAcc 0x200 none)) 0).acc ≠ none) ∧
    (let w : Switch := { dst := 1, div := 0, stopped := true, engaged := false, failover := false }
     let s : State := { winAcc 0x200 none with
       ckp := { iclk := (Vector.replicate 7 { act := 0 }).set 1 { act := 0, sw := some w } } }
     (win s 0).acc = some ⟨0x200, none, .data⟩ ∧ accessWaits s 0x200 false = true) ∧
    (let s := winAcc 0x200 none
     (win s 0).acc = some ⟨0x200, none, .data⟩ ∧ accessWaits s 0x200 false = false ∧
       (replyOf .data 0x200 (winAsk none) (lateSettle 0x200 (lateTime s))).ending = .data) ∧
    (let s := winAcc 0x00080000 (some 7)
     (replyOf .absent 0x00080000 (winAsk (some 7)) (lateSettle 0x00080000 (lateTime s))).ending = .absent ∧
       (replyOf .berr 0x00080000 (winAsk (some 7)) (lateSettle 0x00080000 (lateTime s))).ending = .berr) ∧
    (let s : State := { winAcc 0x01000000 none with mem := { words := [(0x200000, poisonCode 5)] } }
     (mapRead (lateSettle 0x01000000 (lateTime s)) 0x01000000).2 = true) ∧
    (∀ w : WIdx, (win (up .show) w).late = []) := by decide +kernel

theorem witness_PostFifoAndDoorbells :
    (aonAnswers (lateTime (up .show)) = false ∧ (lateTime (up .show)).host.evStage.length < 7 ∧ (up .show).host.evFifo = []) ∧
    (let s : State := { up .show with host := { evStage := List.replicate 7 0, evFifo := List.replicate 15 (Vector.replicate 16 0) } }
     aonAnswers (lateTime s) = false ∧ 7 ≤ (lateTime s).host.evStage.length ∧ (lateTime s).host.evFifo.length < 16) ∧
    (let s : State := { up .show with host := { evStage := List.replicate 7 0, evFifo := List.replicate 16 (Vector.replicate 16 0) } }
     7 ≤ (lateTime s).host.evStage.length ∧ 16 ≤ (lateTime s).host.evFifo.length) ∧
    (let s : State := { up .show with host := { evFifo := List.replicate 9 (Vector.replicate 16 0) } }
     s.host.evFifo = Vector.replicate 16 0 :: List.replicate 8 (Vector.replicate 16 0) ∧ pdOn s 12 = true ∧
       16 - (List.replicate 8 (Vector.replicate 16 (0 : Byte))).length = s.host.lowat.toNat) ∧
    pdOn (upPd .show 12 .off) 12 = false := by decide +kernel

/-- The device with an owl configuration. -/
def owlWith (cfg : Half) (strike : Bool) : State := { up .show with owl := { cfg := cfg, strike := strike } }

theorem witness_OwlKicksAndExpiries :
    (let s := owlWith 0x957D false
     s.mode.inPor = false ∧ (lateTime s).mode.code ≠ .roost ∧ (lateTime s).mode.code ≠ .dormant ∧ (lateTime s).owl.on = true ∧
       bit (lateTime s).owl.cfg 12 = true ∧ (lateTime s).owl.lastKick = false ∧ (0x6F76 : Half) ≠ 0x6F77 ∧
       aonAnswers (lateTime s) = false) ∧
    ((lateTime (owlWith 0x057D false)).owl.on = false ∧ owlRuns (owlWith 0x057D false) = false ∧
      bit (owlWith 0x057D false).owl.cfg 11 = false) ∧
    (owlRuns (owlWith 0x8D7D false) = true ∧ fld (owlWith 0x8D7D false).owl.cfg 13 2 = 0 ∧
      bit (owlWith 0x8D7D false).owl.cfg 11 = true) ∧
    (owlRuns (owlWith 0xA57D false) = true ∧ fld (owlWith 0xA57D false).owl.cfg 13 2 = 1) ∧
    (owlRuns (owlWith 0xC57D false) = true ∧ fld (owlWith 0xC57D false).owl.cfg 13 2 = 2) ∧
    (owlRuns (owlWith 0xE57D true) = true ∧ fld (owlWith 0xE57D true).owl.cfg 13 2 = 3 ∧ (owlWith 0xE57D true).owl.strike = true) ∧
    (fld (owlWith 0xE57D false).owl.cfg 13 2 = 3 ∧ (owlWith 0xE57D false).owl.strike = false) ∧
    (∃ w, (win (winAcc 0x200 none) w).acc ≠ none) ∧ (∀ w : WIdx, (win (up .show) w).acc = none) := by decide +kernel

theorem witness_EpochCommitsAndMigrations :
    (let s := upMode { code := .roost }
     accessWaits s 0x00050010 true = false ∧ ending s (.window 1) 0x00050010 (.write 4 0x80000000 false) = .data ∧
       s.mode.code = .roost) ∧
    (∀ s ∈ [({ up .show with epoch := { held := true } } : State), { up .show with epoch := { mig := true } }, up .show],
     accessWaits s 0x00050010 true = false ∧ ending s (.window 1) 0x00050010 (.write 4 0x80000000 false) = .data) ∧
    (let s : State := { up .show with epoch := { held := true } }
     aonAnswers (lateTime s) = false ∧ (lateTime s).mode.code ≠ .roost ∧ (lateTime s).epoch.held = true ∧ pd1Up s = true ∧
       s.epoch.held = true) ∧
    (let s : State := { up .show with epoch := { mig := true } }
     s.mode.code ≠ .roost ∧ s.epoch.held = false ∧ (s.epoch.mig || s.mode.busy) = true) ∧
    ((up .show).epoch.held = false ∧ ((up .show).epoch.mig || (up .show).mode.busy) = false ∧ (up .show).epoch.cur = false) ∧
    (({ up .show with epoch := { cur := true } } : State).epoch.cur = true) ∧
    (let s : State := { up .show with epoch := { mig := true, stepNo := some 32, held := true } }
     s.epoch.mig = true ∧ s.epoch.stepNo = some 32 ∧ s.epoch.held = true ∧ s.mode.busy = false ∧ s.gate.vacating = none) ∧
    (up .show).epoch.mig = false := by decide +kernel

/-- A port with its two lanes in given states. -/
def lanesIn (a b : RxState) : LanePort := { rx := #v[{ st := a, los := false, rate := 1 }, { st := b, los := false, rate := 1 }] }

theorem witness_LanesTrain :
    (let s := upPort .show (lanesIn .hunt .hunt) {}
     ((lport s 0).lane 0).st = .hunt ∧ 1 = ((lport s 0).lane 0).rate ∧ (1 : BitVec 2) ≠ 3 ∧
       ((lport s 0).lane (1 - 0)).locked? = false ∧ laneOn s (rxDomain 0 0) = true) ∧
    (let s := upPort .show (lanesIn .hunt .ready) {}
     ((lport s 0).lane (1 - 0)).locked? = true ∧ ((lport s 0).lane (1 - 0)).rate = 1) ∧
    (let s := upPort .show {} (lanesIn .ready .adapt); ((lport s 1).lane 1).st = .adapt ∧ ((lport s 1).lane (1 - 1)).st = .ready) ∧
    (let s := upPort .show {} (lanesIn .adapt .hunt); ((lport s 1).lane 0).st = .adapt ∧ ((lport s 1).lane (1 - 0)).st ≠ .ready) ∧
    (let s := upPort .show {} (lanesIn .ready .ready); ((lport s 1).lane 0).st = .ready ∧ (lport s 1).aligned = false) ∧
    (let s := upPort .show {} (lanesIn .off .hunt); ((lport s 1).lane 0).st ≠ .adapt ∧ ((lport s 1).lane 0).st ≠ .ready ∧
      ((lport s 1).lane 0).st ≠ .hunt) := by decide +kernel

theorem witness_DefectsWrapPorts :
    (let s := upPort .show goodPort goodPort
     ((lport s 0).lane 1).los = false ∧ ((lport s 0).lane 1).st ≠ .off ∧ (lport s 0).state = .up ∧
       ((lport s 0).lane 1).locked? = true ∧ pdOn s (2 + (0 : PortIdx).val) = true) ∧
    (let s := upPort .show (lanesIn .off .off) {}; ((lport s 0).lane 0).st = .off ∧ ((lport s 0).lane 0).locked? = false) ∧
    (let s := upPort .show { rx := #v[{ st := .hunt, los := true }, {}] } {}
     ((lport s 0).lane 0).los = true ∧ ((lport s 0).lane 0).st ≠ .off ∧ (lport s 0).cause = 0) ∧
    ((lport (upPort .show {} {}) 0).state ≠ .up ∧ pdOn (upPd .show 2 .off) (2 + (0 : PortIdx).val) = false) := by decide +kernel

theorem witness_PortArmsTurnsAndComesUp :
    (let s := upPort .show { goodPort with state := .wrapped } goodPort
     hardDefect s 0 = false ∧ (lport s 0).aligned = true ∧ (lport s 0).state = .wrapped) ∧
    (let s := upPort .show { goodPort with state := .isolated } { goodPort with state := .isolated }
     hardDefect s 0 = false ∧ (lport s 0).state = .isolated ∧ (lport s (otherPort 0)).state = .isolated) ∧
    (let s := upPort .show { goodPort with state := .armed } goodPort
     (lport s 0).state = .armed ∧ bit (lport s 0).wrapcfg 1 = false ∧ (lport s (otherPort 0)).state ≠ .wrapped ∧
       (lport s (otherPort 0)).state ≠ .armed) ∧
    (bit ({ wrapcfg := 2 } : LanePort).wrapcfg 1 = true ∧ (lport (upPort .show {} {}) 0).aligned = false) ∧
    (let s := upPort .show goodPort { state := .wrapped, cause := 5 }
     (lport s (otherPort 0)).state = .wrapped ∧ (lport s (otherPort 0)).cause ≠ 0 ∧ hardDefect s 0 = false ∧
       (lport s 0).state ≠ .isolated ∧ s.chn.role ≠ 1) ∧
    (let s := upPort .show goodPort { goodPort with state := .wrapped }
     (lport s (otherPort 0)).cause = 0 ∧ hasDefect s (otherPort 0) = false) := by decide +kernel

theorem witness_SidebandTransactions :
    (let s := upPort .show {} {}
     pdOn s (2 + (1 : PortIdx).val) = true ∧ (lport s 1).msbBusy = false ∧ bit (0x80000000 : Word) 31 = true ∧ bit (0 : Word) 31 = false) ∧
    (lport (upPort .show {} { msbBusy := true, msbRd := true }) 1).msbBusy = true ∧
    pdOn (upPd .show 3 .off) (2 + (1 : PortIdx).val) = false := by decide +kernel

theorem witness_TickAndFrameBoundaries :
    chainCounts State.reset = false ∧
    (let s := upMode { code := .roost }; chainCounts s = true ∧ s.mode.code = .roost ∧ s.gate.vacating = none) ∧
    (chainCounts (up .show) = true ∧ (up .show).mode.code ≠ .roost ∧ (isHead (up .show) && (up .show).head.ctsetGo) = false) ∧
    ({ up .show with drv := { liftAtFrame := true } } : State).drv.liftAtFrame = true ∧
    (let s : State := { up .show with chn := { role := 1 }, head := { ctsetGo := true } }
     chainCounts s = true ∧ isHead s = true ∧ s.head.ctsetGo = true) ∧
    (pd1Up (up .show) = true ∧ (up .show).chn.freerun = false ∧
      (let s : State := { up .show with chn := { last := #v[some ⟨0, 0, true, false, false, false, true, 0, 0⟩, none] } }
       ∃ r, vget s.chn.last 0 none = some r)) ∧
    ({ up .show with chn := { freerun := true } } : State).chn.freerun = true := by
  refine ⟨by decide +kernel, by decide +kernel, by decide +kernel, by decide +kernel, by decide +kernel, ⟨by decide +kernel, by decide +kernel, ?_⟩, by decide +kernel⟩
  exact ⟨_, rfl⟩

/-- A header half of a head with UID `uid`, built field by field from Table 7.2: FRAME 7, no flags, MEPOCH 0, HEADUID, N_eff
and N, CMD, CTOTAL and the probe range 0. -/
def frameHalf (uid : Nat) : Vector Byte 57 :=
  let l := headHalf (beBytes 5 7 ++ [0] ++ beBytes 2 0 ++ beBytes 6 uid ++ List.replicate 18 0)
  Vector.ofFn fun i => l.getD i.val 0

/-- The frame with that header on Ring A, as it is sent: the scrambler sequence is its own inverse (R169). -/
def frameOfUid (uid : Nat) : FrameRx := clearFrame ⟨false, frameHalf uid, frameHalf uid, 0, [], []⟩

/-- A fixture whose elected head has UID 5, with its WEST port aligned. -/
def follower : State :=
  { upPort .show goodPort goodPort with chn := { huid := 5 } }

theorem witness_FramesReachChainTime :
    goodHeader follower (clearFrame ⟨false, Vector.replicate 57 0, Vector.replicate 57 0, 0, [], []⟩) = none ∧
    (chnHears (upPd .show 2 .off) (ringPort false) = false ∧ chnHears follower (ringPort false) = true ∧
      follower.chn.role ≠ 1) ∧
    (∃ h, goodHeader follower (clearFrame (frameOfUid 6)) = some h ∧ follower.chn.huid ≠ 0 ∧
      follower.chn.huid < h.headuid) ∧
    (∃ h, goodHeader follower (clearFrame (frameOfUid 5)) = some h ∧ h.headuid = follower.chn.huid) ∧
    (∀ l : Fin 2, sendsOn (endTurn 0 follower) 0 l = true ∧ uplinkSent (endTurn 0 follower) 0 = [] ∧
      regenerates (endTurn 0 follower) 0 = false) ∧
    (134217 < ((134218 : Int) - 0).natAbs ∧ ((134217 : Int) - 0).natAbs ≤ 134217) :=
  ⟨by decide +kernel, by decide +kernel, ⟨readHeader (frameHalf 6), by decide +kernel⟩,
    ⟨readHeader (frameHalf 5), by decide +kernel⟩, by decide +kernel, by decide +kernel⟩

/-- A head in mode `m`. -/
def headIn (m : Mode) (x : Head) : State := { up m with chn := { role := 1 }, head := x }

theorem witness_HeadActsInItsRole :
    (originates (up .show) = false ∧ originates (headIn .show {}) = true ∧ pd1Up (upPd .show 1 .off) = false ∧
      chainRuns State.reset = false) ∧
    (let s := headIn .muster {}
     pd1Up s = true ∧ s.chn.role = 1 ∧ (s.mode.code = .muster ∨ s.mode.code = .service)) ∧
    (let s := headIn .show { cfg := 0x8000 }
     candidate? s = true ∧ s.chn.role = 1 ∧ s.mode.busy = false ∧ (s.mode.code = .relay ∨ s.mode.code = .show)) ∧
    ({ headIn .relay {} with mode := { code := .relay, busy := true } } : State).mode.busy = true ∧
    (chainRuns (headIn .show { cfg := 0x8000 }) = true ∧ bit (0x7FFFFFFF : Word) 31 = false) ∧
    (let s : State := { upMode { code := .solo, bootcfg := 0x0400 } with head := { cfg := 0 } }
     chainRuns s = true ∧ candidate? s = false ∧ s.mode.code = .solo ∧ bit s.mode.bootcfg 10 = true ∧ s.mode.busy = false ∧
       s.chn.role ≠ 2) ∧
    (let s : State := { upMode { code := .solo, busy := true } with head := { cfg := 0 } }
     candidate? s = false ∧ s.mode.code = .solo ∧ s.mode.busy = true ∧ bit (upMode { code := .solo, bootcfg := 0 }).mode.bootcfg 10 = false) ∧
    ((headIn .show { queue := List.replicate 63 ([], 1) }).head.queue.length < 64 ∧
      64 ≤ (headIn .show { queue := List.replicate 64 ([], 1) }).head.queue.length) ∧
    (genlockOn (up .show) = false) ∧
    (let s := headIn .show { gen := 0x8002_0001 }
     genlockOn s = true ∧ true = (!bit s.head.gen 30) ∧ s.head.genEdges + 1 < fld s.head.gen 16 8) ∧
    (let s := headIn .show { gen := 0x8001_0001 }
     genlockOn s = true ∧ fld s.head.gen 16 8 ≤ s.head.genEdges + 1 ∧ -8388608 ≤ genlockError s.head.gen 5 ∧
       genlockError s.head.gen 5 < 8388608) ∧
    (cellCrcOk (Vector.replicate 72 1) = false) ∧
    (let c := cellOf (sealCell (0x60 :: 0 :: 0 :: 2 :: List.replicate 64 0))
     cellCrcOk c = true ∧ cellType c = 6 ∧ cellAux c % 16 = 2 ∧ (headIn .show {}).head.counting = false) ∧
    (let c := cellOf (sealCell (0x50 :: 0 :: 2 :: 0 :: List.replicate 64 0))
     cellCrcOk c = true ∧ cellType c = 5 ∧ 2 ≤ cellAux c / 256) := by
  refine ⟨?_, ?_, ?_, ?_, ?_, ?_, ?_, ?_, ?_, ?_, ?_, ?_, ?_, ?_⟩ <;> decide +kernel

/-- A sealed cell of a type, session and AUX, for every device, with a payload. -/
def cellRx (ty sess aux : Nat) (pay : List Byte) : CellRx :=
  ⟨0, false, 44543, true, cellOf (sealCell (beBytes 4 (ty * 268435456 + sess * 16384 + aux) ++ pay)), false⟩

/-- The device in mode `m` with both ports aligned and their taps running. -/
def ringed (m : Mode) : State := upPort m goodPort goodPort

/-- `ringed` with session 1 open over the targets 0 to 16 and EMBER OFF or ON. -/
def ringed1 (m : Mode) (ember : PdState) : State :=
  let x : SessEntry := { state := .open_, ranges := (Vector.replicate 4 (0xFFFF, 0)).set 0 (0, 16) }
  { ringed m with
    gate := (upPd m 58 ember).gate, dis := { sess := (Vector.replicate 16 {}).set 1 { cur := x, nxt := x } } }

/-- The conditions under which a cell is taken. -/
def taken (s : State) (c : CellRx) : Bool :=
  tapRuns s (ringPort c.ring) && c.ok && cellCrcOk c.bytes && addressedHere s c.bytes && !cellSeen s c && pdOn s 12

theorem witness_CellsAreTakenOnce :
    (let c : CellRx := ⟨0, false, 0, true, Vector.replicate 72 1, false⟩
     tapRuns (ringed .show) (ringPort c.ring) = true ∧ (c.ok && cellCrcOk c.bytes) = false) ∧
    (let s : State := { ringed .show with chn := { delivered := [(0, false, 44543)] } }
     tapRuns s (ringPort (cellRx 1 1 0 []).ring) = true ∧ ((cellRx 1 1 0 []).ok && cellCrcOk (cellRx 1 1 0 []).bytes) = true ∧
       (addressedHere s (cellRx 1 1 0 []).bytes && !cellSeen s (cellRx 1 1 0 [])) = false) ∧
    tapRuns (up .show) (ringPort false) = false ∧
    (let c := cellRx 1 1 0 [0xFF, 0xFF, 1]
     taken (ringed .show) c = true ∧ cellType c.bytes = 1 ∧ ringInput (ringed .show) = true ∧
       (sess (ringed .show) (cellSess c.bytes)).cur.state = .free ∧ payNum c.bytes 2 1 = 1) ∧
    (let c := cellRx 1 0 0 [0xFF, 0xFF, 1]; taken (ringed .show) c = true ∧ cellSess c.bytes = 0) ∧
    (let s : State := { ringed .show with
       mode := { code := .show, bootcfg := 0x0800 }, dmx := { port := (Vector.replicate 2 {}).set 0 { cfg := 0x80000000 } } }
     let c := cellRx 1 15 0 [0xFF, 0xFF, 1]
     taken s c = true ∧ cellSess c.bytes = 15 ∧ ringInput s = true ∧ dmxInput s = true) ∧
    (let s := ringed1 .show .off
     let c := cellRx 1 1 0 [0, 17, 1]
     taken s c = true ∧ (sess s (cellSess c.bytes)).cur.state ≠ .free ∧ 1 ≤ cellSess c.bytes ∧ dmxInput s = false ∧
       inRanges (sess s (cellSess c.bytes)).cur.ranges (payNum c.bytes 0 2) = false) ∧
    (let s := ringed1 .show .on
     let c := cellRx 1 1 0 [0, 16, 1]
     taken s c = true ∧ ringInput s = true ∧ (sess s (cellSess c.bytes)).cur.state ≠ .free ∧ dmxInput s = false ∧
       inRanges (sess s (cellSess c.bytes)).cur.ranges (payNum c.bytes 0 2) = true ∧ pdOn s 58 = true) := by
  refine ⟨?_, ?_, ?_, ?_, ?_, ?_, ?_, ?_⟩ <;> decide +kernel

theorem witness_CellsAreTakenOnce_kinds :
    (let c := cellRx 2 1 0 []
     taken (ringed .relay) c = true ∧ cellType c.bytes = 2 ∧ (ringed .relay).mode.code = .relay ∧ cellAux c.bytes % 16 = 0) ∧
    (let c := cellRx 2 1 1 [0x10]
     taken (ringed .relay) c = true ∧ cellAux c.bytes % 16 = 1 ∧ evOp (Vector.ofFn fun b => payByte c.bytes b.val) ≠ .nop) ∧
    (let c := cellRx 3 1 0 []; taken (ringed .relay) c = true ∧ cellType c.bytes = 3) ∧
    (let s := ringed1 .show .on
     let c := cellRx 3 1 0 []
     taken s c = true ∧ cellType c.bytes = 3 ∧ (sess s (cellSess c.bytes)).cur.state ≠ .free ∧ 1 ≤ cellSess c.bytes ∧
       dmxInput s = false) ∧
    (let c := cellRx 4 0 0 [1]
     taken (ringed .show) c = true ∧ cellType c.bytes = 4 ∧ ringInput (ringed .show) = true ∧ payByte c.bytes 0 ≠ 2 ∧
       claimResult (ringed .show) (cellSess c.bytes) c.bytes ≠ .accepted) ∧
    (let c := cellRx 4 0 0 [2]; taken (ringed .show) c = true ∧ payByte c.bytes 0 = 2) := by
  refine ⟨?_, ?_, ?_, ?_, ?_, ?_⟩ <;> decide +kernel

/-- A payload that is an ASSIGN of position 1 in epoch 0 for this device. -/
def assignCell : CellRx := cellRx 6 0 1 (beBytes 6 Config.uid.toNat ++ [0, 1, 0, 0])

theorem witness_CellsAreTakenOnce_assign :
    let s := ringed .muster
    let c := assignCell
    tapRuns s (ringPort c.ring) = true ∧ pdOn s 12 = true ∧ (c.ok && cellCrcOk c.bytes) = true ∧ (addressedHere s c.bytes && !cellSeen s c) = true ∧ cellType c.bytes = 6 ∧
      cellAux c.bytes % 16 = 1 ∧ payNum c.bytes 0 6 = Config.uid.toNat ∧ payNum c.bytes 8 2 = s.chn.mepoch.toNat ∧
      BitVec.ofNat 10 (payNum c.bytes 6 2) ≠ (0 : BitVec 10) ∧ s.chn.role ≠ 1 := by
  refine ⟨by decide +kernel, by decide +kernel, ?_, by decide +kernel, by decide +kernel, by decide +kernel, ?_, by decide +kernel, by decide +kernel, by decide⟩
  · simp [assignCell, cellRx, cellCrcOk_sealed]
  · have h : ((List.range 6).map fun k => payByte assignCell.bytes (0 + k)) = beBytes 6 Config.uid.toNat := rfl
    rw [payNum, h, beNat_beBytes]
    exact Nat.mod_eq_of_lt Config.uid.isLt

/-- Bytes followed by their MAC under the key 1. -/
def signed (base : List Byte) : List Byte := base ++ beBytes 16 (aesCmac 1 base).toNat

/-- A claim or release of session 1 by CUID 5 with SEQ 1, signed. -/
def claim (op : Byte) : CellRx :=
  ⟨0, false, 44543, true, cellOf (sealCell (signed
    ([0x40, 0, 0x40, 0] ++ op :: List.replicate 28 0 ++ [5, 0, 0, 0, 1] ++ List.replicate 14 0))), false⟩

/-- `ringed` with session 1 as `x`. -/
def claimable (x : SessEntry) : State :=
  { ringed .show with dis := { lock := 0, sess := (Vector.replicate 16 {}).set 1 { cur := x, nxt := x, key := 1 } } }

theorem witness_CellsAreTakenOnce_accepted :
    claimResult (claimable {}) 1 (claim 1).bytes = .accepted ∧
    claimResult (claimable { state := .claimed, owner := 5 }) 1 (claim 2).bytes = .accepted := by
  constructor <;>
  · rw [claimResult, claim, signed, macBytes_sealed _ _ (by simp), macTag_sealed _ _ (by simp),
      show ∀ x, (sess (claimable x) 1).key = 1 from fun _ => rfl]
    simp only [ne_eq, not_true_eq_false, and_false, if_false]
    cases Config.auth <;> decide +kernel

theorem witness_CellsAreTakenOnce_claims :
    ∀ op ∈ [(1 : Byte), 2], ((claim op).ok && cellCrcOk (claim op).bytes) = true ∧ cellType (claim op).bytes = 4 ∧
      cellSess (claim op).bytes = 1 ∧ payByte (claim op).bytes 0 = op := by
  simp only [List.forall_mem_cons, List.not_mem_nil, false_implies, implies_true, and_true]
  constructor <;>
  exact ⟨by simp [claim, cellCrcOk_sealed], by decide +kernel, by decide +kernel, by decide +kernel⟩

/-- An event from its first five bytes: OP and TICK, LFRAME. -/
def eventOf5 (a b c d e : Byte) : EvBytes := Vector.ofFn fun i => [a, b, c, d, e].getD i.val 0

/-- S0 with `k` queued events at frame 100. -/
def queued (k : Nat) : State :=
  let x : SessEntry := { state := .open_, ranges := (Vector.replicate 4 (0xFFFF, 0)).set 0 (0, 0x4FFF) }
  let q : List QEntry := List.replicate k { no := 0, ev := Vector.replicate 16 0, play := 700 }
  { up .show with
    chn := { tick := 600 }, dis := { sess := (Vector.replicate 16 {}).set 0 { cur := x, nxt := x, queue := q } } }

theorem witness_DispatchTakesEvents :
    pdOn (upPd .show 12 .off) 12 = false ∧
    (pdOn (up .show) 12 = true ∧ evOp (eventOf5 0 0 0 0 0) = .nop) ∧
    (evOp (eventOf5 0x10 0 0 0 0) ≠ .nop ∧ (sess (up .show) (sourceSession (up .show) (.ring 1)).1).cur.state = .free) ∧
    ((sourceSession (up .show) (.ring 0)).2 = false ∧ (up .muster).mode.code = .muster) ∧
    (let s := queued 256
     (sess s (sourceSession s .house).1).cur.state ≠ .free ∧ (sourceSession s .house).2 = true ∧ s.mode.code ≠ .muster ∧
       s.mode.code ≠ .relay ∧ 256 ≤ (sess s (sourceSession s .house).1).queue.length) ∧
    (let s := queued 255
     (sess s (sourceSession s .house).1).queue.length < 256 ∧ (classify (s.chn.tick + 1) (eventOf5 0x10 0 0 0 0)).2 = true) ∧
    (evImm (eventOf5 0x18 0 0 0 0) = true ∧ evImm (eventOf5 0x10 0 0 0x1F 0x41) = false ∧
      8000 < (evLframe (eventOf5 0x10 0 0 0x1F 0x41) - BitVec.ofNat 32 (0 / 6)).toInt) ∧
    (let e := eventOf5 0x15 0 0 0x1F 0x40
     evImm e = false ∧ (evLframe e - BitVec.ofNat 32 (0 / 6)).toInt ≤ 8000 ∧
       (((48006 / 6 : Nat) : Int) + (evLframe e - BitVec.ofNat 32 (48006 / 6)).toInt) * 6 + evTick e < 48006) ∧
    (let s := queued 0; (0 : SIdx) = 0 ∧ (sess s 0).nxt.state ≠ .free ∧ pdOn s 12 = true) ∧
    ((15 : SIdx) ≠ 0 ∧ (sess (up .show) 15).nxt.state = .free) ∧
    (let s : State := { up .show with dis := { sess := (Vector.replicate 16 {}).set 15 { nxt := { state := .claimed } } } }
     (15 : SIdx) ≠ 0 ∧ (sess s 15).nxt.state ≠ .free) := by decide +kernel

/-- The device with every voice FREE and one voice reserved for S0. -/
def freeVoices : State :=
  { up .show with
    vox := { State.reset.vox with
      voice := Vector.replicate 512 { state := .free }, res := (Vector.replicate 16 0).set 0 1 } }

theorem witness_LaunchedEventsAct_use : allocate freeVoices 0 = .use 0 := by
  have n : freeVoices.vox.held 0 = 0 := by simp [Vox.held, freeVoices, Voice.active]
  have h : usableVoice freeVoices 0 = some 0 := by decide +kernel
  have l : ¬ (vget freeVoices.vox.lim 0 0).toNat ≤ 0 := by decide +kernel
  have r : 0 < (vget freeVoices.vox.res 0 0).toNat := by decide +kernel
  simp only [allocate, n, h, l, r, true_or, if_true, if_false]

/-- The device with no voice that could be had: all ABSENT, and S0 limited to none. -/
def noVoices : State := { up .show with vox := { lim := Vector.replicate 16 0 } }

theorem witness_LaunchedEventsAct_nothing : allocate noVoices 0 = .nothing := by
  have l : (vget noVoices.vox.lim 0 0).toNat ≤ noVoices.vox.held 0 :=
    (by decide +kernel : (vget noVoices.vox.lim 0 0).toNat = 0) ▸ Nat.zero_le _
  have v : victim noVoices 0 true = none := by
    have e (i : Nat) : vox noVoices i = {} := by
      unfold vox vget noVoices; rw [Vector.getElem?_replicate]; split <;> rfl
    have a (i : Nat) : candidate noVoices 0 true i = false := by simp only [candidate, e]; rfl
    rw [victim, List.filter_eq_nil_iff.2 fun i _ => by simp [a i]]; rfl
  rw [allocate, if_pos l, v]; rfl

theorem witness_LaunchedEventsAct :
    (pdOn freeVoices 12 = true ∧ windowWithin (sess freeVoices 0).cur.ranges 0 0 = true) ∧
    pdOn (upPd .show 12 .off) 12 = false ∧
    (windowWithin ({} : SessEntry).ranges 0 0 = false ∨ windowWithin (Vector.replicate 4 (0, 16)) 0 17 = false) ∧
    readRecord (upPd .show 46 .off) (recordAddr (upPd .show 46 .off) 0) = none ∧
    (readRecord freeVoices (recordAddr freeVoices 0)).isSome = true ∧ (up .show).dis.reads = [] ∧
    (let r : PatchRead := { sess := 1, no := 3, addr := 0x01000000 }
     let s : State := { up .show with
       dis := { reads := [r], sess := (Vector.replicate 16 {}).set 1 { queue := [{ no := 3, ev := Vector.replicate 16 0, play := 7 }] } } }
     s.dis.reads = [r] ∧ pdOn s 12 = true ∧ (∃ q ∈ (sess s r.sess).queue, q.no = r.no) ∧
       (r.advance r.left s).record.isSome = true ∧ pdOn { s with gate := (upPd .show 12 .off).gate } 12 = false ∧
       ({ r with bad := true }.advance r.left s).record = none) ∧
    (let r : PatchRead := { sess := 1, no := 3, addr := 0x01000000 }
     ∀ q ∈ (sess (up .show) r.sess).queue, q.no ≠ r.no) := by decide +kernel

/-- A voice whose patch copy has one byte other than 0, at the end of the present segment of each envelope. -/
def voiceAt (i : Nat) (b : Byte) (reld : Bool) (g : BitVec 3) : Voice :=
  let p : Patch := Vector.ofFn fun j => if j.val = i then b else 0
  { state := .sounding, copy := p, reld := reld, seg := Vector.replicate 3 g
    k := Vector.ofFn fun e => BitVec.ofNat 32 (p.segTicks e g.toNat) }

/-- No session may have a voice more, and V0 sounds for S0. -/
def fullVoices (v : Voice) : State :=
  { up .show with vox := { lim := Vector.replicate 16 0, voice := (Vector.replicate 512 {}).set 0 v } }

theorem witness_LaunchedEventsAct_stoops :
    6 * ({ state := .sounding } : Voice).copy.num 0x0E 1 = 0 ∧ 6 * (voiceAt 0x0E 1 false 0).copy.num 0x0E 1 ≠ 0 := by decide +kernel

theorem fullVoices_rest (v : Voice) (i : Nat) : candidate (fullVoices v) 0 true (i + 1) = false := by
  have e : vox (fullVoices v) (i + 1) = {} := by
    unfold vox vget fullVoices; rw [Vector.getElem?_set_ne _ (by omega), Vector.getElem?_replicate]; split <;> rfl
  simp only [candidate, e]; rfl

theorem fullVoices_victim (v : Voice) (h : candidate (fullVoices v) 0 true 0 = true) :
    victim (fullVoices v) 0 true = some 0 := by
  have e : (List.range (511 + 1)).filter (candidate (fullVoices v) 0 true) = [0] := by
    rw [List.range_succ_eq_map, List.filter_cons_of_pos h, List.filter_map,
      List.filter_eq_nil_iff.2 fun i _ => by simp [fullVoices_rest]]; rfl
  rw [victim, e]; rfl

theorem witness_LaunchedEventsAct_steal (v : Voice) (hv : v ∈ [{ state := .sounding }, voiceAt 0x0E 1 false 0]) :
    allocate (fullVoices v) 0 = .steal 0 := by
  have h : candidate (fullVoices v) 0 true 0 = true := by
    simp only [List.mem_cons, List.not_mem_nil, or_false] at hv
    rcases hv with rfl | rfl <;> decide +kernel
  have l : (vget (fullVoices v).vox.lim 0 0).toNat ≤ (fullVoices v).vox.held 0 :=
    (by rfl : (vget (fullVoices v).vox.lim 0 0).toNat = 0) ▸ Nat.zero_le _
  rw [allocate, if_pos l, fullVoices_victim v h]; rfl

/-- The conditions of an envelope at the end of segment `g`. -/
def atEnd (v : Voice) (e g : Nat) : Bool :=
  !vget v.finish e false && !vget v.hold e false && !vget v.done e false &&
    (vget v.k e 0).toNat == v.copy.segTicks e (vget v.seg e 0).toNat && g == (vget v.seg e 0).toNat

/-- The device with a voice as V0. -/
def withVoice (v : Voice) : State := { up .show with vox := { voice := (Vector.replicate 512 {}).set 0 v } }

theorem witness_VoicesInsideATick :
    (let v := voiceAt 0x59 0 false 0; atEnd v 0 0 = true ∧ v.reld = false ∧ 0 = v.copy.sus 0) ∧
    (let v := voiceAt 0x59 1 false 0
     atEnd v 0 0 = true ∧ 0 ≠ v.copy.sus 0 ∧ v.copy.lstart 0 ≤ v.copy.lend 0 ∧ 0 = v.copy.lend 0) ∧
    (let v := voiceAt 0x58 8 true 7; atEnd v 0 7 = true ∧ v.reld = true ∧ 7 + 1 = v.copy.nseg 0) ∧
    (let v := voiceAt 0x58 8 true 6; atEnd v 0 6 = true ∧ v.reld = true ∧ 6 + 1 ≠ v.copy.nseg 0) ∧
    (let s := withVoice (voiceAt 0x14 7 false 0)
     (vox s 0).inTick s.chn.ticks = true ∧ (vox s 0).usesWt 0 = true ∧ vget (vox s 0).wt 0 none = none) ∧
    (let s : State := { withVoice (voiceAt 0x14 7 false 0) with gate := (upPd .show 46 .off).gate }
     wtReply s (vox s 0) 0 = .absent) ∧
    (wtReply (withVoice (voiceAt 0x14 7 false 0)) (voiceAt 0x14 7 false 0) 0 ≠ .absent) ∧
    (vget ({ wt := Vector.replicate 2 (some .absent) } : Voice).wt 0 none ≠ none) ∧
    ((vox (withVoice {}) 0).state ≠ .stooping ∧ (vox (withVoice { state := .stooping }) 0).state = .stooping ∧
      (vox (withVoice { state := .stooping }) 0).pend = none) := by
  refine ⟨?_, ?_, ?_, ?_, ?_, ?_, ?_, ?_, ?_⟩ <;> decide +kernel

theorem witness_VoicesInsideATick_pending (x : Sys2Proof.Machine.Pending) :
    (vox (withVoice { state := .stooping, pend := some x }) 0).state = .stooping ∧
      (vox (withVoice { state := .stooping, pend := some x }) 0).pend = some x := ⟨rfl, rfl⟩

theorem witness_MergeTakesLevels :
    (let s : State := { up .show with dis := { sess := Vector.replicate 16 {} } }
     pdOn s 58 = true ∧ (sess s (levelSession s (.kestrel 0))).cur.state = .free) ∧
    (let s := queued 0
     pdOn s 58 = true ∧ (sess s (levelSession s (.kestrel 0))).cur.state ≠ .free ∧
       inRanges (sess s (levelSession s (.kestrel 0))).cur.ranges (fld (0x5000FFFF : Word) 16 16) = false ∧
       inRanges (sess s (levelSession s (.kestrel 0))).cur.ranges (fld (0x4FFFFFFF : Word) 16 16) = true) ∧
    pdOn (upPd .show 58 .off) 58 = false ∧
    (let s : State := { up .show with dis := { sess := Vector.replicate 16 { cur := { acttmo := 1 } } } }
     (sess s 15).cur.acttmo ≠ 0 ∧ (sess (up .show) 15).cur.acttmo = 0) ∧
    ((up .show).mrg.mhold = false ∧ ({ up .show with mrg := { mhold := true } } : State).mrg.mact = false) ∧
    (let s : State := { up .show with mrg := { mhold := true, mact := true } }; s.mrg.mhold = true ∧ s.mrg.mact = true) ∧
    ((0 : Nat) = 0 ∧ 0 < 1 ∧ 0 ≤ 0) := by decide +kernel

theorem witness_KestrelArithmetic :
    ((kes (kAt 0 {}) 0).bad 1 = false ∧ (kes (kAt 0 {}) 0).bad 2 = false) ∧
    (∀ x ∈ [((0 : Word), Alu.add), (1, .sub), (2, .and), (3, .ior), (4, .eor), (5, .lsl), (6, .lsr), (7, .asr), (8, .clt),
        (9, .cltu), (10, .mlo), (11, .mhi), (12, .mhiu), (13, .min), (14, .max)],
      kIssues (kAt (0x00C48000 + x.1) {}) 0 = true ∧
        kDecode (fetched (kAt (0x00C48000 + x.1) {}) 0).1 = some (.alu x.2 3 1 2) ∧
        (fetched (kAt (0x00C48000 + x.1) {}) 0).2 = false) ∧
    (∀ x ∈ [((0x04C5FFFF : Word), AluK.addk, (0x1FFFF : BitVec 18)), (0x08C7FFFF, .andk, 0x3FFFF), (0x0CC40001, .iork, 1),
        (0x10C40001, .eork, 1), (0x14C40001, .cltk, 1), (0x18C40001, .cltuk, 1), (0x1CC4001F, .lslk, 0x1F),
        (0x1CC4003F, .lsrk, 0x3F), (0x1CC4005F, .asrk, 0x5F)],
      kIssues (kAt x.1 {}) 0 = true ∧ kDecode (fetched (kAt x.1 {}) 0).1 = some (.aluk x.2.1 3 1 x.2.2) ∧
        (fetched (kAt x.1 {}) 0).2 = false) ∧
    (kIssues (kAt 0x20C00001 {}) 0 = true ∧ kDecode (fetched (kAt 0x20C00001 {}) 0).1 = some (.khi 3 1)) ∧
    (let s := kAt 0x00C80000 { mark := (Vector.replicate 16 false).set 2 true }
     (kes s 0).bad 2 = true ∧ kIssues s 0 = true ∧ kDecode (fetched s 0).1 = some (.alu .add 3 2 0)) ∧
    (let s := kAt 0x00C48001 { mark := (Vector.replicate 16 false).set 2 true }
     (kes s 0).bad 1 = false ∧ (kes s 0).bad 2 = true ∧ (kes s 0).intrap = false ∧ kIssues s 0 = true ∧
       kDecode (fetched s 0).1 = some (.alu .sub 3 1 2)) ∧
    (let s := kAt 0x0CC80000 { mark := (Vector.replicate 16 false).set 2 true }
     (kes s 0).bad 2 = true ∧ kIssues s 0 = true ∧ kDecode (fetched s 0).1 = some (.aluk .iork 3 2 0)) ∧
    (let s := kAt 0x0CC80001 { mark := (Vector.replicate 16 false).set 2 true, intrap := true }
     (kes s 0).bad 2 = true ∧ (kes s 0).intrap = true ∧ kIssues s 0 = true ∧
       kDecode (fetched s 0).1 = some (.aluk .iork 3 2 1)) := by
  refine ⟨?_, ?_, ?_, ?_, ?_, ?_, ?_, ?_⟩ <;> decide +kernel

/-- Whether K0 is about to execute instruction `i`. -/
def executes (s : State) (i : KInstr) : Bool :=
  kIssues s 0 && kDecode (fetched s 0).1 == some i && !(fetched s 0).2

theorem executes_sound {s : State} {i : KInstr} (h : executes s i = true) : Executes s 0 i := by
  simpa [executes, Executes, and_assoc] using h

theorem witness_KestrelControlFlow :
    (executes (kAt 0x29FFFFFF {}) (.go false 0x1FFFFFF) = true ∧ executes (kAt 0x2A000002 {}) (.go true 2) = true ∧
      executes (kAt 0x2C040004 {}) (.gor 1 4) = true ∧ executes (kAt 0x30040004 {}) (.callr 1 4) = true) ∧
    (let c : Kestrel := { mark := (Vector.replicate 16 false).set 1 true }
     (kes (kAt 0 {}) 0).bad 1 = false ∧ (kes (kAt 0 c) 0).bad 1 = true ∧ executes (kAt 0x2C040004 c) (.gor 1 4) = true ∧
       executes (kAt 0x30040004 c) (.callr 1 4) = true ∧ executes (kAt 0x34090003 c) (.br .eq 1 2 3) = true) ∧
    (∀ x ∈ [((0x34090003 : Word), Cond.eq), (0x34890003, .ne), (0x35090003, .lt), (0x35890003, .ge), (0x36090003, .ltu),
        (0x36890003, .geu)], executes (kAt x.1 {}) (.br x.2 1 2 3) = true) ∧
    executes (kAt 0x88000000 {}) .rtt = true ∧ executes (kAt 0x8C000000 {}) .brk = true ∧
    (executes (kAt 0x8C000000 { brkh := true }) .brk = true ∧ (kes (kAt 0x8C000000 { brkh := true }) 0).brkh = true) ∧
    (kIssues (kAt 0xFFFFFFFF {}) 0 = true ∧ kDecode (fetched (kAt 0xFFFFFFFF {}) 0).1 = none ∧
      (fetched (kAt 0xFFFFFFFF {}) 0).2 = false) ∧
    (let s : State := { kAt 0 {} with mem := putRaw {} 0x700000 (poisonCode 0xFFFFFFFF) }
     kIssues s 0 = true ∧ kDecode (fetched s 0).1 = none ∧ eccClass (rawWord s.mem (fetchAddr s 0)) = .poison) := by
  refine ⟨?_, ?_, ?_, ?_, ?_, ?_, ?_, ?_⟩ <;> decide +kernel

/-- Registers with k1 = `a`. -/
def k1 (a : Word) : Vector Word 16 := (Vector.replicate 16 0).set 1 a

theorem witness_KestrelMemory_loads :
    (∀ x ∈ [((0x48C40001 : Word), LdSize.w), (0x48C48001, .h), (0x48C50001, .hu)],
      executes (kAt x.1 {}) (.ld x.2 3 1 1) = true ∧ ((kes (kAt x.1 {}) 0).ea 1 1).toNat % x.2.bytes ≠ 0) ∧
    (∀ x ∈ [((0x48C40004 : Word), LdSize.w), (0x48C48004, .h), (0x48C50004, .hu), (0x48C58004, .b), (0x48C60004, .bu)],
      executes (kAt x.1 { regs := k1 0x01000000 }) (.ld x.2 3 1 4) = true ∧
        ((kes (kAt x.1 { regs := k1 0x01000000 }) 0).ea 1 4).toNat % x.2.bytes = 0 ∧
        executes (kAt x.1 { mark := (Vector.replicate 16 false).set 1 true }) (.ld x.2 3 1 4) = true) ∧
    (let e : SbEntry := .store 0x01000004 4 7 true none
     let s := kAt 0x48C40004 { regs := k1 0x01000000, sbuf := [.store 0x01000004 1 5 false none, e] }
     executes s (.ld .w 3 1 4) = true ∧ (kes s 0).youngest 0x01000004 = some e ∧ e.supplies 0x01000004 4 = true) ∧
    (let e : SbEntry := .store 0x01000006 2 7 true none
     let s := kAt 0x48C40004 { regs := k1 0x01000000, sbuf := [e] }
     executes s (.ld .w 3 1 4) = true ∧ (kes s 0).youngest 0x01000004 = some e ∧ e.supplies 0x01000004 4 = false) ∧
    (let s := kAt 0 { wait := .load 3 0x013FFFFC 4 true (some .data) }
     Going s 0 ∧ accessWaits s (0x013FFFFC / 4 * 4) false = false ∧ (kes s 0).onWay 0 (islandOf 0 0x013FFFFC) = false ∧
       endingOf s .data (0x013FFFFC / 4 * 4) .read = .data) ∧
    (endingOf (up .show) .absent 0x01000000 .read = .absent ∧ endingOf (up .show) .berr 0x00110000 .read = .berr) := by
  refine ⟨?_, ?_, ?_, ?_, ?_, ?_⟩ <;> first | decide +kernel | exact ⟨⟨rfl, rfl, rfl⟩, by decide +kernel⟩

theorem witness_KestrelMemory_stores :
    (∀ x ∈ [((0x4CC40004 : Word), StSize.w), (0x4CC48004, .h), (0x4CC58004, .b)],
      executes (kAt x.1 { regs := k1 0x01000000 }) (.st x.2 3 1 4) = true ∧
        executes (kAt x.1 { sbuf := List.replicate 8 (.store 0 4 0 false none) }) (.st x.2 3 1 4) = true) ∧
    (∀ x ∈ [((0x4CC40001 : Word), StSize.w), (0x4CC48001, .h)],
      executes (kAt x.1 {}) (.st x.2 3 1 1) = true ∧ ((kes (kAt x.1 {}) 0).ea 1 1).toNat % x.2.bytes ≠ 0 ∧
        (enableOf ((kes (kAt x.1 {}) 0).ea 1 1).toNat).any (fun b => !enabled (kAt x.1 {}) b) = false) ∧
    (let s : State := { kAt 0x4CC40004 { regs := k1 0x000F0000 } with ckp := (upCkp { (up .show).ckp with en := 0 }).ckp }
     executes s (.st .w 3 1 4) = true ∧ ((kes s 0).ea 1 4).toNat % 4 = 0 ∧ (kes s 0).bad 3 = false ∧
       (enableOf ((kes s 0).ea 1 4).toNat).any (fun b => !enabled s b) = true) ∧
    (let s := kAt 0x4CC40004 { regs := k1 0x00100000, mark := (Vector.replicate 16 false).set 3 true }
     executes s (.st .w 3 1 4) = true ∧ (kes s 0).bad 1 = false ∧ (kes s 0).bad 3 = true ∧
       memOf ((kes s 0).ea 1 4).toNat = none ∧ (enableOf ((kes s 0).ea 1 4).toNat).any (fun b => !enabled s b) = false) ∧
    (let e : SbEntry := .store 0x01000004 4 7 false none
     let s := kAt 0x4CC40004 { wait := .room e 0x4CC40004 }
     Going s 0 ∧ (kes s 0).wait = .room e 0x4CC40004 ∧ (kes s 0).sbuf.length < 8 ∧ entryTraps s 0x4CC40004 e = []) ∧
    (let s := kAt 0 { sbuf := [.store 0x01000004 4 7 false (some .data)] }
     s.mem.wf = true ∧ (kes s 0).crossed = [] ∧ memOf (0x01000004 : Word).toNat = some 0 ∧
       accessWaits s 0x01000004 true = false) := by
  refine ⟨?_, ?_, ?_, ?_, ?_, ?_⟩ <;> first | decide +kernel | exact ⟨⟨rfl, rfl, rfl⟩, by decide +kernel⟩

theorem witness_KestrelMemory_atomics :
    (∀ x ∈ [((0x68C48000 : Word), KInstr.swap 3 1 2), (0x6CC48000, .cas 3 1 2)],
      executes (kAt x.1 { regs := k1 0x01000000 }) x.2 = true ∧ executes (kAt x.1 { regs := k1 0x01000002 }) x.2 = true ∧
        executes (kAt x.1 { regs := k1 0x00100000 }) x.2 = true) ∧
    ((∃ m, memOf (0x01000000 : Word).toNat = some m ∧ (m < 8 ∨ 12 ≤ m)) ∧ memOf (0x00100000 : Word).toNat = none ∧
      ∃ m, memOf (0x00700000 : Word).toNat = some m ∧ 8 ≤ m ∧ m < 12) ∧
    (let s := kAt 0 { wait := .atomic 3 0x01000000 5 false (some 0) (some .data) }
     Going s 0 ∧ s.mem.wf = true ∧ accessWaits s 0x01000000 true = false ∧
       (kes s 0).onWay 0 (islandOf 0 0x01000000) = false ∧ (memWord32 s 0x01000000).1 = 0 ∧ (memWord32 s 0x01000000).2 = false) ∧
    executes (kAt 0x70000000 {}) .fence = true ∧
    executes (kAt 0x70000000 { sbuf := [.store 0x01000004 4 7 false none] }) .fence = true ∧
    ((kes (kAt 0 { wait := .fence }) 0).wait = .fence ∧ Going (kAt 0 { wait := .fence }) 0) :=
  ⟨by decide +kernel, ⟨⟨0, by decide⟩, by decide, ⟨8, by decide⟩⟩, ⟨⟨rfl, rfl, rfl⟩, by decide +kernel⟩, by decide +kernel,
    by decide +kernel, ⟨rfl, rfl, rfl, rfl⟩⟩

theorem witness_KestrelControlAndSignals_words :
    (∀ x ∈ [((0x74C00133 : Word), SprAct.rd), (0x74C20133, .set), (0x74C30133, .clr)],
      executes (kAt x.1 {}) (.spr x.2 3 0 0x133) = true) ∧
    (executes (kAt 0x74C00110 {}) (.spr .rd 3 0 0x110) = true ∧ executes (kAt 0x74C00102 {}) (.spr .rd 3 0 0x102) = true) ∧
    (∀ x ∈ [((0x74C50133 : Word), SprAct.wr), (0x74C60133, .set), (0x74C70133, .clr)],
      executes (kAt x.1 {}) (.spr x.2 3 1 0x133) = true ∧
        executes (kAt x.1 { mark := (Vector.replicate 16 false).set 1 true }) (.spr x.2 3 1 0x133) = true) := by
  refine ⟨?_, ?_, ?_⟩ <;> decide +kernel

/-- An SPR.WR of 3 into the register `y` executes. -/
def writesSpr (y : BitVec 12) : Bool := executes (kAt (0x74C50000 ||| y.setWidth 32) { regs := k1 3 }) (.spr .wr 3 1 y)

theorem witness_KestrelControlAndSignals_writes :
    writesSpr 0x112 = true ∧ writesSpr 0x113 = true ∧ writesSpr 0x130 = true ∧ writesSpr 0x131 = true ∧
      writesSpr 0x132 = true ∧ writesSpr 0x134 = true := by decide +kernel

theorem witness_KestrelControlAndSignals_writes_rest :
    writesSpr 0x121 = true ∧ writesSpr 0x122 = true ∧ writesSpr 0x124 = true ∧ writesSpr 0x120 = true ∧
      writesSpr 0x100 = true ∧ writesSpr 0x123 = true := by decide +kernel

theorem witness_KestrelControlAndSignals_events :
    executes (kAt 0x80300000 {}) (.post 12) = true ∧
    (executes (kAt 0x80300000 { sbuf := List.replicate 8 (.store 0 4 0 false none) }) (.post 12) = true ∧
      vget (kes (kAt 0 { mark := (Vector.replicate 16 false).set 15 true }) 0).mark (12 + 3) false = true ∧
      ∀ i : Fin 4, vget (kes (kAt 0 {}) 0).mark (12 + i.val) false = false) ∧
    (executes (kAt 0x84C40000 {}) (.wait 3 1) = true ∧ executes (kAt 0x84C40000 { regs := k1 2 }) (.wait 3 1) = true ∧
      pendOf (kAt 0x84C40000 { regs := k1 2 }) 0 &&& 2 = 0 ∧
      executes (kAt 0x84C40000 { regs := k1 2, stepping := true }) (.wait 3 1) = true) := by
  refine ⟨?_, ?_, ?_⟩ <;> decide +kernel

theorem witness_KestrelControlAndSignals_states :
    ((kes (kAt 0 { wait := .event 3 2 }) 0).wait = .event 3 2 ∧ Going (kAt 0 { wait := .event 3 2 }) 0 ∧
      pendOf (kAt 0 { wait := .event 3 2 }) 0 &&& 2 = 0 ∧
      pendOf { kAt 0 { wait := .event 3 2 } with host := { dbk := 1 } } 0 &&& 2 ≠ 0 ∧ chainRuns (up .show) = true) ∧
    (pdOn (up .show) (54 + 3) = true ∧ (kes (up .show) 3).rst = true ∧ (up .show).mode.code ≠ .boot ∧
      (up .boot).mode.code = .boot ∧ (kes (kAt 0 {}) 0).rst = false) ∧
    ((kes (kAt 0 { wait := .fence }) 0).inside = true ∧ (kes (kAt 0 {}) 0).inside = false ∧
      (kes (kAt 0 {}) 0).startPend = false ∧ (kes (kAt 0 {}) 0).halted = false ∧ (kes (kAt 0 {}) 0).dfault = false) ∧
    ((kes (kAt 0 { halted := true }) 0).halted = true ∧ (kes (kAt 0 { dfault := true }) 0).dfault = true) ∧
    (let s := kAt 0 { brk := #v[0, 0, 0, 0x80003FFC], pc := 0x3FFC }
     kReady s 0 = true ∧ (kes s 0).wait = .none ∧ (kes s 0).atBreak = true) :=
  ⟨⟨rfl, ⟨rfl, rfl, rfl⟩, by decide +kernel⟩, by decide +kernel⟩

/-- The device with one stored word of memory, at the first byte of bank 0. -/
def withWord (c : Code) : State := { up .show with mem := putRaw {} 0x01000000 c }

theorem witness_EccMemories :
    clearable (up .show) 0x00700000 = true ∧ clearable (up .show) 0x00100000 = false ∧
    (memOf (0x01000000 : Word).toNat = some 0 ∧ pdOn (up .show) (memDomain 0) = true ∧ pdOn (up .show) 1 = true ∧
      (up .show).dis.reads = [] ∧ memOf (0x0077FFFF : Word).toNat = none) ∧
    ((withWord (cleanCode 5)).mem.wf = true ∧ eccClass (rawWord (withWord (cleanCode 5)).mem 0x01000000) = .clean) ∧
    eccClass (rawWord (withWord (poisonCode 5)).mem 0x01000000) = .poison ∧
    ((withWord (cleanCode 5 ^^^ 0x800000000000000000)).mem.wf = true ∧
      eccClass (rawWord (withWord (cleanCode 5 ^^^ 0x800000000000000000)).mem 0x01000000) = .corrected) ∧
    ((withWord (cleanCode 5 ^^^ 3)).mem.wf = true ∧
      eccClass (rawWord (withWord (cleanCode 5 ^^^ 3)).mem 0x01000000) = .uncorrectable) ∧
    (bit ({ up .show with ecc := { cfg := 0 } } : State).ecc.cfg 31 = false ∧ pdOn (upPd .show 1 .off) 1 = false) ∧
    (let s := withWord (cleanCode 5 ^^^ 0x800000000000000000)
     bit ({ s with ecc := { cfg := 0x80000000 } } : State).ecc.cfg 31 = true ∧ scrubAddr s 0 = 0x01000000 ∧
       pdOn s (46 + 0) = true ∧ pdOn (upPd .show 46 .off) (46 + 0) = false) := by decide +kernel

/-- The device with its hoods lifted, a scan done and the emitter `n` as `e`. -/
def driving (n : Fin 64) (e : DrvEm) : State :=
  { up .show with
    pins := { vfield := true }, ckp := { (up .show).ckp with hood := false }, owl := { hooded := false }
    host := { hood := 0 }
    drv := { lhood := false, modeHood := false, scanDone := true, em := (Vector.replicate 64 {}).set n e } }

theorem witness_EmittersAndFaults :
    ((upMode { code := .roost }).mode.code = .roost ∧ islandUp (upCkp {}) 4 = false ∧ pdOn (upPd .show 59 .off) 59 = false ∧
      pdOn (up .show) 59 = true ∧ islandUp (up .show) 4 = true ∧ (up .show).mode.code ≠ .roost ∧
      (let s : State := { up .show with chn := { ticks := 1 }, emt := { fl := (Vector.replicate 4 {}).set 3 { fcfg := 0 } } }
       bit (s.emt.fl[3]).fcfg 31 = false ∧ s.ros.look = false ∧ s.emt.preTick < s.chn.ticks)) ∧
    ((0 : Nat) < 1 ∧ 7 < 8) ∧
    fld (drvEm (driving 63 { cfg := 0 }) (leaderOf (driving 63 { cfg := 0 }) 63)).cfg 0 8 = 0 ∧
    fld (drvEm (driving 63 { cfg := 0x11500001 }) (leaderOf (driving 63 { cfg := 0x11500001 }) 63)).cfg 0 8 ≠ 0 ∧
    (drvLink (up .show) = true ∧ drvLink { up .show with sys := {} } = false) ∧
    (let s := driving 0 {}
     s.pins.vfield = true ∧ ((drvEm s 0).valid && (drvEm s 0).scan == 1) = false ∧ emHood s 0 = false) ∧
    (let s := driving 0 { valid := true, scan := 1 }
     ((drvEm s 0).valid && (drvEm s 0).scan == 1) = true ∧ emHood (up .show) 0 = true) ∧
    ((63 / 32 == true.toNat && bit (0x80000000 : Word) (63 % 32)) = true ∧ (32 / 32 == false.toNat) = false) ∧
    ((up .show).mode.code ≠ .service ∧ ({ up .service with drv := { scanBusy := true } } : State).drv.scanBusy = true) ∧
    (let s : State := { up .service with pins := { vfield := true } }
     drvLink s = true ∧ s.mode.code = .service ∧ s.drv.scanBusy = false ∧ s.pins.vfield = true) ∧
    (let s : State := { up .show with drv := { scanBusy := true, scanPos := 63 } }
     s.drv.scanBusy = true ∧ s.drv.scanPos < 64 ∧ s.drv.scanPos ≠ 64) ∧
    (let s : State := { up .show with drv := { scanBusy := true, scanPos := 64 } }
     s.drv.scanBusy = true ∧ s.drv.scanPos = 64 ∧ 64 ≤ s.drv.scanPos ∧ s.mode.code ≠ .boot) ∧
    ((up .show).sys.dlink = true ∧ State.reset.sys.dlink = false) := by decide +kernel

/-- The device with a changed AOU. -/
def upAou (x : Aou) : State := { up .show with aou := x }

theorem witness_AnalogOutputs :
    (aouRuns (upMode { code := .roost }) = false ∧ aouRuns (up .show) = true ∧ aouOn (up .show) = true ∧
      aouOn (upCkp {}) = false) ∧
    (let s := upAou { ch := (Vector.replicate 16 {}).set 15 { cfg := 0x00010002 } }
     lookCode s 15 = none ∧ fld (s.aou.ch[15]).cfg 0 2 ≠ 3 ∧ fld (s.aou.ch[15]).cfg 16 16 ≠ 0 ∧
       fld (s.aou.ch[15]).cfg 0 2 ≠ (s.aou.ch[15]).mode.toNat ∧ (s.aou.ch[15]).next = none ∧
       fld (s.aou.ch[0]).cfg 16 16 = 0 ∧ fld (s.aou.ch[0]).cfg 0 2 = (s.aou.ch[0]).mode.toNat) ∧
    (let s : State := { up .show with ros := { look := true, saved := { used := 0x8000 } } }
     lookCode s 15 = some 0 ∧ lookCode s 14 = none) ∧
    (let s := upAou { ch := (Vector.replicate 16 {}).set 15 { fifo := List.replicate 31 0 } }
     (s.aou.ch[15]).fifo.length < 32) ∧
    (let s := upAou { ch := (Vector.replicate 16 {}).set 15 { fifo := List.replicate 32 0 } }
     32 ≤ (s.aou.ch[15]).fifo.length) ∧
    (let s := upAou { arm := true, strobe := 2, smask := 0x8001,
                      ch := ((Vector.replicate 16 {}).set 15 { mode := 3 }).set 0 { mode := 2 } }
     aouRuns s = true ∧ s.aou.arm = true ∧ fld s.aou.strobe 0 2 = 2 ∧ bit s.aou.smask 1 = false ∧ (s.aou.ch[1]).mode = 0 ∧
       (bit s.aou.smask 0 = true ∧ (s.aou.ch[0]).mode = 2) ∧ bit s.aou.smask 15 = true ∧ (s.aou.ch[15]).mode = 3) ∧
    (let s := upAou { strobe := 3 }; aouRuns s = true ∧ s.aou.arm = false ∧ fld s.aou.strobe 0 2 = 3) ∧
    (drvLink (up .show) = true ∧ drvLink { up .show with sys := {} } = false) ∧
    (aoIso (driving 0 {}) 15 = false ∧ ((up .show).drv.ao[15]).iso = false) ∧
    (let s : State := { up .show with drv := { ao := (Vector.replicate 16 {}).set 15 { iso := true } } }
     (s.drv.ao[15]).iso = true ∧ aoIso s 15 = true) := by decide +kernel

/-- The device with a changed pixel port 3. -/
def upPix (x : PixPort) : State := { up .show with pix := { port := (Vector.replicate 4 {}).set 3 x } }

/-- The device with a changed DMX port 1. -/
def upDmx (x : DmxPort) : State := { up .show with dmx := { port := (Vector.replicate 2 {}).set 1 x } }

theorem witness_PixelAndDmxPorts :
    (let s := upPix { busy := true, act := #v[0x08000000, 0, 0, 0] }
     (s.pix.port[3]).busy = true ∧ (s.pix.port[3]).gap = false ∧ bit ((s.pix.port[3]).act[0]) 27 = true) ∧
    (let s := upPix { busy := true, act := #v[0, 0, 0, 0] }
     (s.pix.port[3]).busy = true ∧ (s.pix.port[3]).gap = false ∧ bit ((s.pix.port[3]).act[0]) 27 = false) ∧
    (((upPix { busy := true, gap := true }).pix.port[3]).gap = true ∧ ((upPix {}).pix.port[3]).busy = false ∧
      ((upPix {}).pix.port[3]).gap = false) ∧
    dmxInputPort (up .show) 1 = false ∧
    (let s := upDmx { cfg := 0x80000000 }
     dmxInputPort s 1 = true ∧ fld (dmxPort s 1).map 0 10 = 0 ∧ bit (dmxPort s 1).cfg 29 = false ∧ (dmxPort s 1).lost = false) ∧
    (let s := upDmx { cfg := 0xA0000000 }; dmxInputPort s 1 = true ∧ bit (dmxPort s 1).cfg 29 = true) ∧
    (dmxPort (upDmx { lost := true }) 1).lost = true ∧
    (dmxOn (up .show) = true ∧ (dmxPort (upDmx { txBusy := true }) 1).txBusy = true ∧ (dmxPort (up .show) 1).txBusy = false ∧
      dmxOn (upCkp {}) = false) := by decide +kernel

theorem witness_RdmResponderAnswers :
    rdmAddressed (up .show) 1 ⟨BitVec.allOnes 48, 0, 0⟩ = false ∧
    (rdmPort (upDmx { cfg := 0xA0000000 }) 1 = true ∧ rdmBroadcast (upDmx { cfg := 0xA0000000 }) ⟨BitVec.allOnes 48, 0, 0⟩ = true) ∧
    (([] : List Byte).length ≤ 32 ∧ (List.replicate 32 (0 : Byte)).length ≤ 32 ∧ 32 < (List.replicate 33 (0 : Byte)).length) ∧
    ((1 : Half).toNat = 1 ∧ (512 : Half).toNat ≤ 512 ∧ (0 : Half).toNat = 0 ∧ 512 < (513 : Half).toNat) ∧
    ((1 : Byte).toNat ≤ 1 ∧ 1 < (2 : Byte).toNat ∧ (2 : Byte) ≠ 0x01 ∧ (2 : Byte) ≠ 0xFF) ∧
    (bit (dmxPort (upDmx { cfg := 0xA4000000 }) 1).cfg 26 = true ∧ bit (dmxPort (upDmx { cfg := 0xA0000000 }) 1).cfg 26 = false ∧
      (up .show).mode.inPor = false ∧ (up .show).mode.code ≠ .roost ∧ (up .show).mode.code ≠ .dormant) ∧
    (bit (dmxPort (upDmx { cfg := 0xB0000000 }) 1).cfg 28 = true ∧ bit (dmxPort (upDmx { cfg := 0xA0000000 }) 1).cfg 28 = false ∧
      (up .show).dmx.rxrdy = false ∧ dmxOn (upCkp {}) = false) ∧
    (let s : State := { up .show with dmx := { rxrdy := true } }; dmxOn s = true ∧ s.dmx.rxrdy = true) := by decide +kernel

/-- A broadcast reaches the responder. -/
theorem witness_RdmResponderAnswers_broadcast {s : State} {p : Fin 2} {q : RdmReq} (h : rdmPort s p = true)
    (b : rdmBroadcast s q = true) : rdmAddressed s p q = true := by simp [rdmAddressed, h, b]

/-- A request to this responder alone is no broadcast, whatever the fused UID is but all ones. -/
theorem witness_RdmResponderAnswers_unicast (h : Config.uid.setWidth 32 ≠ BitVec.allOnes 32) :
    let s := upDmx { cfg := 0xA0000000 }
    rdmAddressed s 1 ⟨rdmUid s, 0, 0⟩ = true ∧ rdmBroadcast s ⟨rdmUid s, 0, 0⟩ = false := by
  have p : rdmPort (upDmx { cfg := 0xA0000000 }) 1 = true := by decide +kernel
  have m : (upDmx { cfg := 0xA0000000 }).dmx.manf = 0 := rfl
  have u : (rdmUid (upDmx { cfg := 0xA0000000 })).toNat = (Config.uid.setWidth 32).toNat := by
    rw [rdmUid, m, BitVec.toNat_append]; simp
  have l := (Config.uid.setWidth 32).isLt
  refine ⟨by rw [rdmAddressed, p]; simp, ?_⟩
  simp only [rdmBroadcast, Bool.or_eq_false_iff, beq_eq_false_iff_ne]
  constructor <;> intro e
  · have := congrArg BitVec.toNat e
    rw [u] at this
    simp at this
    omega
  · have := congrArg BitVec.toNat e
    rw [u, m, BitVec.toNat_append] at this
    exact h (BitVec.eq_of_toNat_eq (by simpa using this))

/-- The device with a changed converter. -/
def upSns (x : Sns) : State := { up .show with sns := x }

/-- The device with a changed beat tracker. -/
def upAud (x : Aud) : State := { up .show with aud := x }

theorem witness_SenseAndAudio :
    (enabled (upCkp {}) 3 = false ∧ pdOn (upPd .show 63 .off) 63 = false ∧ (upMode { code := .roost }).mode.code = .roost ∧
      islandUp (upCkp {}) 5 = false) ∧
    (let s := upSns { ctrl := 0xA0010001, pass := true }
     snsOn s = true ∧ snsRuns s = true ∧ s.sns.run = true ∧ s.sns.single = true ∧ fld s.sns.ctrl 26 2 = 0 ∧ s.sns.pass = true ∧
       s.sns.tags = 0 ∧ s.sns.fifo.length < 256 ∧ s.sns.fifo.length + 1 = fld s.sns.ctrl 0 9) ∧
    (let s := upSns { ctrl := 0xA0010001 }
     s.sns.run = true ∧ s.sns.pass = false ∧ (s.sns.trig || !s.sns.single) = false ∧
       (true || !s.sns.single) = true) ∧
    (let s := upSns {}; snsOn s = true ∧ s.sns.run = false ∧ s.sns.single = false) ∧
    (let s := upSns { ctrl := 0x80010001, pass := true, fifo := List.replicate 256 0 }
     snsRuns s = true ∧ s.sns.run = true ∧ s.sns.tags = 0 ∧ 256 ≤ s.sns.fifo.length) ∧
    (let s := upSns { ctrl := 0x80010002, pass := true, tags := 1, fifo := List.replicate 255 0 }
     s.sns.fifo.length < 256 ∧ 0 < s.sns.tags ∧ bit s.sns.ctrl 28 = false ∧ s.sns.fifo.length + 1 ≠ fld s.sns.ctrl 0 9) ∧
    (let s := upSns { ctrl := 0x90010001, pass := true, tags := 1 }
     snsRuns s = true ∧ s.sns.run = true ∧ s.sns.pass = true ∧ 0 < s.sns.tags ∧ bit s.sns.ctrl 28 = true) ∧
    (enabled (up .show) 3 = true ∧ pdOn (up .show) 63 = true ∧ (up .show).sns.pass = false) ∧
    (audOn (upCkp {}) = false ∧ audOn (up .show) = true ∧ (upAud { lock := true }).aud.lock = true ∧
      (upAud {}).aud.lock = false ∧ rateCode 524288 ≠ 0 ∧ bit (up .show).aud.cfg 31 = false ∧
      bit (upAud { cfg := 0x80000000 }).aud.cfg 31 = true) ∧
    (let s := upAud { nextBeat := 64, cfg := 0x08000000 }
     audOn s = true ∧ s.aud.nextBeat ≤ 64 * ((s.aud.now : Int) + 1) ∧ bit s.aud.cfg 27 = true) ∧
    (64 * (((upAud { nextBeat := 65 }).aud.now : Int) + 1) < (upAud { nextBeat := 65 }).aud.nextBeat) ∧
    (∀ x ∈ (up .show).aud.odf, x = 0) := by decide +kernel

/-- The device with a changed timer 7. -/
def upGpt (x : Gpt) : State := { up .show with gpt := { t := (Vector.replicate 8 {}).set 7 x } }

theorem witness_GeneralTimers :
    (gptRuns (upCkp {}) = false ∧ gptOn (upCkp {}) = false ∧ gptRuns (up .show) = true ∧ gptOn (up .show) = true ∧
      running (up .show) (gpt (up .show) 7) = false ∧
      (let s := upGpt { cfg := 0x81000007 }; running s (gpt s 7) = true ∧ gateOpen s (gpt s 7) = true) ∧
      (let s := upGpt { cfg := 0x81800007 }; running s (gpt s 7) = true ∧ gateOpen s (gpt s 7) = false)) ∧
    (let s := upGpt { cfg := 0x80E00007 }
     running s (gpt s 7) = true ∧ gateOpen s (gpt s 7) = true ∧ (gpt s 7).match_.toNat ≤ (gpt s 7).top.toNat ∧ bit (gpt s 7).cfg 2 = true ∧
       bit (gpt s 7).cfg 1 = true ∧ bit (gpt s 7).cfg 0 = true ∧ bit (gpt s 7).cfg 21 = true ∧ bit (gpt s 7).cfg 22 = true) ∧
    (let s := upGpt { cfg := 0x80800000, top := 5, match_ := 6 }
     running s (gpt s 7) = true ∧ gateOpen s (gpt s 7) = true ∧ (gpt s 7).top.toNat < (gpt s 7).match_.toNat ∧ bit (gpt s 7).cfg 1 = false ∧
       bit (gpt s 7).cfg 21 = false ∧ bit (gpt s 7).cfg 22 = false ∧ fld (gpt s 7).cfg 29 2 ≠ 3) ∧
    (let s := upGpt { cfg := 0xE0200000, top := 5, count := 5 }
     running s (gpt s 7) = true ∧ fld (gpt s 7).cfg 29 2 = 3 ∧ bit (gpt s 7).cfg 24 = false ∧ fld (gpt s 7).cfg 19 2 = 0 ∧
       bit (gpt s 7).cfg 21 = true ∧ fld (gpt s 7).cfg 8 8 ≤ (gpt s 7).pre ∧ (gpt s 7).count = (gpt s 7).top ∧
       gptRuns s = true) := by decide +kernel

/-- The first 52 bytes of a management command with MSEQ = 1. -/
def command (fn b : Byte) (addr : Nat) : List Byte :=
  [0, 0, 0, 0, fn, b, 0, 0, 0, 1, 0, 0] ++ beBytes 4 addr ++ List.replicate 36 0

theorem signed_macOk (m : Mgt) (k : m.mkey = 1) (base : List Byte) (h : base.length = 52) : cmdMacOk m (signed base) = true := by
  have e : slice (signed base) (4 + 48) 16 = beBytes 16 (aesCmac 1 base).toNat := by
    apply List.ext_getElem
    · simp [slice, beBytes, leBytes_length]
    · intro i h1 h2
      simp only [slice, signed, List.getElem_map, List.getElem_range, List.getD_eq_getElem?_getD]
      rw [List.getElem?_append_right (by omega), h, Nat.add_sub_cancel_left, List.getElem?_eq_getElem h2]; rfl
  have l : (aesCmac 1 base).toNat < 256 ^ 16 := (aesCmac 1 base).isLt
  have t : (signed base).take 52 = base := by simp [signed, ← h]
  rw [cmdMacOk, cmdNum, e, beNat_beBytes, Nat.mod_eq_of_lt l, t, k, BitVec.ofNat_toNat, BitVec.setWidth_eq]
  exact beq_self_eq_true _

theorem witness_ManagementAndContent_refused :
    chainRuns (up .show) = true ∧
    ∀ x ∈ [(1 : Byte), 2, 3, 4, 5, 6, 8], cmdFn (command x 0 0) = x.toNat ∧ ∃ r, cmdCheck { cfg := 1, mseq := 1 } (command x 0 0) = some r := by
  refine ⟨by decide +kernel, ?_⟩
  simp only [List.forall_mem_cons, List.not_mem_nil, false_implies, implies_true, and_true]
  refine ⟨⟨by decide +kernel, ?_⟩, ⟨by decide +kernel, ?_⟩, ⟨by decide +kernel, ?_⟩, ⟨by decide +kernel, ?_⟩,
    ⟨by decide +kernel, ?_⟩, ⟨by decide +kernel, ?_⟩, by decide +kernel, ?_⟩ <;>
  · unfold cmdCheck
    cases Config.mauth
    · exact ⟨2, by decide +kernel⟩
    · exact ⟨4, by decide +kernel⟩

theorem command_length (fn b : Byte) (addr : Nat) : (command fn b addr).length = 52 := by
  simp [command, beBytes, leBytes_length]

theorem witness_ManagementAndContent_passed :
    ∀ x ∈ [((2 : Byte), (16 : Byte), 0x01000000), (3, 2, 0), (4, 1, 0), (5, 0, 0), (6, 16, 0), (8, 0, 0)],
      cmdFn (signed (command x.1 x.2.1 x.2.2)) = x.1.toNat ∧
        cmdCheck { mkey := 1 } (signed (command x.1 x.2.1 x.2.2)) = none := by
  simp only [List.forall_mem_cons, List.not_mem_nil, false_implies, implies_true, and_true]
  refine ⟨⟨by decide +kernel, ?_⟩, ⟨by decide +kernel, ?_⟩, ⟨by decide +kernel, ?_⟩, ⟨by decide +kernel, ?_⟩,
    ⟨by decide +kernel, ?_⟩, by decide +kernel, ?_⟩ <;>
  · rw [cmdCheck, signed_macOk { mkey := 1 } rfl (command _ _ _) (command_length _ _ _)]
    cases Config.mauth <;> decide +kernel

theorem witness_ManagementAndContent_commands :
    (chainRuns State.reset = false ∧ (up .show).mgt.queue = [] ∧
      ∀ a ∈ [0x01000000, 0x00000000], ∀ w : Bool, accessWaits (up .show) a w = false) ∧
    (let s : State := { up .show with epoch := { snap := true } }
     accessWaits s 0x00040800 true = true ∧ accessWaits s 0x00040800 false = false ∧ accessWaits s 0x00040B00 true = false) ∧
    (let c := command 1 0 0x01000000
     cmdCheck {} c = none ∧ cmdFn c = 1 ∧ (memOf ((cmdAddr c).toNat / 4 * 4)).isSome = true ∧
       ending (up .show) .mgmt ((cmdAddr c).toNat / 4 * 4) .read = .data) ∧
    (let c := signed (command 2 16 0x01000000)
     ending (upPd .show 46 .off) .mgmt ((cmdAddr c).toNat / 4 * 4) (.write 4 (cmdData c) false) = .absent) ∧
    (let c := signed (command 4 1 0)
     gateRefuses (up .show) (GateCmd.ofCode (cmdByte c 1 % 8)) .mgmt (gateDomain ((cmdAddr c).setWidth 7)) = true) ∧
    (cmdByte (signed (command 6 16 0)) 1 = 16 ∧ cmdByte (command 6 15 0) 1 = 15 ∧ 16 < cmdByte (command 6 17 0) 1 ∧
      pdOn (upPd .show 12 .off) 12 = false ∧ cmdFn (command 0 0 0) = 0 ∧ 9 ≤ cmdFn (command 9 0 0)) ∧
    (∀ x ∈ [(1 : Byte), 2, 3, 4], cmdFn (command 7 x 0) = 7 ∧ cmdByte (command 7 x 0) 1 = x.toNat) ∧
    (cmdByte (command 7 0 0) 1 = 0 ∧ 4 < cmdByte (command 7 5 0) 1) := by decide +kernel

theorem witness_ManagementAndContent_content :
    hostUp (up .show) = true ∧
    (∀ x ∈ [(2 : BitVec 3), 4], contentBusy { cstate := x } = true) ∧
    (∀ x ∈ [(0 : BitVec 3), 5, 6], contentBusy { cstate := x } = false ∧ beginAllowed { cstate := x } 128 = true) ∧
    (let s : State := { up .service with mgt := { cstate := 3 } }; hostUp s = true ∧ s.mgt.cstate = 3 ∧ s.mode.code = .service) ∧
    ((up .show).mode.code ≠ .service ∧ ({ cstate := 2 } : Mgt).cstate = 2 ∧ ({ cstate := 4 } : Mgt).cstate = 4) ∧
    (hostUp (upPd .show 1 .off) = false ∧ beginAllowed { cstate := 1 } 128 = false ∧ ({ cstate := 1 } : Mgt).cstate ≠ 3 ∧
      (up .show).mgt.cstate ≠ 1 ∧ (up .show).mgt.cstate ≠ 4 ∧ pd1Up (upPd .show 1 .off) = false) ∧
    (let s : State := { upPd .show 52 .off with mgt := { cstate := 2 } }
     s.mgt.cstate = 2 ∧ (engineRead s s.mgt.cstage.toNat s.mgt.len).2.2 = true) := by decide +kernel

theorem witness_ManagementAndContent_cells :
    let c := cellRx 5 0 0x400 (List.replicate 64 0)
    let b := cellRx 7 0 0 ([0, 0, 0, 9, 0, 0, 0, 56] ++ List.replicate 56 0)
    let s : State := { ringed .show with mgt := { cstate := 1, cid := 9 } }
    tapRuns s (ringPort c.ring) = true ∧
    ((addressedHere s c.bytes && !cellSeen s c) = true ∧ takesMgmt s = true ∧ cellType c.bytes = 5 ∧
      cellAux c.bytes / 256 % 16 = 4 ∧ cellAux (cellRx 5 0 0x300 []).bytes / 256 % 16 ≠ 4 ∧ s.mgt.queue.length < 8) ∧
    (cellType b.bytes = 7 ∧ (addressedHere s b.bytes && !cellSeen s b) = true ∧ payNum b.bytes 0 4 = s.mgt.cid.toNat ∧
      payNum b.bytes 4 4 % 56 = 0 ∧ payNum b.bytes 4 4 < s.mgt.len) ∧
    ((up .show).mgt.cstate ≠ 1 ∧ payNum b.bytes 0 4 ≠ ({} : Mgt).cid.toNat ∧ ({} : Mgt).len ≤ payNum (cellRx 7 0 0 [0, 0, 0, 9, 0, 0, 0, 168]).bytes 4 4 ∧
      payNum (cellRx 7 0 0 [0, 0, 0, 9, 0, 0, 0, 55]).bytes 4 4 % 56 ≠ 0) ∧
    8 ≤ (List.replicate 8 c.bytes.toList).length := by decide +kernel

theorem witness_ManagementAndContent_sealed :
    let c := cellRx 5 0 0x400 (List.replicate 64 0)
    let b := cellRx 7 0 0 ([0, 0, 0, 9, 0, 0, 0, 56] ++ List.replicate 56 0)
    (c.ok && cellCrcOk c.bytes) = true ∧ (b.ok && cellCrcOk b.bytes) = true := by
  refine ⟨?_, ?_⟩ <;> exact Bool.and_eq_true_iff.2 ⟨rfl, cellCrcOk_sealed _⟩

theorem witness_JtagSelectsAndDebugs :
    let x : Access := { addr := 0x01000003, data := none, adm := .data }
    ((up .show).jtag.ir ≠ .kdebug ∧ ({ ir := .kdebug, acc := some x } : Jtag).acc.isSome = true) ∧
    (({ ir := .kdebug } : Jtag).ir = .kdebug ∧ ({ ir := .kdebug } : Jtag).acc = none ∧ bit (1 <<< 64 : BitVec 65) 64 = true ∧
      bit (0 : BitVec 65) 64 = false) ∧
    (let s : State := { up .show with jtag := { acc := some x } }
     s.jtag.acc = some x ∧ accessWaits s (x.addr.toNat / 4 * 4) x.data.isSome = false ∧
       endingOf s x.adm (x.addr.toNat / 4 * 4) (winAsk x.data) = .data) ∧
    endingOf (up .show) .absent (x.addr.toNat / 4 * 4) (winAsk x.data) = .absent ∧
    (let s := island2 { act := 1, sw := some ⟨0, 0, true, false, false, false⟩ }
     accessWaits s (x.addr.toNat / 4 * 4) x.data.isSome = true) := by decide +kernel

end Sys2Proof.Tests
end

/-! SUPPORT. Bit fields: what a bit of a word holds after a field of it has been replaced, and after a register write whose
fields are all plain read-write ones (R10, R11). -/

namespace Sys2Proof.Machine

/-- A bit of a word whose field has been replaced: the new field's own bit inside it, the old bit elsewhere. -/
theorem bit_setFld {n : Nat} (w : BitVec n) (lo len v i : Nat) (h : lo + len ≤ n) :
    bit (setFld w lo len v) i = if lo ≤ i ∧ i < lo + len then v.testBit (i - lo) else bit w i := by
  have hlow : w.toNat % 2 ^ lo < 2 ^ lo := Nat.mod_lt _ (Nat.two_pow_pos lo)
  have hmid : v % 2 ^ len < 2 ^ len := Nat.mod_lt _ (Nat.two_pow_pos len)
  have hcat : w.toNat / 2 ^ (lo + len) * 2 ^ (lo + len) + v % 2 ^ len * 2 ^ lo + w.toNat % 2 ^ lo =
      2 ^ lo * (2 ^ len * (w.toNat / 2 ^ (lo + len)) + v % 2 ^ len) + w.toNat % 2 ^ lo := by rw [pow_add]; ring
  by_cases hi : i < n
  · simp only [bit, BitVec.getLsbD, setFld, BitVec.toNat_ofNat, hcat, Nat.testBit_mod_two_pow, hi, decide_true,
      Bool.true_and, Nat.testBit_two_pow_mul_add _ hlow, Nat.testBit_two_pow_mul_add _ hmid]
    by_cases h1 : i < lo
    · simp [h1, Nat.not_le_of_lt h1]
    · by_cases h2 : i - lo < len
      · simp [h1, h2, show lo ≤ i ∧ i < lo + len by omega]
      · simp [h1, h2, Nat.testBit_div_two_pow, show ¬(i < lo + len) by omega, show i - lo - len + (lo + len) = i by omega]
  · simp [bit, BitVec.getLsbD_of_ge _ _ (Nat.le_of_not_lt hi), show ¬(i < lo + len) by omega]

/-- A bit of a field's value is the word's bit at its place. -/
theorem testBit_fld {n : Nat} (w : BitVec n) (lo len j : Nat) :
    (fld w lo len).testBit j = (decide (j < len) && bit w (lo + j)) := by
  simp [fld, bit, BitVec.getLsbD, Nat.testBit_mod_two_pow, Nat.testBit_div_two_pow, Nat.add_comm]

/-- The field holds bit `i` of its register. -/
def Field.covers (f : Field) (i : Nat) : Bool := decide (f.lo ≤ i ∧ i < f.lo + f.len)

/-- The field is read-write, and every value of it is legal. -/
def Field.plain (f : Field) : Bool := f.range == .all && f.acc == .rw

/-- A plain field stores what is written. -/
theorem Field.next_of_plain {f : Field} (h : f.plain = true) (old v : Nat) : f.next old v = v := by
  simp only [Field.plain, Bool.and_eq_true, beq_iff_eq] at h
  obtain ⟨hrange, hacc⟩ := h
  simp [Field.next, hacc, Range.fix, hrange]

/-- A register of plain fields: a written field holds the bits written, every other bit what it held (R8, R10). -/
theorem bit_applyWrite_of_plain {n : Nat} (fs : List Field) (old v : BitVec n) (i : Nat)
    (h : ∀ f ∈ fs, f.plain = true ∧ f.lo + f.len ≤ n) :
    bit (applyWrite fs old v) i = if fs.any (·.covers i) then bit v i else bit old i := by
  suffices main : ∀ w : BitVec n,
      bit (fs.foldl (fun w f => setFld w f.lo f.len (f.next (fld old f.lo f.len) (fld v f.lo f.len))) w) i =
        if fs.any (·.covers i) then bit v i else bit w i from main old
  induction fs with
  | nil => intro w; rfl
  | cons f fs ih =>
    intro w
    obtain ⟨hplain, hlen⟩ := h f (by simp)
    rw [List.foldl_cons, ih (fun g hg => h g (by simp [hg])), List.any_cons, Field.next_of_plain hplain,
      bit_setFld _ _ _ _ _ hlen, testBit_fld]
    by_cases hc : f.lo ≤ i ∧ i < f.lo + f.len
    · simp [Field.covers, hc, show i - f.lo < f.len by omega, Nat.add_sub_cancel' hc.1]
    · simp [Field.covers, hc]

/-! ## Halves of the interrupt registers -/

theorem toNat_putHalf_low (w : Word) (v : Half) :
    (putHalf w false v).toNat = w.toNat / 2 ^ 16 * 2 ^ 16 + v.toNat := by
  simp only [putHalf, setFld, BitVec.toNat_ofNat, Bool.false_eq_true, if_false]
  omega

theorem toNat_putHalf_high (w : Word) (v : Half) :
    (putHalf w true v).toNat = v.toNat * 2 ^ 16 + w.toNat % 2 ^ 16 := by
  simp only [putHalf, setFld, BitVec.toNat_ofNat, if_true]
  omega

theorem putHalf_zero_low (v : Half) : putHalf 0 false v = v.setWidth 32 := by
  apply BitVec.eq_of_toNat_eq
  rw [toNat_putHalf_low, BitVec.toNat_setWidth]
  simp only [BitVec.ofNat_eq_ofNat, BitVec.toNat_ofNat]
  omega

theorem putHalf_zero_high (v : Half) : putHalf 0 true v = v.setWidth 32 <<< 16 := by
  apply BitVec.eq_of_toNat_eq
  rw [toNat_putHalf_high, BitVec.toNat_shiftLeft, BitVec.toNat_setWidth, Nat.shiftLeft_eq]
  simp only [BitVec.ofNat_eq_ofNat, BitVec.toNat_ofNat]
  omega

/-- A write of the low half stores it and leaves the high one. -/
theorem putHalf_low (w : Word) (v : Half) :
    (putHalf w false v).setWidth 16 = v ∧ putHalf w false v >>> 16 = w >>> 16 := by
  constructor <;> apply BitVec.eq_of_toNat_eq
  · rw [BitVec.toNat_setWidth, toNat_putHalf_low]
    omega
  · rw [BitVec.toNat_ushiftRight, BitVec.toNat_ushiftRight, toNat_putHalf_low, Nat.shiftRight_eq_div_pow,
      Nat.shiftRight_eq_div_pow]
    omega

/-- A write of the high half stores it and leaves the low one. -/
theorem putHalf_high (w : Word) (v : Half) :
    putHalf w true v >>> 16 = v.setWidth 32 ∧ (putHalf w true v).setWidth 16 = w.setWidth 16 := by
  constructor <;> apply BitVec.eq_of_toNat_eq
  · rw [BitVec.toNat_ushiftRight, toNat_putHalf_high, BitVec.toNat_setWidth, Nat.shiftRight_eq_div_pow]
    omega
  · rw [BitVec.toNat_setWidth, BitVec.toNat_setWidth, toNat_putHalf_high]
    omega

/-! ## Registers of plain fields, and the range of SYS_GATECFG -/

/-- HB_BOOTCFG stores its upper byte, and its reserved lower byte keeps what it holds (Table 2.12). -/
theorem applyWrite_bootcfg (old v : Half) :
    (applyWrite bootcfgFields old v).extractLsb' 8 8 = v.extractLsb' 8 8 ∧
      (applyWrite bootcfgFields old v).setWidth 8 = old.setWidth 8 := by
  have hbit (i : Nat) := bit_applyWrite_of_plain bootcfgFields old v i (by decide)
  simp only [bit] at hbit
  have hcover : ∀ i < 16, bootcfgFields.any (·.covers i) = decide (8 ≤ i) := by decide
  constructor
  · ext i hi
    simp [hbit, hcover (8 + i) (by omega)]
  · ext i hi
    simp [hbit, hcover i (by omega), Nat.not_le_of_lt hi]

/-- HB_HOOD stores its fields, and its reserved bits read 0 (Table 5.16). -/
theorem applyWrite_hood (v : Half) : applyWrite hoodFields 0 v = v &&& 0x01F1 := by
  have hcover : ∀ i < 16, hoodFields.any (·.covers i) = (0x01F1 : Half).getLsbD i := by decide
  ext i hi
  have h := bit_applyWrite_of_plain hoodFields 0 v i (by decide)
  simp only [bit, hcover i hi, BitVec.getLsbD_eq_getElem hi] at h
  rw [h, BitVec.getElem_and]
  cases (0x01F1 : Half)[i] <;> simp

/-- SYS_GATECFG stores the nearest of 1 to 1000 (R4, Table 4.8). -/
theorem applyWrite_gatecfg (v : Word) :
    (low 10 (applyWrite gatecfgFields 0 v)).toNat = min (max (v.toNat % 1024) 1) 1000 := by
  have hstore : applyWrite gatecfgFields 0 v = setFld 0 0 10 (clampN 1 1000 (fld v 0 10)) := rfl
  have hfld : fld v 0 10 = v.toNat % 1024 := by simp [fld]
  have hclamp : clampN 1 1000 (v.toNat % 1024) = min (max (v.toNat % 1024) 1) 1000 := by
    unfold clampN
    split
    · omega
    · split <;> omega
  rw [hstore, hfld, hclamp]
  simp only [low, setFld, BitVec.toNat_setWidth, BitVec.toNat_ofNat]
  omega

end Sys2Proof.Machine

/-! SUPPORT. A host write that is served (R115-R118): its effect in the state that the access meets, and beside it only what
the owl sees (R135). -/

namespace Sys2Proof.Machine

/-- The owl's part of an access touches the owl alone. -/
theorem owlSees_frame (o : Owl) (a : HostAccess) (s : State) : owlSees o a s = s.setOwl (owlSees o a s).owl := by
  unfold owlSees
  split
  · rfl
  · split <;> rfl

/-- An access that is served has its effect in `lateTime s`, and the owl sees it. -/
theorem hostAccess_of_served {s : State} (h : HostServed s) (a : HostAccess) :
    hostAccess a s = owlSees (lateTime s).owl a (hostServe a (lateTime s)) := by
  obtain ⟨hpor, haon, hroost⟩ := h
  simp [hostAccess, hostRun, hpor, haon, hroost]

/-- A served host write leaves what `hostWrite` makes of the state it meets, beside the owl. -/
theorem hostPut_of_served {s : State} (h : HostServed s) (off : Fin 64) (v : Half) :
    ∃ o, hostPut off v s = (hostWrite off.val v (lateTime s)).setOwl o :=
  ⟨_, (hostAccess_of_served h _).trans (owlSees_frame _ _ _)⟩

/-- What holds of a served write's effect whatever the owl then is, holds after every command that is such a write. -/
theorem gives_of_hostPut {c : Instr} {s : State} {P : State → Prop} (h : HostServed s) (off : Fin 64) (v : Half)
    {t : State} (hc : exec c s = .next (hostPut off v s)) (hw : hostWrite off.val v (lateTime s) = t)
    (hP : ∀ o, P (t.setOwl o)) : Gives c s P := by
  obtain ⟨o, ho⟩ := hostPut_of_served h off v
  exact ⟨_, hc, ho ▸ hw ▸ hP o⟩

/-- REGISTER_WRITE of a host write is that host write. -/
theorem exec_registerWrite_host (off : Fin 64) (v : Half) (s : State) :
    exec (.registerWrite (.host (.write off v))) s = .next (hostPut off v s) := rfl

/-! ## The registers (Table 5.3) -/

theorem hostWrite_rstcause (v : Half) (s : State) :
    hostWrite 5 v s = { s with mode := { s.mode with rstcause := s.mode.rstcause &&& ~~~(v.setWidth 7) } } := rfl

theorem hostWrite_bootcfg (v : Half) (s : State) :
    hostWrite 7 v s = { s with mode := { s.mode with bootcfg := applyWrite bootcfgFields s.mode.bootcfg v } } := rfl

theorem hostWrite_isrLow (v : Half) (s : State) :
    hostWrite 8 v s = { s with host := { s.host with isr := s.host.isr &&& ~~~(v.setWidth 32) } } := by
  rw [← putHalf_zero_low]; rfl

theorem hostWrite_ierLow (v : Half) (s : State) :
    hostWrite 9 v s = { s with host := { s.host with ier := putHalf s.host.ier false v } } := rfl

theorem hostWrite_isrHigh (v : Half) (s : State) :
    hostWrite 10 v s = { s with host := { s.host with isr := s.host.isr &&& ~~~(v.setWidth 32 <<< 16) } } := by
  rw [← putHalf_zero_high]; rfl

theorem hostWrite_ierHigh (v : Half) (s : State) :
    hostWrite 11 v s = { s with host := { s.host with ier := putHalf s.host.ier true v } } := rfl

theorem hostWrite_release (s : State) : hostWrite 0x28 2 s = endLook s := rfl

theorem hostWrite_hood (v : Half) (s : State) : hostWrite 0x2A v s = writeHood v s := rfl

/-- A write of a half-word that no register has (R13). -/
theorem hostWrite_reserved (off : Fin 64) (hoff : off ∈ [(0x16 : Fin 64), 0x17, 0x1E, 0x1F, 0x30, 0x3F]) (v : Half)
    (s : State) : hostWrite off.val v s = s := by
  simp only [List.mem_cons, List.not_mem_nil, or_false] at hoff
  rcases hoff with rfl | rfl | rfl | rfl | rfl | rfl <;> rfl

/-- HB_HOOD outside SERVICE leaves the D-die alone (R141). -/
theorem writeHood_drv (v : Half) (s : State) (h : s.mode.code ≠ .service) : (writeHood v s).drv = s.drv := by
  simp [writeHood, h]

/-- In ROOST a write that is neither an ISR clear nor a window data write is discarded, and is no kick (R118, R135). -/
theorem hostPut_discarded {s : State} (off : Fin 64) (v : Half) (hpor : s.mode.inPor = false)
    (haon : aonAnswers (lateTime s) = false) (hroost : (lateTime s).mode.code = .roost)
    (hoff : off ∉ [(8 : Fin 64), 10, 0x13, 0x1B]) :
    hostPut off v s = (lateTime s).setOwl { (lateTime s).owl with lastKick := false } := by
  simp only [List.mem_cons, List.not_mem_nil, or_false, not_or, Fin.ext_iff] at hoff
  obtain ⟨(h8 : off.val ≠ 8), (h10 : off.val ≠ 10), (h13 : off.val ≠ 0x13), (h1B : off.val ≠ 0x1B)⟩ := hoff
  have hdiscard : hostPut off v s = roostDiscard off.val (lateTime s) := by
    simp [hostPut, hostAccess, hostRun, hpor, haon, hroost, roostServe, isRead, accessIdx, h8, h10]
  rw [hdiscard, roostDiscard, if_neg h13, if_neg h1B]
  rfl

/-- Settles O29: what `hostWrite` does at each offset of the statement, in the state that a served write meets; in ROOST the
write is discarded. -/
theorem hostWritesOfAonRegisters : Obligations.HostWritesOfAonRegisters := by
  refine ⟨fun v s h => ⟨?isrLow, ?isrHigh, ?ierLow, ?ierHigh, ?bootcfg, ?rstcause, fun off hoff => ?reserved, ?hood,
    ?release⟩, fun off v s hpor haon hroost hoff => ?roost⟩
  case isrLow => exact gives_of_hostPut h 8 v rfl (hostWrite_isrLow v _) fun o => ⟨rfl, rfl⟩
  case isrHigh => exact gives_of_hostPut h 10 v rfl (hostWrite_isrHigh v _) fun o => ⟨rfl, rfl⟩
  case ierLow =>
    obtain ⟨hlow, hhigh⟩ := putHalf_low (lateTime s).host.ier v
    exact gives_of_hostPut h 9 v rfl (hostWrite_ierLow v _) fun o => ⟨hlow, hhigh, rfl⟩
  case ierHigh =>
    obtain ⟨hhigh, hlow⟩ := putHalf_high (lateTime s).host.ier v
    exact gives_of_hostPut h 11 v rfl (hostWrite_ierHigh v _) fun o => ⟨hhigh, hlow, rfl⟩
  case bootcfg =>
    obtain ⟨hstored, hreserved⟩ := applyWrite_bootcfg (lateTime s).mode.bootcfg v
    exact gives_of_hostPut h 7 v rfl (hostWrite_bootcfg v _) fun o => ⟨hstored, hreserved, rfl⟩
  case rstcause => exact gives_of_hostPut h 5 v rfl (hostWrite_rstcause v _) fun o => ⟨rfl, rfl⟩
  case reserved => exact gives_of_hostPut h off v rfl (hostWrite_reserved off hoff v _) fun o => rfl
  case hood =>
    exact gives_of_hostPut h 0x2A v rfl (hostWrite_hood v _) fun o => ⟨applyWrite_hood v, rfl, writeHood_drv v _⟩
  case release => exact gives_of_hostPut h 0x28 2 rfl (hostWrite_release _) fun o => rfl
  case roost =>
    rw [exec_registerWrite_host, hostPut_discarded off v hpor haon hroost hoff]
    rfl

end Sys2Proof.Machine

/-! SUPPORT. An internal write by its ending (R23-R28, R83): one that waits or does not end with DATA leaves its target alone,
and its requester's marks are all that it does; a write of a reserved range or of the roost store ends with DATA and does
nothing. -/

namespace Sys2Proof.Machine

/-! ## One internal write by its requester and its ending -/

/-- An access that does not end with DATA changes nothing at its target (R25). -/
theorem accessEffect_of_not_data {r : Requester} {a : Nat} {q : Ask} {s : State} (h : ending s r a q ≠ .data) :
    accessEffect r a q s = s := if_neg h

/-- A write that ends with DATA is the write of its target; the debug port's uses up a free value. -/
theorem accessEffect_of_data {r : Requester} {a : Nat} {v : Word} {s : State}
    (h : ending s r a (.write 4 v false) = .data) :
    accessEffect r a (.write 4 v false) s =
      mapWrite r (eccSrc r s.free) a 4 v false (s.setFree (if r = .jtag then s.free + 1 else s.free)) := by
  refine (if_pos h).trans ?_
  split <;> rfl

/-- REGISTER_WRITE of an internal register, before its cases. -/
theorem exec_internalWrite (r : Requester) (addr v : Word) (s : State) :
    exec (.registerWrite (.internal r addr v)) s = execRegisterWrite (.internal r addr v) s := rfl

theorem exec_internalWrite_waits {r : Requester} {addr v : Word} {s : State} (h : accessWaits s addr.toNat true = true) :
    exec (.registerWrite (.internal r addr v)) s = .next s := by
  simp [exec_internalWrite, execRegisterWrite, h]

section

variable {r : Requester} {addr v : Word} {s : State} (hw : accessWaits s addr.toNat true = false)

include hw

/-- With DATA nothing is marked: the write of the target is all. -/
theorem exec_internalWrite_data (he : ending s r addr.toNat (.write 4 v false) = .data) :
    exec (.registerWrite (.internal r addr v)) s = .next (accessEffect r addr.toNat (.write 4 v false) s) := by
  cases r <;> simp [exec_internalWrite, execRegisterWrite, hw, he, windowMark]

theorem exec_internalWrite_window {w : WIdx} {e : Ending} (he : ending s (.window w) addr.toNat (.write 4 v false) = e)
    (hd : e ≠ .data) : exec (.registerWrite (.internal (.window w) addr v)) s = .next (windowMark w addr e s) := by
  simp [exec_internalWrite, execRegisterWrite, hw, he, accessEffect_of_not_data (he ▸ hd)]

theorem exec_internalWrite_kestrel_absent {k : KIdx}
    (he : ending s (.kestrel k) addr.toNat (.write 4 v false) = .absent) :
    exec (.registerWrite (.internal (.kestrel k) addr v)) s = .next (countAbsent addr s) := by
  have hd : ending s (.kestrel k) addr.toNat (.write 4 v false) ≠ .data := by simp [he]
  simp [exec_internalWrite, execRegisterWrite, hw, he, accessEffect_of_not_data hd]

theorem exec_internalWrite_kestrel_berr {k : KIdx}
    (he : ending s (.kestrel k) addr.toNat (.write 4 v false) = .berr) :
    exec (.registerWrite (.internal (.kestrel k) addr v)) s = .next (takeTrap k (3, addr) s) := by
  have hd : ending s (.kestrel k) addr.toNat (.write 4 v false) ≠ .data := by simp [he]
  simp [exec_internalWrite, execRegisterWrite, hw, he, accessEffect_of_not_data hd]

/-- Management, the mode controller and the debug port count and mark nothing (R26). -/
theorem exec_internalWrite_unmarked (hr : r = .mgmt ∨ r = .mode ∨ r = .jtag)
    (he : ending s r addr.toNat (.write 4 v false) ≠ .data) :
    exec (.registerWrite (.internal r addr v)) s = .next s := by
  rcases hr with rfl | rfl | rfl <;>
    simp [exec_internalWrite, execRegisterWrite, hw, accessEffect_of_not_data he]

end

/-! ## The marks of a window (R26, R83) -/

theorem win_modWin_self (w : WIdx) (f : Window → Window) (s : State) : win (modWin w f s) w = f (win s w) := by
  simp [win, modWin]

theorem win_modWin_other (w : WIdx) (f : Window → Window) (s : State) : win (modWin w f s) (1 - w) = win s (1 - w) := by
  have hne : ∀ w : WIdx, w.val ≠ (1 - w : WIdx).val := by decide
  simp [win, modWin, Vector.getElem_set_ne _ _ (hne w)]

/-- A cause that is not logged and has no PEND bit sets its ISR bit and nothing else (R129). -/
theorem raise_of_unlogged {c : Cause} (hlog : c.logged = false) (hpend : c.pendBit = none) (s : State) :
    raise c s = s.setHost (setIsr c.num s.host) := by
  have hfull : ¬((s.mgt.log.length < 63 && s.mgt.log.length == 63) = true) := by simp; omega
  simp [raise, raiseWith, hlog, hpend, hfull, State.setHost]

/-- ABSENT sets the window's ABS, and is counted (R26). -/
theorem windowMark_absent (w : WIdx) (addr : Word) (s : State) :
    windowMark w addr .absent s =
        { s with sys := (countAbsent addr s).sys, host := { s.host with win := (windowMark w addr .absent s).host.win } } ∧
      win (windowMark w addr .absent s) w = { win s w with abs := true } ∧
      win (windowMark w addr .absent s) (1 - w) = win s (1 - w) :=
  ⟨rfl, win_modWin_self w (fun x => { x with abs := true }) s, win_modWin_other w (fun x => { x with abs := true }) s⟩

/-- A bus error sets ABS and BERR of the window, is counted, and raises BERR (R83). -/
theorem windowMark_berr (w : WIdx) (addr : Word) (s : State) :
    windowMark w addr .berr s =
        { s with sys := (countAbsent addr s).sys, host := (windowMark w addr .berr s).host } ∧
      win (windowMark w addr .berr s) w = { win s w with abs := true, berr := true } ∧
      raised .berr (windowMark w addr .berr s) = true := by
  have hmark : windowMark w addr .berr s =
      (countAbsent addr (modWin w (fun x => { x with abs := true, berr := true }) s)).setHost
        (setIsr Cause.berr.num (modWin w (fun x => { x with abs := true, berr := true }) s).host) :=
    raise_of_unlogged rfl rfl _
  rw [hmark]
  exact ⟨rfl, win_modWin_self w (fun x => { x with abs := true, berr := true }) s,
    (raised_setIsr .berr .berr _).trans (by simp)⟩

/-! ## A trap by a bus error (R83, R274) -/

/-- The trap registers of a kestrel: TCAUSE, TINFO, TPC and INTRAP. -/
def Kestrel.trapRegs (c : Kestrel) : BitVec 4 × Word × BitVec 14 × Bool := (c.tcause, c.tinfo, c.tpc, c.intrap)

theorem Kestrel.dropWait_trapRegs (c : Kestrel) : c.dropWait.trapRegs = c.trapRegs := by
  unfold Kestrel.dropWait
  split <;> rfl

/-- `t` differs from `s` as a halt of kestrel `k` may differ, and the trap registers of `k` are kept. -/
def KeepsTrapRegs (k : KIdx) (s t : State) : Prop := HaltOnly k s t ∧ (kes t k).trapRegs = (kes s k).trapRegs

theorem KeepsTrapRegs.refl (k : KIdx) (s : State) : KeepsTrapRegs k s s :=
  ⟨⟨rfl, fun _ _ => rfl, fun _ _ _ => rfl⟩, rfl⟩

theorem KeepsTrapRegs.trans {k : KIdx} {s u t : State} (h : KeepsTrapRegs k s u) (g : KeepsTrapRegs k u t) :
    KeepsTrapRegs k s t := ⟨h.1.trans g.1, g.2.trans h.2⟩

theorem modK_keepsTrapRegs (k : KIdx) (f : Kestrel → Kestrel) (s : State)
    (hf : (f (kes s k)).trapRegs = (kes s k).trapRegs) : KeepsTrapRegs k s (modK k f s) :=
  ⟨modK_haltOnly k f s, by rw [kes_modK_self, hf]⟩

theorem debugHalt_keepsTrapRegs (k : KIdx) (cause : BitVec 3) (s : State) :
    KeepsTrapRegs k s (debugHalt k cause s) := by
  obtain ⟨hframe, -, hkes⟩ := debugHalt_spec k cause s
  exact ⟨hframe, by rw [hkes]; exact (kes s k).dropWait_trapRegs⟩

/-- What follows an instruction keeps the trap registers (R291-R294). -/
theorem afterInstr_keepsTrapRegs (k : KIdx) (s : State) : KeepsTrapRegs k s (afterInstr k s) := by
  unfold afterInstr
  simp only
  split
  · exact modK_keepsTrapRegs k _ s rfl
  split
  · exact KeepsTrapRegs.refl k s
  have hpark : KeepsTrapRegs k s (when (kes s k).parkReq (modK k fun c => { c with parked := true, parkReq := false }) s) := by
    unfold when
    split
    · exact modK_keepsTrapRegs k _ s rfl
    · exact KeepsTrapRegs.refl k s
  refine hpark.trans ?_
  split
  · exact debugHalt_keepsTrapRegs k 0 _
  split
  · exact debugHalt_keepsTrapRegs k 3 _
  · exact modK_keepsTrapRegs k _ _ rfl

/-- A trap outside a trap loads the trap registers, and touches neither SYS nor the memories (R274). -/
theorem trap_spec (k : KIdx) (cause : BitVec 4) (info : Word) (s : State) (h : (kes s k).intrap = false) :
    (kes (trap k cause info s) k).trapRegs = (cause, info, (kes s k).pc, true) ∧
      (trap k cause info s).sys = s.sys ∧ (trap k cause info s).mem = s.mem := by
  obtain ⟨⟨hframe, -, -⟩, hregs⟩ :=
    afterInstr_keepsTrapRegs k (raise .ktrap (modK k (fun c => c.trapped cause info) s))
  have htrap : trap k cause info s = afterInstr k (raise .ktrap (modK k (fun c => c.trapped cause info) s)) := by
    simp [trap, h]
  have hkes : kes (raise .ktrap (modK k (fun c => c.trapped cause info) s)) k = (kes s k).trapped cause info :=
    kes_modK_self k _ s
  rw [htrap]
  refine ⟨?_, ?_, ?_⟩
  · rw [hregs, hkes]; rfl
  · rw [hframe]; rfl
  · rw [hframe]; rfl

/-- A bus error's trap counts the access beside it (R26, R83). -/
theorem takeTrap_berr (k : KIdx) (addr : Word) (s : State) :
    takeTrap k (3, addr) s = trap k 3 addr (countAbsent addr s) := rfl

/-! ## Addresses that ignore a write (R27, R28) -/

/-- A write there is ignored: the roost store, the reserved ranges between the blocks, and all above the map (Table 1.3). -/
def IgnoresWrites (a : Nat) : Prop :=
  (0x02000000 ≤ a ∧ a < 0x02040000) ∨ (0x00160000 ≤ a ∧ a < 0x00700000) ∨ (0x00714000 ≤ a ∧ a < 0x01000000) ∨
    0x02040000 ≤ a

/-- Such an address lies in no memory and beyond the blocks of registers. -/
theorem IgnoresWrites.outside {a : Nat} (h : IgnoresWrites a) : memOf a = none ∧ ∃ n, a / 0x10000 = n + 0x16 := by
  unfold IgnoresWrites at h
  refine ⟨?_, a / 0x10000 - 0x16, by omega⟩
  unfold memOf
  rw [if_neg (by omega), if_neg (by omega), if_neg (by omega)]

section

variable {a n : Nat} (hm : memOf a = none) (hn : a / 0x10000 = n + 0x16)

include hn

theorem enableOf_beyond : enableOf a = none := by simp [enableOf, hn]

theorem blockDomains_beyond : blockDomains a = [] := by simp [blockDomains, hn]

theorem inVoices_beyond : inVoices a = false := by simp [inVoices, hn]

theorem inStage_beyond : inStage a = false := by simp [inStage, hn]

theorem blockWrite_beyond (r : Requester) (v : Word) (s : State) : blockWrite r (a / 4 * 4) v s = s := by
  have hblock : a / 4 * 4 / 0x10000 = n + 0x16 := by omega
  simp [blockWrite, hblock]

include hm

theorem clockOf_beyond : clockOf a = none := by simp [clockOf, hm, hn]

/-- No island can hold a write beyond the blocks, and no snapshot either (R76, R263). -/
theorem accessWaits_beyond (s : State) : accessWaits s a true = false := by
  simp [accessWaits, targetFrozen, clockOf_beyond hm hn, inStage_beyond hn]

theorem ending_beyond (r : Requester) (v : Word) (s : State) : ending s r a (.write 4 v false) = .data := by
  have hadm : admission s r a true = .data := by
    by_cases hr : inRoost a = true
    · simp [admission, enableOf_beyond hn, hr]
    · simp [admission, enableOf_beyond hn, hr, reaches, inVoices_beyond hn, hm, blockDomains_beyond hn]
  have hdrv : a / 0x10000 ≠ 0x15 := by omega
  have hclrw : a / 4 * 4 ≠ 0x00140070 := by omega
  simp [ending, Ask.isWrite, endingOf, hadm, hdrv, hclrw]

theorem mapWrite_beyond (r : Requester) (src : BitVec 4) (v : Word) (s : State) : mapWrite r src a 4 v false s = s := by
  simp [mapWrite, hm, blockWrite_beyond hn]

end

/-! ## SYS as a window writes it (Tables 1.8, 4.8) -/

/-- With PD1 ON and its island clocked, a window's write of a SYS register takes effect. -/
theorem exec_internalWrite_sys {w : WIdx} {addr v : Word} {s : State} (hpd : pdOn s 1 = true) (hck : s.ckp.frozen 1 = false)
    (ha : addr.toNat < 0x10000) :
    exec (.registerWrite (.internal (.window w) addr v)) s =
      .next (sysWrite (.window w) (addr.toNat / 4 * 4) v s) := by
  have hblock : addr.toNat / 0x10000 = 0 := by omega
  have hblock4 : addr.toNat / 4 * 4 / 0x10000 = 0 := by omega
  have hoff : addr.toNat / 4 * 4 % 0x10000 = addr.toNat / 4 * 4 := by omega
  have hm : memOf addr.toNat = none := by
    unfold memOf
    rw [if_neg (by omega), if_neg (by omega), if_neg (by omega)]
  have hroost : inRoost addr.toNat = false := by simp [inRoost]; omega
  have hw : accessWaits s addr.toNat true = false := by
    simp [accessWaits, targetFrozen, clockOf, hm, hblock, hck, inStage]
  have hadm : admission s (.window w) addr.toNat true = .data := by
    simp [admission, enableOf, hblock, reaches, inVoices, hm, hroost, blockDomains, accepts, hpd]
  have he : ending s (.window w) addr.toNat (.write 4 v false) = .data := by
    have hclrw : addr.toNat / 4 * 4 ≠ 0x00140070 := by omega
    simp [ending, Ask.isWrite, endingOf, hadm, hblock, hclrw]
  rw [exec_internalWrite_data hw he, accessEffect_of_data he]
  simp [mapWrite, hm, hroost, blockWrite, hblock4, hoff, laneWord, State.setFree]

/-- Settles O30: the waiting write, the endings without DATA by requester, the addresses that ignore a write, and SYS. -/
theorem internalWritesStoreOrAbsent : Obligations.InternalWritesStoreOrAbsent := by
  refine ⟨fun r addr v s h => exec_internalWrite_waits h, fun r addr v s hw => ⟨fun he => ⟨?absWindow, ?absKestrel, ?absOther⟩,
    fun he => ⟨?berrWindow, ?berrKestrel, ?berrOther⟩⟩, fun r addr v s h => ?ignored, fun w v s hpd hck => ⟨?gpio, ?gatecfg⟩⟩
  case absWindow =>
    rintro w rfl
    exact ⟨_, exec_internalWrite_window hw he (by decide), windowMark_absent w addr s⟩
  case absKestrel =>
    rintro k rfl
    exact exec_internalWrite_kestrel_absent hw he
  case absOther => exact fun hr => exec_internalWrite_unmarked hw hr (by simp [he])
  case berrWindow =>
    rintro w rfl
    obtain ⟨hframe, hwin, hraised⟩ := windowMark_berr w addr s
    exact ⟨_, exec_internalWrite_window hw he (by decide), by rw [hframe]; rfl, hwin, hraised⟩
  case berrKestrel =>
    rintro k rfl - hin
    obtain ⟨hregs, hsys, hmem⟩ := trap_spec k 3 addr (countAbsent addr s) hin
    simp only [Kestrel.trapRegs, Prod.mk.injEq] at hregs
    obtain ⟨hcause, hinfo, hpc, hintrap⟩ := hregs
    refine ⟨_, exec_internalWrite_kestrel_berr hw he, ?_⟩
    rw [takeTrap_berr]
    exact ⟨hcause, hinfo, hpc, hintrap, by rw [hsys]; rfl, by rw [hsys]; rfl, hmem⟩
  case berrOther => exact fun hr => exec_internalWrite_unmarked hw hr (by simp [he])
  case ignored =>
    obtain ⟨hm, n, hn⟩ := IgnoresWrites.outside h
    have he := ending_beyond hm hn r v s
    rw [exec_internalWrite_data (accessWaits_beyond hm hn s) he, accessEffect_of_data he, mapWrite_beyond hm hn]
    rfl
  case gpio =>
    exact ⟨_, exec_internalWrite_sys hpd hck (by decide), rfl, rfl, rfl⟩
  case gatecfg =>
    exact ⟨_, exec_internalWrite_sys hpd hck (by decide), applyWrite_gatecfg v, rfl⟩

end Sys2Proof.Machine

/-! SUPPORT. What raising a cause may change, and what a D-die frame delivers with its reports (R141, R337). -/

namespace Sys2Proof.Machine

/-- From `s` to `t` causes were raised: the host bus, the fault log and the PEND bits may differ, and no raised cause is lost. -/
def Raises (s t : State) : Prop :=
  t = { s with host := t.host, mgt := t.mgt, kst := t.kst } ∧ ∀ c, raised c s = true → raised c t = true

theorem Raises.refl (s : State) : Raises s s := ⟨rfl, fun _ h => h⟩

theorem Raises.trans {s u t : State} (h : Raises s u) (g : Raises u t) : Raises s t := by
  obtain ⟨hframe, hraised⟩ := h
  obtain ⟨gframe, graised⟩ := g
  exact ⟨by rw [gframe, hframe], fun c hc => graised c (hraised c hc)⟩

theorem raiseWith_raises (c : Cause) (w : Word) (pb : Option Nat) (s : State) : Raises s (raiseWith c w pb s) :=
  ⟨rfl, fun d h => (raiseWith_isr d c w pb s).2 (.inr (.inl h))⟩

theorem raised_raiseWith (c : Cause) (w : Word) (pb : Option Nat) (s : State) : raised c (raiseWith c w pb s) = true :=
  (raiseWith_isr c c w pb s).2 (.inl rfl)

theorem raise_raises (c : Cause) (s : State) : Raises s (raise c s) := raiseWith_raises c 0 c.pendBit s

theorem raised_raise (c : Cause) (s : State) : raised c (raise c s) = true := raised_raiseWith c 0 c.pendBit s

theorem raiseD_raises (c : Cause) (n : Nat) (s : State) : Raises s (raiseD c n s) ∧ raised c (raiseD c n s) = true :=
  ⟨raiseWith_raises _ _ _ s, raised_raiseWith _ _ _ s⟩

/-- The mirrors of the host bus leave its interrupt causes alone. -/
theorem mirror_raises (s : State) : Raises s (mirror s) := ⟨rfl, fun _ h => h⟩

/-! ## Reports of the D-die -/

/-- The cause that a report raises (R337, R341, R354). -/
def DrvReport.cause : DrvReport → Cause
  | .fault _ => .emfault
  | .tie _ => .tie
  | .analog _ => .aofault

theorem raiseReport_raises (r : DrvReport) (s : State) :
    Raises s (raiseReport r s) ∧ raised r.cause (raiseReport r s) = true := by
  cases r <;> exact raiseD_raises _ _ s

/-- Reports raised one after the other: each one's cause stands at the end. -/
theorem foldl_raiseReport (rs : List DrvReport) (s : State) :
    Raises s (rs.foldl (fun s r => raiseReport r s) s) ∧
      ∀ r ∈ rs, raised r.cause (rs.foldl (fun s r => raiseReport r s) s) = true := by
  induction rs generalizing s with
  | nil => exact ⟨Raises.refl s, by simp⟩
  | cons a rs ih =>
    obtain ⟨hkeep, hcause⟩ := raiseReport_raises a s
    obtain ⟨hrest, hcauses⟩ := ih (raiseReport a s)
    refine ⟨hkeep.trans hrest, fun r hr => ?_⟩
    obtain rfl | hr := List.mem_cons.mp hr
    · exact hrest.2 _ hcause
    · exact hcauses r hr

/-- A D-die frame empties the list of reports and raises the cause of each (R337). -/
theorem deliver_spec (s : State) :
    Raises { s with drv := { s.drv with reports := [] } } (deliver s) ∧
      ∀ r ∈ s.drv.reports, raised r.cause (deliver s) = true := by
  obtain ⟨hkeep, hcauses⟩ := foldl_raiseReport s.drv.reports { s with drv := { s.drv with reports := [] } }
  exact ⟨hkeep.trans (mirror_raises _), fun r hr => (mirror_raises _).2 _ (hcauses r hr)⟩

/-- Only causes are raised beside what traffic itself does: it counts for the link and lifts the hood of a D-die reset. -/
theorem linkTraffic_spec (s : State) :
    Raises { s with sys := { s.sys with dlink := true }
                    drv := { s.drv with reports := [], lhood := s.drv.lhood && s.drv.linkloss } } (linkTraffic s) ∧
      ∀ r ∈ s.drv.reports, raised r.cause (linkTraffic s) = true :=
  deliver_spec { s with sys := { s.sys with dlink := true }, drv := { s.drv with lhood := s.drv.lhood && s.drv.linkloss } }

/-! ## The commands -/

theorem exec_dlinkKeepalive (s : State) : exec .dlinkKeepalive s = .next (if pd1Up s then linkTraffic s else s) := rfl

theorem exec_dlinkResume (s : State) :
    exec .dlinkResume s =
      .next (if pd1Up s then (if s.sys.dlink then s else raise .dlink (linkTraffic s)) else s) := rfl

theorem exec_dlinkReport (s : State) : exec .dlinkReport s = .next (if pd1Up s && s.sys.dlink then deliver s else s) := rfl

theorem exec_tempReport (b : BitVec 9) (s : State) :
    exec (.tempReport b) s =
      .next (if s.sys.dlink && pdOn s 58 then { s with mrg := { s.mrg with tdie := b, newT := true } } else s) := rfl

/-- Settles O24: traffic and a report are deliveries (`linkTraffic_spec`, `deliver_spec`), and beside them a resume raises
DLINK. -/
theorem linkTrafficDelivers : Obligations.LinkTrafficDelivers := by
  refine ⟨fun s => ⟨fun h => ?keepaliveOff, fun h => ?keepalive⟩, fun s => ⟨fun h => ?resumeOff, fun h hd => ?resume⟩,
    fun s => ⟨fun h => ?reportOff, fun h hd => ?report⟩, fun b s => ⟨fun h => ?tempOff, fun hd h => ?temp⟩⟩
  case keepaliveOff => simp [exec_dlinkKeepalive, h]
  case keepalive =>
    obtain ⟨⟨hframe, -⟩, hcause⟩ := linkTraffic_spec s
    refine ⟨linkTraffic s, by simp [exec_dlinkKeepalive, h], ?_, ?_, fun n hn => hcause _ hn, ?_⟩ <;> rw [hframe]
  case resumeOff => obtain h | h := h <;> simp [exec_dlinkResume, h]
  case resume =>
    obtain ⟨hframe, -⟩ := (linkTraffic_spec s).1.trans (raise_raises .dlink _)
    refine ⟨raise .dlink (linkTraffic s), by simp [exec_dlinkResume, h, hd], ?_, ?_, raised_raise _ _, ?_⟩ <;> rw [hframe]
  case reportOff => obtain h | h := h <;> simp [exec_dlinkReport, h]
  case report =>
    obtain ⟨⟨hframe, -⟩, hcause⟩ := deliver_spec s
    refine ⟨deliver s, by simp [exec_dlinkReport, h, hd], ?_, fun n hn => hcause _ hn, fun n hn => hcause _ hn,
      fun n hn => hcause _ hn, ?_⟩ <;> rw [hframe]
  case tempOff => obtain h | h := h <;> simp [exec_tempReport, h]
  case temp => simp [exec_tempReport, h, hd]

end Sys2Proof.Machine

/-! SUPPORT. The end of an access across DLINK (R18): a window's access in progress and the debug port's. -/

namespace Sys2Proof.Machine

/-! ## One window in the state -/

theorem modWin_of_fixed {w : WIdx} {f : Window → Window} {s : State} (h : f (win s w) = win s w) : modWin w f s = s := by
  have hset : s.host.win.set w (f s.host.win[w]) = s.host.win := by
    rw [show f s.host.win[w] = s.host.win[w] from h]
    exact Vector.set_getElem_self _
  simp only [modWin, hset]

@[simp] theorem win_countAbsent (w : WIdx) (a : Word) (s : State) : win (countAbsent a s) w = win s w := rfl

/-- Raising a cause touches no register of the host bus but the causes (R129). -/
theorem raise_host (c : Cause) (s : State) : (raise c s).host = { s.host with isr := (raise c s).host.isr } := by
  simp only [raise, raiseWith]
  generalize (if c.logged then logEvent c.num 0 s.chn.ctime s.mode.code s.mgt else s.mgt) = m
  split <;> rfl

@[simp] theorem win_raise (w : WIdx) (c : Cause) (s : State) : win (raise c s) w = win s w := by
  rw [win, raise_host]
  rfl

@[simp] theorem win_owlDone (w : WIdx) (s : State) : win (owlDone s) w = win s w := by
  unfold owlDone
  split <;> rfl

@[simp] theorem win_winData (w : WIdx) (v : Word) (s : State) :
    win (winData w v s) w = { win s w with dataLo := low 16 v, latch := low 16 (v >>> 16) } :=
  win_modWin_self w (fun x => { x with dataLo := low 16 v, latch := low 16 (v >>> 16) }) s

@[simp] theorem win_winPoison (w : WIdx) (s : State) : win (winPoison w s) w = win s w := win_raise _ _ _

theorem windowMark_acc (w : WIdx) (a : Word) (e : Ending) (s : State) :
    (win (windowMark w a e s) w).acc = (win s w).acc := by
  cases e <;> simp [windowMark, win_modWin_self]

/-- A window access that ends is in progress no more (R126). -/
theorem windowEnd_acc (w : WIdx) (x : Access) (s : State) : (win (windowEnd w x s) w).acc = none := by
  have hpoison (b : Bool) (t : State) : win (when b (winPoison w) t) w = win t w := by unfold when; split <;> simp
  have howl (b : Bool) (t : State) : win (when b owlDone t) w = win t w := by unfold when; split <;> simp
  simp only [windowEnd, windowMark_acc, howl, hpoison]
  split <;> simp [win_modWin_self, Window.step]

/-! ## Writes that timed out before (R128) -/

/-- Without timed-out writes nothing is performed before an access. -/
theorem late_of_none {s : State} (h : ∀ w, (win s w).late = []) : lateTime s = s ∧ ∀ a, lateSettle a s = s := by
  have hpick (q : Word → Bool) (w : WIdx) : latePick q w s = s := by
    have hfixed : modWin w (fun x => { x with late := x.late.filter fun p => !q p.1 }) s = s :=
      modWin_of_fixed (by simp only [h, List.filter_nil]; rw [← h w])
    simp [latePick, h, hfixed]
  exact ⟨by simp [lateTime, lateChance, h], fun a => by simp [lateSettle, hpick]⟩

/-! ## The D-die's addresses -/

/-- No clock island freezes the D-die, and no address of it is of the stage. -/
theorem accessWaits_of_inDrv {a b : Nat} (h : a / 0x10000 = 0x15) (hb : b / 0x10000 = a / 0x10000) (s : State) (wr : Bool) :
    accessWaits s b wr = false := by
  have hm : memOf b = none := by
    unfold memOf
    rw [if_neg (by omega), if_neg (by omega), if_neg (by omega)]
  simp [accessWaits, targetFrozen, clockOf, inStage, hm, hb, h]

/-- Without the link no access to the D-die ends with data (R18). -/
theorem endingOf_of_linkDown {s : State} (hl : s.sys.dlink = false) {a : Nat} (h : a / 0x10000 = 0x15) (adm : Ending) (q : Ask) :
    endingOf s adm a q = if adm = .data then .absent else adm := by
  by_cases hd : adm = .data <;> simp [endingOf, hd, h, hl]

/-- Without the link a window's access to the D-die ends ABSENT and is counted (R18, R26). -/
theorem windowEnd_of_linkDown {w : WIdx} {x : Access} {s : State} (hx : x.addr.toNat / 0x10000 = 0x15)
    (hl : s.sys.dlink = false) (hadm : x.adm = .data) (hlate : ∀ w, (win s w).late = []) :
    (win (windowEnd w x s) w).abs = true ∧ (windowEnd w x s).sys.absCount = satInc s.sys.absCount ∧
      (windowEnd w x s).sys.lastAbs = x.addr := by
  have hend (q : Ask) : endingOf s x.adm x.addr.toNat q = .absent := by simp [endingOf_of_linkDown hl hx, hadm]
  have hreply (q : Ask) : replyOf x.adm x.addr.toNat q s = { ending := .absent } := by simp [replyOf, hend]
  have heffect (q : Ask) : effectOf x.adm (.window w) x.addr.toNat q s = s := by simp [effectOf, hend]
  simp only [windowEnd, (late_of_none hlate).2, hreply, heffect, windowMark, when]
  cases x.data <;> exact ⟨by simp [win_modWin_self], rfl, rfl⟩

/-! ## The commands -/

theorem exec_dlinkLoss (s : State) :
    exec .dlinkLoss s =
      let s1 : State := { s with drv := { s.drv with linkloss := true, lhood := true }, sys := { s.sys with dlink := false } }
      .next (if pd1Up s then raise .dlink { s1 with host := { s1.host with hoodst := setBit s1.host.hoodst 2 true } }
        else s1) := rfl

theorem exec_drvAccessEnd_window (w : WIdx) (s : State) :
    exec (.drvAccessEnd (.window w)) s =
      .next (if (win s w).acc.any fun x => inDrv x.addr.toNat then windowReply w s else s) := rfl

theorem exec_drvAccessEnd_jtag (s : State) :
    exec (.drvAccessEnd .jtag) s = .next (if s.jtag.acc.any fun x => inDrv x.addr.toNat then kdebugEnd s else s) := rfl

theorem exec_windowReply (w : WIdx) (s : State) : exec (.windowReply w) s = .next (windowReply w s) := rfl

theorem exec_kdebugAccessEnd (s : State) : exec .kdebugAccessEnd s = .next (kdebugEnd s) := rfl

/-- The debug port's access to the D-die ends; without the link ABSENT. -/
theorem kdebugEnd_of_inDrv {x : Access} {s : State} (h : s.jtag.acc = some x) (hx : x.addr.toNat / 0x10000 = 0x15) :
    (kdebugEnd s).jtag.acc = none ∧ (s.sys.dlink = false → (kdebugEnd s).jtag.absent = true) := by
  have ha : x.addr.toNat / 4 * 4 / 0x10000 = 0x15 := by omega
  have hw := accessWaits_of_inDrv ha rfl s x.data.isSome
  by_cases hfuse : Config.jtagdbg = true
  · refine ⟨by simp [kdebugEnd, h, hfuse, hw, kdebugDone], fun hl => ?_⟩
    have hend (q : Ask) : endingOf s x.adm (x.addr.toNat / 4 * 4) q ≠ .data := by
      rw [endingOf_of_linkDown hl ha]; split <;> simp_all
    have hreply (q : Ask) : (replyOf x.adm (x.addr.toNat / 4 * 4) q s).ending ≠ .data := by
      have := hend q
      unfold replyOf
      split <;> simp_all
    simpa [kdebugEnd, h, hfuse, hw, kdebugDone] using hreply _
  · simp [kdebugEnd, h, hfuse, kdebugDone]

theorem any_inDrv_of_none {o : Option Access} (h : ∀ x, o = some x → inDrv x.addr.toNat = false) :
    ¬(o.any fun x => inDrv x.addr.toNat) = true := by
  cases o with
  | none => simp
  | some x => simp [h x rfl]

/-- Settles O25: the loss raises DLINK at the host; the ends of accesses are `windowEnd` and `kdebugEnd`, which nothing holds
up at the D-die. -/
theorem linkLossHoodsAndDrvAccessEnds : Obligations.LinkLossHoodsAndDrvAccessEnds := by
  refine ⟨fun s => ?loss, fun w x s hacc hx => ?window, fun x s hacc hx => ?jtag, fun r s h => ?other⟩
  case loss =>
    rw [Gives, exec_dlinkLoss]
    cases hup : pd1Up s
    · exact ⟨_, rfl, rfl, rfl, by simp, rfl, rfl⟩
    · refine ⟨_, rfl, rfl, rfl, fun _ => ⟨raised_raise _ _, ?_⟩, rfl, rfl⟩
      simp only [if_true]
      rw [raise_host, bit_setBit _ _ _ _ (by decide)]
      rfl
  case window =>
    have ha : x.addr.toNat / 0x10000 = 0x15 := by simpa [inDrv] using hx
    have hreply : windowReply w s = windowEnd w x (lateTime s) := by
      simp [windowReply, hacc, accessWaits_of_inDrv ha rfl]
    refine ⟨windowReply w s, by simp [exec_drvAccessEnd_window, hacc, hx], ?_, exec_windowReply w s,
      fun hl hadm hlate hother => ?_⟩
    · rw [hreply, windowEnd_acc]
    · have hnone (v : WIdx) : (win s v).late = [] := by
        obtain rfl | rfl := (by decide : ∀ v w : WIdx, v = w ∨ v = 1 - w) v w
        · exact hlate
        · exact hother
      obtain ⟨htime, -⟩ := late_of_none hnone
      rw [htime] at hreply hl
      rw [hreply]
      exact windowEnd_of_linkDown ha hl hadm hnone
  case jtag =>
    obtain ⟨hdone, habsent⟩ := kdebugEnd_of_inDrv hacc (by simpa [inDrv] using hx)
    exact ⟨kdebugEnd s, by simp [exec_drvAccessEnd_jtag, hacc, hx], hdone, exec_kdebugAccessEnd s, habsent⟩
  case other =>
    cases r with
    | window w => rw [exec_drvAccessEnd_window, if_neg (any_inDrv_of_none h)]
    | jtag => rw [exec_drvAccessEnd_jtag, if_neg (any_inDrv_of_none h)]
    | kestrel k => exact h.elim
    | mgmt => rfl
    | mode => rfl

end Sys2Proof.Machine

/-! SUPPORT. A kestrel that waits for room with an entry whose issue is settled already (R278). -/

namespace Sys2Proof.Machine

/-- K0 waits for room with a store that an issue settled as a bus error, and its buffer is empty. `stStep` and
`bufferEntry` make a kestrel wait with unissued stores only, but the statement speaks of every state. -/
def settledRoom : State :=
  { kst := { core := Vector.replicate 4 { rst := false, wait := .room (.store 0 4 0 false (some .berr)) 0 } } }

/-- The entry goes into the buffer with the ending that it had. -/
theorem bufferRoom_settledRoom : (kes (bufferRoom 0 settledRoom) 0).sbuf = [.store 0 4 0 false (some .berr)] := by decide

/-- Refutes O50: an entry that waits for room keeps the ending that an issue settled before (`settledRoom`), where the
statement settles it by the state in which the entry goes into the buffer; it lacks the premise that the entry has not been
issued. -/
theorem not_kestrelMemory : ¬ Obligations.KestrelMemory := by
  intro h
  obtain ⟨-, -, -, hroom, -⟩ := h 0 0 0 0 settledRoom
  obtain ⟨-, henters, -⟩ := hroom (.store 0 4 0 false (some .berr)) 0 rfl ⟨rfl, rfl, rfl⟩
  have haligned : ∀ a n v p i, SbEntry.store 0 4 0 false (some .berr) = .store a n v p i → a.toNat % n = 0 := by
    rintro _ _ _ _ _ ⟨⟩
    rfl
  obtain ⟨t, hexec, -, -, -, hissued, -⟩ := henters (by decide) (by decide) haligned
  obtain rfl : bufferRoom 0 settledRoom = t := Host.Outcome.next.inj hexec
  have hsbuf := bufferRoom_settledRoom.symm.trans (hissued rfl)
  exact absurd hsbuf (by decide)

end Sys2Proof.Machine

/-! SUPPORT. The work of a tick and of a frame (R22, R29, R181) leaves the mode, CHN, the head role, the D-die and the roost
state as they are: each operation that it consists of does. -/

namespace Sys2Proof.Machine

/-- What the work of a tick and of a frame leaves alone. -/
def State.still (s : State) : ModeCtl × Chn × Head × Drv × Ros := (s.mode, s.chn, s.head, s.drv, s.ros)

@[simp] theorem ite_still (p : Prop) [Decidable p] (a b : State) :
    (if p then a else b).still = if p then a.still else b.still := apply_ite State.still p a b

theorem when_still (b : Bool) (f : State → State) (s : State) (h : ∀ s, (f s).still = s.still) :
    (when b f s).still = s.still := by simp [when, h]

/-! ## Causes, memory and sessions -/

@[simp] theorem raiseWith_still (c : Cause) (w : Word) (pb : Option Nat) (s : State) :
    (raiseWith c w pb s).still = s.still := rfl

@[simp] theorem memReadEffect_still (src : BitVec 4) (a : Nat) (s : State) : (memReadEffect src a s).still = s.still := by
  unfold memReadEffect
  split
  · rfl
  · dsimp only
    split
    · rfl
    · rfl
    · exact when_still _ _ _ fun s => rfl
    · rfl

@[simp] theorem readWordsEffect_still (src : BitVec 4) (a n : Nat) (s : State) :
    (readWordsEffect src a n s).still = s.still := by
  induction n generalizing a s with
  | zero => rfl
  | succ n ih => simp [readWordsEffect, ih]

@[simp] theorem readRecordEffect_still (a : Nat) (s : State) : (readRecordEffect a s).still = s.still := by
  unfold readRecordEffect
  split <;> simp

@[simp] theorem modSess_still (n : Nat) (f : Session → Session) (s : State) : (modSess n f s).still = s.still := rfl

@[simp] theorem countDrop_still (n : Nat) (s : State) : (countDrop n s).still = s.still := rfl

@[simp] theorem countOutrange_still (n : Nat) (s : State) : (countOutrange n s).still = s.still := rfl

@[simp] theorem turnSessions_still (s : State) : (turnSessions s).still = s.still := rfl

@[simp] theorem PatchRead.advanceEffect_still (k : Nat) (r : PatchRead) (s : State) :
    (r.advanceEffect k s).still = s.still := by simp [PatchRead.advanceEffect]

@[simp] theorem completeRead_still (r : PatchRead) (s : State) : (completeRead r s).still = s.still := by
  unfold completeRead
  dsimp only
  split
  · simp
  · split <;> simp

@[simp] theorem completeAll_still (s : State) : (completeAll s).still = s.still :=
  foldl_keep State.still _ (fun s r => completeRead_still r s) _ _

/-! ## Voices -/

@[simp] theorem modVoice_still (i : Nat) (f : Voice → Voice) (s : State) : (modVoice i f s).still = s.still := rfl

@[simp] theorem countNovoice_still (n : Nat) (s : State) : (countNovoice n s).still = s.still := rfl

@[simp] theorem countSteal_still (n : Nat) (s : State) : (countSteal n s).still = s.still := rfl

@[simp] theorem installPending_still (p : Pending) (t i : Nat) (s : State) : (installPending p t i s).still = s.still := rfl

@[simp] theorem killAll_still (n t : Nat) (s : State) : (killAll n t s).still = s.still := rfl

@[simp] theorem endStoop_still (t i : Nat) (s : State) : (endStoop t i s).still = s.still := by
  unfold endStoop
  split <;> rfl

@[simp] theorem stealVoice_still (p : Pending) (t i : Nat) (s : State) : (stealVoice p t i s).still = s.still := by
  unfold stealVoice
  dsimp only
  cases (vox s i).pend <;> simp

@[simp] theorem strike_still (t : Nat) (n : SIdx) (e : EvBytes) (play : Nat) (copy : Option Patch) (s : State) :
    (strike t n e play copy s).still = s.still := by
  unfold strike
  extract_lets rg s1 a rec_ s2
  have h2 : s2.still = s.still :=
    (when_still _ _ _ fun s => readRecordEffect_still a s).trans (when_still _ _ _ fun s => countOutrange_still n s)
  rw [← h2]
  clear_value rec_ s2
  split
  · rfl
  · split
    · exact when_still _ _ _ fun s => rfl
    · exact stealVoice_still _ _ _ s2
    · rfl

@[simp] theorem applyEvent_still (t : Nat) (n : SIdx) (e : EvBytes) (play : Nat) (copy : Option Patch) (s : State) :
    (applyEvent t n e play copy s).still = s.still := by
  unfold applyEvent
  split
  · rfl
  · exact strike_still t n e play copy s
  all_goals rfl

@[simp] theorem handOver_still (b t : Nat) (s : State) : (handOver b t s).still = s.still := by
  unfold handOver
  exact foldl_keep State.still _ (fun s _ => applyEvent_still _ _ _ _ _ s) _ _

@[simp] theorem applyParams_still (s : State) : (applyParams s).still = s.still := by
  unfold applyParams
  refine foldl_keep State.still _ (fun s p => ?_) _ _
  rfl

@[simp] theorem issuePrefetch_still (b : Nat) (s : State) : (issuePrefetch b s).still = s.still := rfl

@[simp] theorem applyVoxKill_still (b : Nat) (s : State) : (applyVoxKill b s).still = s.still :=
  foldl_keep State.still _ (fun s n => by simp) _ _

@[simp] theorem setRes_still (s : State) : (setRes s).still = s.still := rfl

@[simp] theorem endStoops_still (b : Nat) (s : State) : (endStoops b s).still = s.still :=
  foldl_keep State.still _ (fun s i => by simp) _ _

@[simp] theorem beginVoices_still (b : Nat) (s : State) : (beginVoices b s).still = s.still := rfl

@[simp] theorem wtRead_still (i o : Nat) (s : State) : (wtRead i o s).still = s.still := by
  unfold wtRead
  simp only [ite_still, memReadEffect_still]
  split
  · split
    · rfl
    · split <;> rfl
  · rfl

@[simp] theorem answerReads_still (s : State) : (answerReads s).still = s.still :=
  foldl_keep State.still _ (fun s i => by simp) _ _

/-- Each pending event of a list of voices that is discarded counts NOVOICE. -/
theorem foldl_countNovoice_still {α : Type} (f : α → Option Pending) (l : List α) (s : State) :
    (l.foldl (fun t i => match f i with | some p => countNovoice p.sess t | none => t) s).still = s.still :=
  foldl_keep State.still _ (fun t i => by cases f i <;> rfl) l s

@[simp] theorem renderVoices_still (s : State) : (renderVoices s).still = s.still :=
  foldl_countNovoice_still (fun i => (vox s i).pend) _ _

/-! ## Levels and their presentation -/

@[simp] theorem missTick_still (b : Nat) (s : State) : (missTick b s).still = s.still := rfl

@[simp] theorem applyLevels_still (b t : Nat) (s : State) : (applyLevels b t s).still = s.still := rfl

@[simp] theorem timeOut_still (n : Nat) (s : State) : (timeOut n s).still = s.still := rfl

@[simp] theorem present_still (j : Nat) (s : State) : (present j s).still = s.still := by
  unfold present
  split <;> rfl

/-! ## Epochs and the vacate -/

@[simp] theorem acceptHeld_still (s : State) : (acceptHeld s).still = s.still := by
  unfold acceptHeld
  split <;> rfl

@[simp] theorem migrationTick_still (s : State) : (migrationTick s).still = s.still := by
  unfold migrationTick
  split
  · rfl
  · split <;> split <;> rfl

@[simp] theorem vacateReserve_still (e : Nat) (s : State) : (vacateReserve e s).still = s.still := by
  simp only [vacateReserve, State.still]

@[simp] theorem vacateMove_still (e : Nat) (s : State) : (vacateMove e s).still = s.still :=
  foldl_countNovoice_still (fun (i : VIdx) => (vox s i).pend) _ _

@[simp] theorem vacateTick_still (s : State) : (vacateTick s).still = s.still := by
  unfold vacateTick
  split
  · split
    · split
      · exact vacateMove_still _ s
      · exact vacateReserve_still _ s
    · rfl
  · rfl

@[simp] theorem beginVacate_still (e : Nat) (s : State) : (beginVacate e s).still = s.still := by
  unfold beginVacate
  split
  · rfl
  · exact vacateMove_still e _

@[simp] theorem leaveEpochWait_still (s : State) : (leaveEpochWait s).still = s.still := by
  unfold leaveEpochWait
  split <;> simp

@[simp] theorem migrationDone_still (s : State) : (migrationDone s).still = s.still := by
  unfold migrationDone
  split
  · exact (acceptHeld_still _).trans (leaveEpochWait_still _)
  · rfl

/-! ## Timers, outputs and sense -/

@[simp] theorem modGpt_still (n : Nat) (f : Gpt → Gpt) (s : State) : (modGpt n f s).still = s.still := rfl

@[simp] theorem timerStrobe_still (n : Nat) (s : State) : (timerStrobe n s).still = s.still := by
  unfold timerStrobe
  split <;> rfl

@[simp] theorem snsTrigger_still (k : Nat) (s : State) : (snsTrigger k s).still = s.still := by
  unfold snsTrigger
  split <;> rfl

@[simp] theorem snsTimerTrigger_still (n : Nat) (s : State) : (snsTimerTrigger n s).still = s.still := by
  simp [snsTimerTrigger]

@[simp] theorem gptMatch_still (n : Nat) (s : State) : (gptMatch n s).still = s.still := by
  unfold gptMatch
  dsimp only
  split
  · rw [when_still _ (raiseGpt n) _ fun s => rfl]
    simp
  · rfl

@[simp] theorem gptOverflow_still (n : Nat) (s : State) : (gptOverflow n s).still = s.still :=
  when_still _ _ _ fun _ => rfl

@[simp] theorem gptWrap_still (n : Nat) (s : State) : (gptWrap n s).still = s.still := by simp [gptWrap]

@[simp] theorem countEdge_still (n : Nat) (s : State) : (countEdge n s).still = s.still := by simp [countEdge]

@[simp] theorem chainTick_still (sel : Bool) (s : State) : (chainTick sel s).still = s.still :=
  foldl_keep State.still (fun s n => chainCount sel n s) (fun s n => by simp [chainCount]) _ s

@[simp] theorem queueFire_still (b : Nat) (s : State) : (queueFire b s).still = s.still := by
  unfold queueFire
  split <;> rfl

@[simp] theorem pixSnapshot_still (s : State) : (pixSnapshot s).still = s.still := rfl

@[simp] theorem mirror_still (s : State) : (mirror s).still = s.still := rfl

@[simp] theorem emtFrame_still (s : State) : (emtFrame s).still = s.still := by
  unfold emtFrame
  split <;> rfl

@[simp] theorem pixFrame_still (s : State) : (pixFrame s).still = s.still := by
  unfold pixFrame
  split <;> rfl

@[simp] theorem dmxTrigger_still (f : Nat) (p : Fin 2) (s : State) : (dmxTrigger f p s).still = s.still := by
  unfold dmxTrigger
  dsimp only
  split
  · split <;> rfl
  · rfl

/-! ## The parts of a tick and of a frame -/

@[simp] theorem closeTick_still (s : State) : (closeTick s).still = s.still := by
  have hvox (x : Vox) (s : State) : (s.setVox x).still = s.still := rfl
  have hclose (u : State) : ({ u with vox := endVoiceTick u.epoch.eyrieSet u.vox } : State) =
      u.setVox (endVoiceTick u.epoch.eyrieSet u.vox) := rfl
  simp only [closeTick, hclose, hvox]
  simp

@[simp] theorem endTick_still (s : State) : (endTick s).still = s.still := by simp [endTick]

@[simp] theorem openTick_still (b : Nat) (s : State) : (openTick b s).still = s.still := by
  have htime (l : List Nat) (s : State) : (l.foldl (fun s n => timeOut n s) s).still = s.still :=
    foldl_keep State.still (fun s n => timeOut n s) (fun s n => timeOut_still n s) l s
  unfold openTick
  extract_lets t s1 s2 s3 s4
  have h1 : s1.still = s.still := by simp [s1]
  have h2 : s2.still = s1.still := by simp [s2, htime]
  have h3 : s3.still = s2.still := by simp [s3]
  have h4 : s4.still = s3.still := when_still _ _ _ fun s => by simp
  exact (beginVoices_still b s4).trans (h4.trans (h3.trans (h2.trans h1)))

@[simp] theorem beginTick_still (b : Nat) (s : State) : (beginTick b s).still = s.still := by
  have hbeat : (beatTick s).still = s.still := rfl
  simp [beginTick, hbeat]

@[simp] theorem tickOthers_still (b : Nat) (s : State) : (tickOthers b s).still = s.still := by
  have h : (pixSnapshot (snsTrigger 1 (chainTick false (queueFire b s)))).still = s.still := by simp
  unfold tickOthers
  generalize pixSnapshot (snsTrigger 1 (chainTick false (queueFire b s))) = u at h ⊢
  exact (when_still _ _ _ mirror_still).trans h

@[simp] theorem frameOutputs_still (s : State) : (frameOutputs s).still = s.still := by simp [frameOutputs, dmxFrame]

end Sys2Proof.Machine

/-! SUPPORT. Tick and frame boundaries (R29, R181): what their work leaves as it is, and the PEND bits that they set last. -/

namespace Sys2Proof.Machine

theorem still_eq_iff {s t : State} :
    t.still = s.still ↔ t.mode = s.mode ∧ t.chn = s.chn ∧ t.head = s.head ∧ t.drv = s.drv ∧ t.ros = s.ros := by
  simp [State.still]

/-- A PEND bit that is set for all is set in every kestrel (R285). -/
theorem bit_setPendAll (b : Nat) (hb : b < 16) (x : Kst) (k : KIdx) : bit ((setPendAll b x).core[k]).pend b = true := by
  simp [setPendAll, bit_setBit _ _ _ _ hb]

/-! ## The tick boundary -/

theorem exec_tickBoundary (s : State) :
    exec .tickBoundary s = .next (if chainCounts s then tickBoundary s else s) := rfl

theorem tickBoundary_roost {s : State} (h : s.mode.code = .roost) :
    tickBoundary s = vacateTick (reachTick (s.chn.tick + 1) s) := if_pos h

theorem tickBoundary_running {s : State} (h : s.mode.code ≠ .roost) :
    tickBoundary s = tickOthers (s.chn.tick + 1) (beginTick (s.chn.tick + 1) (reachTick (s.chn.tick + 1) (endTick s))) := by
  rw [tickBoundary, if_neg h]

theorem reachTick_mode (b : Nat) (s : State) : (reachTick b s).mode = s.mode := State.setChn_mode s _

theorem reachTick_gate (b : Nat) (s : State) : (reachTick b s).gate = s.gate := State.setChn_gate s _

theorem reachTick_chn (b : Nat) (s : State) :
    (reachTick b s).chn = { s.chn with tick := b, ticks := s.chn.ticks + 1, ctime := ctimeAt s.chn.ctime (tickTime b) } :=
  State.setChn_chn s _

theorem vacateTick_of_none {s : State} (h : s.gate.vacating = none) : vacateTick s = s := by simp [vacateTick, h]

/-- Outside ROOST a tick boundary leaves the mode and moves CHN as `reachTick` does. -/
theorem tickBoundary_mode_chn {s : State} (h : s.mode.code ≠ .roost) :
    (tickBoundary s).mode = s.mode ∧ (tickBoundary s).chn = (reachTick (s.chn.tick + 1) s).chn := by
  have hwork : (tickBoundary s).still = (reachTick (s.chn.tick + 1) (endTick s)).still := by
    rw [tickBoundary_running h, tickOthers_still, beginTick_still]
  obtain ⟨hmode, hchn, -⟩ := still_eq_iff.mp hwork
  obtain ⟨hmodeEnd, hchnEnd, -⟩ := still_eq_iff.mp (endTick_still s)
  rw [hmode, hchn, reachTick_mode, hmodeEnd, reachTick_chn, reachTick_chn, hchnEnd]
  exact ⟨rfl, rfl⟩

theorem tickOthers_pend (b : Nat) (s : State) (k : KIdx) : bit ((tickOthers b s).kst.core[k]).pend 2 = true := by
  have hmirror (c : Bool) (u : State) : (when c mirror u).kst = u.kst := by unfold when; split <;> rfl
  simp only [tickOthers, hmirror, bit_setPendAll 2 (by decide)]

/-! ## The frame boundary -/

theorem exec_frameBoundary (s : State) :
    exec .frameBoundary s = .next (if chainCounts s then frameBoundary s else s) := rfl

theorem nextFrame_counted {s : State} (h : (isHead s && s.head.ctsetGo) = false) : nextFrame s = s.chn.tick / 6 + 1 := by
  simp [nextFrame, h]

theorem nextFrame_loaded {s : State} (hh : isHead s = true) (hg : s.head.ctsetGo = true) :
    nextFrame s = s.head.ctsetHi.toNat * 4294967296 + s.head.ctsetLo.toNat := by simp [nextFrame, hh, hg]

/-- What a frame's start and its uplink cells make of CHN (R181, R388). -/
theorem composeUplink_reachFrame_chn (f : Nat) (s : State) :
    ∃ ctime uplink, (composeUplink (reachFrame f s)).chn =
        { s.chn with tick := (if f = 0 then 1099511627776 * 6 else f * 6) - 1, ctime := ctime, uplink := uplink, fecNew := 0 } ∧
      ((isHead s && s.head.ctsetGo) = true → ctime = BitVec.ofNat 64 (f * frameUnits)) :=
  ⟨_, _, rfl, fun h => if_pos h⟩

/-- The hoods that a frame start lifts (R78, R408). -/
theorem liftHoods_spec (s : State) :
    (liftHoods s).mode = s.mode ∧ (liftHoods s).chn = s.chn ∧ (liftHoods s).head = s.head ∧
      (s.drv.liftAtFrame = true → (liftHoods s).drv.modeHood = false ∧ (liftHoods s).ros.look = false) := by
  unfold liftHoods
  dsimp only
  split
  · exact ⟨rfl, rfl, rfl, fun _ => ⟨rfl, rfl⟩⟩
  · exact ⟨rfl, rfl, rfl, fun h => absurd h ‹_›⟩

/-- A frame boundary's own changes are those of its first steps; the outputs and triggers that follow leave them. -/
theorem frameBoundary_spec (s : State) :
    (frameBoundary s).mode = s.mode ∧ (frameBoundary s).chn = (composeUplink (reachFrame (nextFrame s) s)).chn ∧
      (frameBoundary s).head = { s.head with ctsetGo := false } ∧
      (s.drv.liftAtFrame = true → (frameBoundary s).drv.modeHood = false ∧ (frameBoundary s).ros.look = false) := by
  have hkst (x : Kst) (u : State) : (u.setKst x).still = u.still := rfl
  have hpend (u : State) : ({ u with kst := setPendAll 3 u.kst } : State) = u.setKst (setPendAll 3 u.kst) := rfl
  have hwork : (frameBoundary s).still = (liftHoods (composeUplink (reachFrame (nextFrame s) s))).still := by
    simp only [frameBoundary, hpend, hkst, snsTrigger_still, chainTick_still, frameOutputs_still]
  obtain ⟨hmode, hchn, hhead, hdrv, hros⟩ := still_eq_iff.mp hwork
  obtain ⟨hmodeLift, hchnLift, hheadLift, hlift⟩ := liftHoods_spec (composeUplink (reachFrame (nextFrame s) s))
  refine ⟨hmode.trans hmodeLift, hchn.trans hchnLift, hhead.trans hheadLift, fun h => ?_⟩
  rw [hdrv, hros]
  exact hlift h

theorem frameBoundary_pend (s : State) (k : KIdx) : bit ((frameBoundary s).kst.core[k]).pend 3 = true := by
  simp only [frameBoundary, bit_setPendAll 3 (by decide)]

/-! ## A frame that does not arrive -/

theorem exec_frameMissing (s : State) : exec .frameMissing s = .next (if pd1Up s then frameMissing s else s) := rfl

theorem valid_of_vget_invalidated {v : Vector (Option RingFrame) 2} {p : PortIdx} {r : RingFrame}
    (h : vget (v.map fun o => o.map fun r => { r with valid := false }) p none = some r) : r.valid = false := by
  have hp : (v.map fun o => o.map fun r => { r with valid := false })[p.val]? =
      some (v[p].map fun r => { r with valid := false }) := by
    rw [Vector.getElem?_map, Vector.getElem?_eq_getElem p.isLt]
    rfl
  rw [vget, hp, Option.getD_some, Option.map_eq_some_iff] at h
  obtain ⟨q, -, rfl⟩ := h
  rfl

/-- Settles O40: a boundary's work leaves CHN, mode, head role, D-die and look as its first steps made them (`State.still`),
and sets the PEND bit last. -/
theorem tickAndFrameBoundaries : Obligations.TickAndFrameBoundaries := by
  intro s
  refine ⟨fun h => ?stands, fun h hroost => ⟨?roost, fun hvac => ?roostAlone⟩, fun h hrun => ?tick, fun h hcount => ?frame,
    fun h hhead hgo => ?loaded, fun hpd hfree => ?missing, fun h => ?notMissing⟩
  case stands => simp only [exec_tickBoundary, exec_frameBoundary, h, Bool.false_eq_true, if_false, and_self]
  case roost => rw [exec_tickBoundary, if_pos h, tickBoundary_roost hroost]
  case roostAlone =>
    refine ⟨reachTick (s.chn.tick + 1) s, ?_, ?_, by rw [reachTick_chn]⟩
    · rw [exec_tickBoundary, if_pos h, tickBoundary_roost hroost, vacateTick_of_none]
      rw [reachTick_gate, hvac]
    · rw [reachTick_chn]
      rfl
  case tick =>
    obtain ⟨hmode, hchn⟩ := tickBoundary_mode_chn hrun
    refine ⟨tickBoundary s, by rw [exec_tickBoundary, if_pos h], ?_, ?_, hmode, ?_, fun k => ?_⟩
    · rw [hchn, reachTick_chn]
    · rw [hchn, reachTick_chn]
    · rw [hchn, reachTick_chn]
    · rw [tickBoundary_running hrun, tickOthers_pend]
  case frame =>
    obtain ⟨hmode, hchn, -, hlift⟩ := frameBoundary_spec s
    obtain ⟨ctime, uplink, hbegun, -⟩ := composeUplink_reachFrame_chn (nextFrame s) s
    rw [nextFrame_counted hcount] at hchn hbegun
    rw [hbegun, if_neg (Nat.succ_ne_zero _)] at hchn
    refine ⟨frameBoundary s, by rw [exec_frameBoundary, if_pos h], ?_, hmode, ?_, ?_, hlift,
      frameBoundary_pend s⟩
    · rw [hchn]
      exact Nat.sub_add_cancel (by omega)
    · rw [hchn]
    · rw [hchn]
  case loaded =>
    obtain ⟨-, hchn, hheadAfter, -⟩ := frameBoundary_spec s
    refine ⟨frameBoundary s, by rw [exec_frameBoundary, if_pos h], by rw [hheadAfter], ?_⟩
    obtain ⟨ctime, uplink, hbegun, hload⟩ := composeUplink_reachFrame_chn (nextFrame s) s
    rw [hchn, hbegun, ← nextFrame_loaded hhead hgo]
    exact hload (by rw [hhead, hgo, Bool.and_self])
  case missing =>
    refine ⟨frameMissing s, by simp only [exec_frameMissing, hpd, if_true], ?_⟩
    simp only [frameMissing, hfree, Bool.false_eq_true, if_false]
    exact ⟨rfl, fun p r => valid_of_vget_invalidated, raised_raise _ _, rfl⟩
  case notMissing =>
    obtain h | h := h
    · simp [exec_frameMissing, h]
    · simp [exec_frameMissing, frameMissing, h]

end Sys2Proof.Machine

/-! SUPPORT. What resets and wakes leave (R43-R53): power-on reset, pin and owl resets, and the end of DORMANT. -/

namespace Sys2Proof.Machine

/-- Settles O6: the reset state, component by component. -/
theorem resetHasInvariants : Obligations.ResetHasInvariants := by
  refine ⟨?memForm, ?aonOn, ?queue⟩
  case memForm => rfl
  case aonOn => decide +kernel
  case queue => rfl

/-! ## Power-on reset, power-good, VFIELD (R43, R414) -/

theorem exec_powerOnReset (s : State) :
    exec .powerOnReset s = .next
      { resetState .por 0 0 (tearSlot s) with mode := { (resetState .por 0 0 (tearSlot s)).mode with inPor := true } } := rfl

theorem exec_powerGood (s : State) :
    exec .powerGood s = .next (if s.mode.inPor then { s with mode := { s.mode with inPor := false } } else s) := rfl

/-- A power-on reset tears the save in progress, which touches the roost store alone (log entry 26). -/
theorem tearSlot_frame (s : State) : tearSlot s = { s with ros := (tearSlot s).ros, free := (tearSlot s).free } := by
  unfold tearSlot
  split <;> rfl

theorem rawWord_empty (a : Nat) : rawWord {} a = 0 := rfl

/-- Settles O8: a power-on reset is `resetState .por` of a state in which only a save was torn. -/
theorem powerSupplyEventsReset : Obligations.PowerSupplyEventsReset := by
  refine ⟨fun s => ⟨_, exec_powerOnReset s, ?_⟩, fun s h => ?good, fun b s => rfl⟩
  case good => rw [exec_powerGood, if_pos h]
  rw [tearSlot_frame s]
  exact ⟨rfl, rfl, rfl, rfl, rfl, rawWord_empty, rfl, rfl, rfl, rfl, rfl, rfl, rfl, rfl, rfl, rfl, rfl, rfl, rfl⟩

/-! ## The pin reset (R44) -/

theorem exec_pinReset (lowNs : Nat) (s : State) :
    exec (.pinReset lowNs) s = .next
      (if s.mode.inPor || s.mode.code == .roost || decide (lowNs < 100) then s
       else if lowNs < 1000 then
         (if Config.shortPulseResets s.free then resetState .pin 1 1 { s with free := s.free + 1 }
          else { s with free := s.free + 1 })
       else resetState .pin 1 1 s) := rfl

theorem exec_pinReset_long {lowNs : Nat} {s : State} (hpor : s.mode.inPor = false) (hroost : s.mode.code ≠ .roost)
    (h : 1000 ≤ lowNs) : exec (.pinReset lowNs) s = .next (resetState .pin 1 1 s) := by
  rw [exec_pinReset, if_neg (by simp [hpor, hroost]; omega), if_neg (by omega)]

/-- Settles O9: the three widths of `exec_pinReset`; at the middle one the device chooses. -/
theorem pinResetByPulseWidth : Obligations.PinResetByPulseWidth := by
  intro lowNs s hpor hroost
  refine ⟨fun h => ?ignored, fun h => ?resets, fun h100 h1000 => ?either, rfl, rfl⟩
  case ignored => rw [exec_pinReset, if_pos (by simp [h])]
  case resets => exact exec_pinReset_long hpor hroost h
  case either =>
    refine ⟨_, exec_pinReset lowNs s, ?_⟩
    rw [if_neg (by simp [hpor, hroost]; omega), if_pos h1000]
    split
    · exact .inr rfl
    · exact .inl rfl

/-! ## Wakes (R53) -/

/-- A wake from DORMANT: BOOT begins, the owl starts its period and MODE is raised. -/
theorem wake_of_dormant {s : State} (hcode : s.mode.code = .dormant) (hbusy : s.mode.busy = false)
    (hpor : s.mode.inPor = false) :
    wake s = { s with
      mode := (wake s).mode
      owl := { s.owl with count := BitVec.ofNat 16 (fld s.owl.cfg 0 7 * 64) }
      host := setIsr Cause.mode.num s.host } ∧
    (wake s).mode = { s.mode with
      code := .boot, from_ := .dormant, step := 0, done := false, clkfail := false, memfail := false
      scanskip := false, roostvalid := false, kept := false, keepBoot := false, bcause := 5
      src := .device, tsrc := .device, roostSleep := false, rstcause := setBit s.mode.rstcause 5 true } := by
  have hwakes : (s.mode.code == .dormant && !s.mode.busy && !s.mode.inPor) = true := by simp [hcode, hbusy, hpor]
  unfold wake
  rw [if_pos hwakes, raise_of_unlogged rfl rfl]
  exact ⟨rfl, rfl⟩

theorem raised_mode_wake {s : State} (hcode : s.mode.code = .dormant) (hbusy : s.mode.busy = false)
    (hpor : s.mode.inPor = false) : raised .mode (wake s) = true := by
  rw [(wake_of_dormant hcode hbusy hpor).1]
  exact (raised_setIsr .mode .mode _).trans (by simp)

/-- A period of the owl fits its count (R53, R135). -/
theorem toNat_owlPeriod (cfg : Half) : (BitVec.ofNat 16 (fld cfg 0 7 * 64)).toNat = fld cfg 0 7 * 64 := by
  have : fld cfg 0 7 < 128 := Nat.mod_lt _ (by decide)
  rw [BitVec.toNat_ofNat]
  omega

/-- The state that a wake row wakes: an access also drives HD, and a GP0 wake comes with the pin's level. -/
def atWake (c : Instr) (s : State) : State :=
  match c with
  | .wakeHcs => { s with host := { s.host with hd := 0 } }
  | .wakeGp0 => { s with pins := { s.pins with gp0 := bit s.mode.bootcfg 8 } }
  | _ => s

theorem exec_wakeHcs (s : State) :
    exec .wakeHcs s = .next (if s.mode.code == .dormant then wake (atWake .wakeHcs s) else s) := rfl

theorem exec_wakeGp0 (s : State) :
    exec .wakeGp0 s = .next (if bit s.mode.bootcfg 9 && s.mode.code == .dormant then wake (atWake .wakeGp0 s) else s) := rfl

theorem exec_wakePowerGood (s : State) :
    exec .wakePowerGood s = .next (if s.mode.roostSleep then wake (atWake .wakePowerGood s) else s) := rfl

/-- Each wake row, where its condition holds, wakes the device. -/
theorem exec_wakeRow {s : State} (hcode : s.mode.code = .dormant) {x : Instr × Bool}
    (hx : x ∈ [(Instr.wakeHcs, true), (.wakeGp0, bit s.mode.bootcfg 9), (.wakePowerGood, s.mode.roostSleep)])
    (hon : x.2 = true) : exec x.1 s = .next (wake (atWake x.1 s)) := by
  simp only [List.mem_cons, List.not_mem_nil, or_false] at hx
  obtain rfl | rfl | rfl := hx
  · rw [exec_wakeHcs, if_pos (by simp [hcode])]
  · rw [exec_wakeGp0, if_pos (by simpa [hcode] using hon)]
  · rw [exec_wakePowerGood, if_pos hon]

theorem atWake_frame (c : Instr) (s : State) :
    atWake c s = { s with host := { s.host with hd := (atWake c s).host.hd }, pins := (atWake c s).pins } := by
  unfold atWake
  split <;> rfl

theorem atWake_pins {s : State} {x : Instr × Bool}
    (hx : x ∈ [(Instr.wakeHcs, true), (.wakeGp0, bit s.mode.bootcfg 9), (.wakePowerGood, s.mode.roostSleep)]) :
    (atWake x.1 s).pins = { s.pins with gp0 := if x.1 = .wakeGp0 then bit s.mode.bootcfg 8 else s.pins.gp0 } := by
  simp only [List.mem_cons, List.not_mem_nil, or_false] at hx
  obtain rfl | rfl | rfl := hx <;> simp [atWake]

/-- Settles O12: each row is a wake (`exec_wakeRow`), and `wake_of_dormant` says what a wake leaves. -/
theorem wakeLeavesDormant : Obligations.WakeLeavesDormant := by
  refine fun s hcode hbusy hpor => ⟨fun x hx hon => ⟨_, exec_wakeRow hcode hx hon, ?_⟩, fun hoff => ?_⟩
  · have hmode : (atWake x.1 s).mode = s.mode := by rw [atWake_frame]
    have howl : (atWake x.1 s).owl = s.owl := by rw [atWake_frame]
    obtain ⟨hframe, hmodeWake⟩ := wake_of_dormant (s := atWake x.1 s) (hmode ▸ hcode) (hmode ▸ hbusy) (hmode ▸ hpor)
    have hraised := raised_mode_wake (s := atWake x.1 s) (hmode ▸ hcode) (hmode ▸ hbusy) (hmode ▸ hpor)
    have hpins := atWake_pins hx
    rw [hmode] at hmodeWake
    refine ⟨?_, ?_, ?_, ?_, ?_, ?_, ?_, hraised, ?_, ?_⟩
    iterate 6 rw [hmodeWake]
    · rw [hframe, howl, toNat_owlPeriod]
    · rw [hframe, howl, atWake_frame]
      rfl
    · rw [hframe]
      exact hpins
  · rw [exec_wakeGp0, if_neg (by simp [hoff])]

end Sys2Proof.Machine

/-! SUPPORT. Host accesses at the PD0 registers (R115, R117): which of them the AON serves, and with what effect. -/

namespace Sys2Proof.Machine

/-- An access at a PD0 offset outside DORMANT and ROOST has its normal effect, whether or not the AON answers it (R117). -/
theorem hostPut_pd0 {s : State} (hpor : s.mode.inPor = false) (hroost : (lateTime s).mode.code ≠ .roost)
    (hdormant : (lateTime s).mode.code ≠ .dormant) (off : Fin 64) (v : Half) (hoff : 2 ≤ off.val ∧ off.val < 16) :
    ∃ o, hostPut off v s = (aonWrite off.val v (lateTime s)).setOwl o := by
  have hwrite : hostServe (.write off v) (lateTime s) = aonWrite off.val v (lateTime s) := if_pos hoff
  refine ⟨_, Eq.trans ?_ (owlSees_frame (lateTime s).owl (.write off v) _)⟩
  simp [hostPut, hostAccess, hostRun, aonServe, hpor, hroost, hdormant, accessIdx, hoff, hwrite]

/-! ## Soft resets (R45, R47) -/

theorem exec_softReset (keep : Bool) (s : State) :
    exec (.softReset keep) s = .next (hostPut 4 (if keep then 3 else 1) s) := rfl

theorem aonWrite_softReset {keep : Bool} {s : State} (hpor : s.mode.inPor = false) (hroost : s.mode.code ≠ .roost)
    (hdormant : s.mode.code ≠ .dormant) :
    aonWrite 4 (if keep then 3 else 1) s = resetState (if keep then .softKeep else .soft) 2 2 s := by
  have hreset (k : Bool) : softReset k s = resetState (if k then .softKeep else .soft) 2 2 s := by
    simp [softReset, hpor, hroost, hdormant]
  cases keep
  · exact hreset false
  · exact hreset true

/-- A soft reset resets the state that the write meets, but for what the owl sees of the write. -/
theorem exec_softReset_resets (keep : Bool) {s : State} (hpor : s.mode.inPor = false)
    (hlate : (lateTime s).mode.inPor = false) (hroost : (lateTime s).mode.code ≠ .roost)
    (hdormant : (lateTime s).mode.code ≠ .dormant) :
    ∃ o, exec (.softReset keep) s = .next
      ((resetState (if keep then .softKeep else .soft) 2 2 (lateTime s)).setOwl o) := by
  obtain ⟨o, ho⟩ := hostPut_pd0 hpor hroost hdormant 4 (if keep then 3 else 1) (by decide)
  refine ⟨o, ?_⟩
  rw [exec_softReset, ho]
  exact congrArg _ (congrArg (State.setOwl · o) (aonWrite_softReset hlate hroost hdormant))

/-! ## Owl resets and the end of a save (R45, R46, R51, R137) -/

theorem exec_owlExpiry (s : State) : exec .owlExpiry s = .next (if owlRuns s then owlExpire false s else s) := rfl

/-- An expiry with ACTION = 2, or the second strike with ACTION = 3, resets (R137). -/
theorem owlExpire_resets {hrdy : Bool} {s : State}
    (h : fld s.owl.cfg 13 2 = 2 ∨ (fld s.owl.cfg 13 2 = 3 ∧ s.owl.strike = true)) :
    owlExpire hrdy s = owlReset (raise .owl { s with owl := s.owl.expired hrdy }) := by
  have howl : (raise .owl { s with owl := s.owl.expired hrdy }).owl = s.owl.expired hrdy := rfl
  have hcfg : (s.owl.expired hrdy).cfg = s.owl.cfg := rfl
  have hstrike : (s.owl.expired hrdy).strike = s.owl.strike := rfl
  simp only [owlExpire, howl, hcfg, hstrike]
  obtain h | ⟨h, hs⟩ := h
  · simp [h]
  · simp [h, hs]

theorem exec_saveEnd (pg rst : Bool) {s : State} (hcode : s.mode.code = .roost) (hcapt : s.mode.captured = true) :
    exec (.saveEnd pg rst) s = .next
      (let s := { s with ros := programSlot s.ros }
       if rst then resetState .pin 1 1 s
       else if pg then resetState .pin 4 4 s
       else
         let t := enterMode .dormant .device
           { s with lanes := { s.lanes with port := s.lanes.port.map fun p => { p with repeating := false } } }
         { t with mode := { t.mode with roostSleep := true } }) := by
  have hrow : exec (.saveEnd pg rst) s = .next (if s.mode.code == .roost && s.mode.captured then _ else s) := rfl
  rw [hrow, if_pos (by simp [hcode, hcapt])]

/-- What a reset other than power-on reset leaves in HB_RSTCAUSE and BCAUSE (R47). -/
theorem resetState_causes {k : ResetKind} (hk : k ≠ .por) (b : BitVec 3) (n : Nat) (s : State) :
    (resetState k b n s).mode.rstcause = setBit s.mode.rstcause n true ∧ (resetState k b n s).mode.bcause = b :=
  ⟨if_neg hk, rfl⟩

/-- Settles O10: every row but the wakes and the host's clear ends in `resetState`, whose causes `resetState_causes` gives. -/
theorem resetsRecordTheirCause : Obligations.ResetsRecordTheirCause := by
  refine ⟨fun s => ?por, fun lowNs s hpor hroost hlong => ?pin, fun keep s hpor hlate hroost hdormant => ?soft,
    fun s hruns h => ?owl, fun s hcode hcapt => ⟨fun pg => ?savePin, ?saveEnd⟩,
    fun s hcode hbusy hpor x hx hon => ?wake, fun v s h => ?clear⟩
  case por => exact ⟨_, exec_powerOnReset s, rfl, rfl⟩
  case pin => exact ⟨_, exec_pinReset_long hpor hroost hlong, resetState_causes (by decide) 1 1 s⟩
  case soft =>
    obtain ⟨o, ho⟩ := exec_softReset_resets keep hpor hlate hroost hdormant
    exact ⟨_, ho, resetState_causes (by cases keep <;> decide) 2 2 (lateTime s)⟩
  case owl =>
    refine ⟨_, exec_owlExpiry s, ?_⟩
    rw [if_pos hruns, owlExpire_resets h]
    exact resetState_causes (by decide) 3 3 _
  case savePin => exact ⟨_, exec_saveEnd pg true hcode hcapt, resetState_causes (by decide) 1 1 _⟩
  case saveEnd => exact ⟨_, exec_saveEnd true false hcode hcapt, resetState_causes (by decide) 4 4 _⟩
  case wake =>
    have hmode : (atWake x.1 s).mode = s.mode := by rw [atWake_frame]
    obtain ⟨-, hwake⟩ := wake_of_dormant (s := atWake x.1 s) (hmode ▸ hcode) (hmode ▸ hbusy) (hmode ▸ hpor)
    refine ⟨_, exec_wakeRow hcode hx hon, ?_, ?_⟩
    · rw [hwake, hmode]
    · rw [hwake]
  case clear => exact gives_of_hostPut h 5 v rfl (hostWrite_rstcause v _) fun o => rfl

/-! ## RESULT, and the request that sets it (R38, R42) -/

/-- RESULT takes its code, a change of it raises MODE, and no raised cause is lost (R42). -/
theorem setResult_spec (r : BitVec 2) (s : State) :
    setResult r s = { s with mode := { s.mode with result := r }, host := (setResult r s).host } ∧
      (s.mode.result ≠ r → raised .mode (setResult r s) = true) ∧
      ∀ c, raised c s = true → raised c (setResult r s) = true := by
  unfold setResult when
  split
  · rw [raise_of_unlogged rfl rfl]
    exact ⟨rfl, fun _ => (raised_setIsr .mode .mode _).trans (by simp), fun c hc => (raised_setIsr c .mode _).trans
      (Bool.or_eq_true_iff.mpr (.inr hc))⟩
  · next h => exact ⟨rfl, fun hne => absurd (bne_iff_ne.mpr hne) h, fun c hc => hc⟩

@[simp] theorem setResult_mode (r : BitVec 2) (s : State) : (setResult r s).mode = { s.mode with result := r } := by
  rw [(setResult_spec r s).1]

/-- The row of a request is a host write of its code (R38). -/
theorem exec_request (c : Mode) (s : State) : exec c.request s = .next (hostPut 3 (BitVec.ofNat 16 c.num) s) := by
  cases c <;> rfl

theorem aonWrite_request (c : Mode) (s : State) : aonWrite 3 (BitVec.ofNat 16 c.num) s = hostRequest c s := by
  have hcode : Mode.ofNum (fld (BitVec.ofNat 16 c.num) 0 3) = c := by cases c <;> rfl
  exact congrArg (hostRequest · s) hcode

/-- A request outside power-on reset, DORMANT and ROOST: one that is pending ends SUPERSEDED, and in BOOT all but SOLO and
SERVICE are REFUSED (R38, R57). -/
theorem hostRequest_of_open {c : Mode} {s : State} (hpor : s.mode.inPor = false) (hroost : s.mode.code ≠ .roost)
    (hdormant : s.mode.code ≠ .dormant) :
    hostRequest c s =
      let u := when s.mode.pend (setResult 3) s
      let t : State := { u with mode := { u.mode with pend := true, pcode := BitVec.ofNat 3 c.num } }
      if t.mode.code = .boot ∧ c ≠ .solo ∧ c ≠ .service then setResult 2 { t with mode := { t.mode with pend := false } }
      else t := by
  simp [hostRequest, hpor, hroost, hdormant]

theorem when_setResult_spec (b : Bool) (r : BitVec 2) (s : State) :
    when b (setResult r) s = { s with
      mode := { s.mode with result := if b then r else s.mode.result }, host := (when b (setResult r) s).host } ∧
      (b = true → s.mode.result ≠ r → raised .mode (when b (setResult r) s) = true) ∧
      (b = false → when b (setResult r) s = s) ∧
      ∀ c, raised c s = true → raised c (when b (setResult r) s) = true := by
  cases b
  · exact ⟨rfl, by simp, fun _ => rfl, fun _ h => h⟩
  · obtain ⟨hframe, hraised, hkeep⟩ := setResult_spec r s
    exact ⟨hframe, fun _ => hraised, by simp, hkeep⟩

/-- A request that BOOT does not refuse waits in PEND and PCODE. -/
theorem hostRequest_stored {c : Mode} {u : State} (hpor : u.mode.inPor = false) (hroost : u.mode.code ≠ .roost)
    (hdormant : u.mode.code ≠ .dormant) (h : u.mode.code ≠ .boot ∨ c = .solo ∨ c = .service) :
    hostRequest c u = { u with
      mode := { u.mode with
        pend := true, pcode := BitVec.ofNat 3 c.num, result := if u.mode.pend then 3 else u.mode.result }
      host := (when u.mode.pend (setResult 3) u).host } := by
  obtain ⟨hframe, -⟩ := when_setResult_spec u.mode.pend 3 u
  have hnot : ¬(u.mode.code = .boot ∧ c ≠ .solo ∧ c ≠ .service) := by tauto
  rw [hostRequest_of_open hpor hroost hdormant]
  dsimp only
  rw [hframe]
  exact if_neg hnot

/-- A request that BOOT refuses is not stored: RESULT is REFUSED (R57). -/
theorem hostRequest_refused {c : Mode} {u : State} (hpor : u.mode.inPor = false) (hcode : u.mode.code = .boot)
    (hsolo : c ≠ .solo) (hservice : c ≠ .service) :
    hostRequest c u = { u with
      mode := { u.mode with pend := false, pcode := BitVec.ofNat 3 c.num, result := 2 }, host := (hostRequest c u).host } ∧
      (u.mode.result ≠ 2 → raised .mode (hostRequest c u) = true) := by
  obtain ⟨hframe, hsuper, hnone, -⟩ := when_setResult_spec u.mode.pend 3 u
  rw [hostRequest_of_open hpor (by simp [hcode]) (by simp [hcode])]
  generalize when u.mode.pend (setResult 3) u = w at hframe hsuper hnone ⊢
  have hboot : w.mode.code = .boot := by rw [hframe]; exact hcode
  dsimp only
  rw [if_pos ⟨hboot, hsolo, hservice⟩]
  obtain ⟨hset, hraise, hkeep⟩ := setResult_spec 2
    { w with mode := { w.mode with pend := false, pcode := BitVec.ofNat 3 c.num } }
  refine ⟨by rw [hset, hframe], fun hne => ?_⟩
  cases hp : u.mode.pend
  · exact hraise (by rw [hnone hp]; exact hne)
  · exact hraise (by rw [hframe]; simp [hp])

/-- A request, outside power-on reset, DORMANT and ROOST, acts on the state that its write meets. -/
theorem exec_request_of_open (c : Mode) {s : State} (hpor : s.mode.inPor = false) (hroost : (lateTime s).mode.code ≠ .roost)
    (hdormant : (lateTime s).mode.code ≠ .dormant) :
    ∃ o, exec c.request s = .next ((hostRequest c (lateTime s)).setOwl o) := by
  obtain ⟨o, ho⟩ := hostPut_pd0 hpor hroost hdormant 3 (BitVec.ofNat 16 c.num) (by decide)
  refine ⟨o, ?_⟩
  rw [exec_request, ho, ← aonWrite_request]
  rfl

theorem exec_roostSaveRequest (s : State) : exec .roostSaveRequest s = .next (hostPut 0x28 1 s) := rfl

/-- The owl sees a write of HB_ROOST as it sees one of HB_MODE_REQ: neither is a key write or a window data access. -/
theorem owlSees_roost_eq_request (o : Owl) (v w : Half) (s : State) :
    owlSees o (.write 0x28 v) s = owlSees o (.write 3 w) s := rfl

/-- Settles O15: a stored request (`hostRequest_stored`), one that BOOT refuses (`hostRequest_refused`), and HB_ROOST.SAVE as
a request for code 7. -/
theorem modeRequestIsStored : Obligations.ModeRequestIsStored := by
  refine ⟨fun c s hpor hroost hdormant hlate => ⟨fun h => ?stored, fun ⟨hcode, hsolo, hservice⟩ => ?refused⟩,
    fun s h => ?save⟩
  case stored =>
    obtain ⟨o, ho⟩ := exec_request_of_open c hpor hroost hdormant
    obtain ⟨-, hraise, hnone, -⟩ := when_setResult_spec (lateTime s).mode.pend 3 (lateTime s)
    refine ⟨_, ho, ?_⟩
    rw [hostRequest_stored hlate hroost hdormant h]
    refine ⟨rfl, fun hp => ?_, fun hp => ⟨rfl, hraise hp⟩⟩
    rw [hnone hp]
    rfl
  case refused =>
    obtain ⟨o, ho⟩ := exec_request_of_open c hpor hroost hdormant
    obtain ⟨hframe, hraise⟩ := hostRequest_refused hlate hcode hsolo hservice
    refine ⟨_, ho, ?_, ?_, ?_, ?_, hraise⟩ <;> rw [hframe]
    · rfl
    · rfl
    · exact hcode
    · rfl
  case save =>
    have hreq : exec .requestRoost s = .next (hostPut 3 7 s) := exec_request .roost s
    have hserve : hostServe (.write 0x28 1) (lateTime s) = hostServe (.write 3 7) (lateTime s) := rfl
    rw [exec_roostSaveRequest, hreq, hostPut, hostPut, hostAccess_of_served h, hostAccess_of_served h, hserve,
      owlSees_roost_eq_request _ 1 7]

/-! ## Accesses that the AON answers (R53, R115, R117) -/

theorem exec_aonHostAccess (a : HostAccess) (s : State) :
    exec (.aonHostAccess a) s = .next (if !s.mode.inPor && aonAnswers s then aonAccess a s else s) := rfl

theorem exec_aonHostAccess_answered {s : State} (hpor : s.mode.inPor = false) (ha : aonAnswers s = true) (a : HostAccess) :
    exec (.aonHostAccess a) s = .next (aonAccess a s) := by
  rw [exec_aonHostAccess, if_pos (by simp [hpor, ha])]

theorem aonAnswers_of_dormant {s : State} (h : s.mode.code = .dormant) : aonAnswers s = true := by simp [aonAnswers, h]

/-- Outside the PD0 offsets the AON gives the blank answer. -/
theorem aonAccess_blank {a : HostAccess} {s : State} (hdormant : s.mode.code ≠ .dormant)
    (h : accessIdx a < 2 ∨ 16 ≤ accessIdx a) : aonAccess a s = hostBlank a s := by
  simp only [aonAccess, aonServe, if_neg hdormant]
  rw [if_neg (by omega)]

/-- A PD0 register is served, and beside it only the owl sees the access. -/
theorem aonAccess_pd0 {a : HostAccess} {s : State} (hdormant : s.mode.code ≠ .dormant)
    (h : 2 ≤ accessIdx a ∧ accessIdx a < 16) : ∃ o, aonAccess a s = (hostServe a s).setOwl o := by
  refine ⟨_, Eq.trans ?_ (owlSees_frame s.owl a (hostServe a s))⟩
  simp only [aonAccess, aonServe, if_neg hdormant, if_pos h]

theorem hostReadEffect_pd0 {i : Nat} (h : 2 ≤ i ∧ i < 16) (s : State) : hostReadEffect i s = setHd (aonRead s i) s := by
  have hread : hostRead s i = aonRead s i := if_pos h
  simp only [hostReadEffect, hread]
  rw [if_neg (by omega), if_neg (by omega), if_neg (by omega)]

theorem aonAccess_dormant {a : HostAccess} {s : State} (h : s.mode.code = .dormant) : aonAccess a s = wake (hostBlank a s) := by
  simp only [aonAccess, aonServe, if_pos h]

theorem hostBlank_frame (a : HostAccess) (s : State) :
    hostBlank a s = { s with
      host := { s.host with hd := if isRead a then 0 else s.host.hd }, owl := { s.owl with lastKick := false } } := by
  unfold hostBlank
  cases isRead a <;> rfl

/-- While DORMANT is being entered nothing wakes (log entry 73). -/
theorem wake_of_busy {s : State} (h : s.mode.busy = true) : wake s = s := by simp [wake, h]

/-- Settles O31: the blank answer, the PD0 registers, and in DORMANT a blank answer that wakes. -/
theorem aonAnswersForHostBus : Obligations.AonAnswersForHostBus := by
  refine ⟨fun a s h => ?silent, fun off s hpor ha hdormant => ⟨fun hoff => ⟨?blankRead, fun v => ?blankWrite⟩,
    fun hlo hhi => ⟨?read, fun v => ?write⟩, fun v => ?both⟩, fun a s hcode hpor => ?dormant⟩
  case silent => rw [exec_aonHostAccess, if_neg (by obtain h | h := h <;> simp [h])]
  case blankRead =>
    rw [exec_aonHostAccess_answered hpor ha, aonAccess_blank (a := .read off) hdormant hoff, hostBlank_frame]
    rfl
  case blankWrite =>
    rw [exec_aonHostAccess_answered hpor ha, aonAccess_blank (a := .write off v) hdormant hoff, hostBlank_frame]
    rfl
  case read =>
    obtain ⟨o, ho⟩ := aonAccess_pd0 (a := .read off) hdormant ⟨hlo, hhi⟩
    refine ⟨_, exec_aonHostAccess_answered hpor ha _, ?_⟩
    have hserve : hostServe (.read off) s = setHd (aonRead s off.val) s := hostReadEffect_pd0 ⟨hlo, hhi⟩ s
    rw [ho, hserve]
    exact ⟨rfl, rfl⟩
  case write =>
    obtain ⟨o, ho⟩ := aonAccess_pd0 (a := .write off v) hdormant ⟨hlo, hhi⟩
    refine ⟨_, exec_aonHostAccess_answered hpor ha _, ?_⟩
    have hserve : hostServe (.write off v) s = aonWrite off.val v s := if_pos ⟨hlo, hhi⟩
    rw [ho, hserve]
    rfl
  case both =>
    rw [exec_aonHostAccess_answered hpor ha, exec_aonHostAccess_answered hpor ha]
    rfl
  case dormant =>
    have hmode : (hostBlank a s).mode = s.mode := by rw [hostBlank_frame]
    have hhost : (hostBlank a s).host = { s.host with hd := if isRead a then 0 else s.host.hd } := by rw [hostBlank_frame]
    refine ⟨_, exec_aonHostAccess_answered hpor (aonAnswers_of_dormant hcode) a, ?_⟩
    rw [aonAccess_dormant hcode]
    cases hbusy : s.mode.busy
    · obtain ⟨hframe, hwake⟩ := wake_of_dormant (s := hostBlank a s) (hmode ▸ hcode) (hmode ▸ hbusy) (hmode ▸ hpor)
      have hraised := raised_mode_wake (s := hostBlank a s) (hmode ▸ hcode) (hmode ▸ hbusy) (hmode ▸ hpor)
      have hhd : (wake (hostBlank a s)).host.hd = if isRead a then 0 else s.host.hd := by rw [hframe, hhost]; rfl
      refine ⟨fun h => by rw [hhd, if_pos h], fun h => by rw [hhd, if_neg (by simp [h])], fun _ => ⟨?_, ?_, ?_, hraised⟩,
        by simp⟩ <;> rw [hwake]
    · rw [wake_of_busy (hmode ▸ hbusy), hostBlank_frame]
      exact ⟨fun h => if_pos h, fun h => if_neg (by simp [h]), by simp, fun _ => ⟨rfl, rfl⟩⟩

end Sys2Proof.Machine

/-! SUPPORT. What a mode entry carries through (R37, R90, Table 2.4): the gate actions of its domains leave the mode, the
head role, the epochs, the memories and the roost as they are, and raise causes without losing one. -/

namespace Sys2Proof.Machine

/-- CHN beside the timing ring and what was heard last on each ring, which a port that goes down changes (R107, R186). -/
def Chn.standing (c : Chn) : Chn := { c with last := ({} : Chn).last, tring := false }

/-- What every action of a mode entry leaves as it is: the mode, the memories, the queue and the roost store. -/
def State.stay (s : State) : ModeCtl × Mem × List Instr × Cells 72 := (s.mode, s.mem, s.pending, s.ros.store)

/-- What its gate actions leave besides: the position, the head role, the epochs and the roost. -/
def State.core (s : State) : ModeCtl × Mem × List Instr × Ros × Chn × Head × Epoch :=
  (s.mode, s.mem, s.pending, s.ros, s.chn.standing, s.head, s.epoch)

/-- No raised cause is lost. -/
def KeepsRaised (s t : State) : Prop := ∀ c, raised c s = true → raised c t = true

/-- From `s` to `t` the core is as it was, and no raised cause is lost. -/
structure Carries (s t : State) : Prop where
  core : t.core = s.core
  raised : KeepsRaised s t

theorem Carries.refl (s : State) : Carries s s := ⟨rfl, fun _ h => h⟩

theorem Carries.trans {s u t : State} (h : Carries s u) (g : Carries u t) : Carries s t :=
  ⟨g.core.trans h.core, fun c hc => g.raised c (h.raised c hc)⟩

/-- A change outside the core and the causes. -/
theorem Carries.of_eq {s t : State} (hcore : t.core = s.core) (hisr : t.host.isr = s.host.isr) : Carries s t :=
  ⟨hcore, fun c hc => by rw [Machine.raised, hisr]; exact hc⟩

theorem Carries.stay {s t : State} (h : Carries s t) : t.stay = s.stay := by
  have hcore := h.core
  simp only [State.core, Prod.mk.injEq] at hcore
  obtain ⟨hmode, hmem, hpending, hros, -⟩ := hcore
  simp [State.stay, hmode, hmem, hpending, hros]

theorem foldl_carries {α : Type} {a s : State} (h : Carries a s) (f : State → α → State) (l : List α)
    (hf : ∀ t, ∀ i ∈ l, Carries a t → Carries a (f t i)) : Carries a (l.foldl f s) := by
  induction l generalizing s with
  | nil => exact h
  | cons i l ih => exact ih (hf s i (by simp) h) fun t j hj => hf t j (by simp [hj])

section

variable {a s : State} (h : Carries a s)

include h

/-! ## Causes, clocks and ports -/

theorem raiseWith_carries (c : Cause) (w : Word) (pb : Option Nat) : Carries a (raiseWith c w pb s) :=
  h.trans ⟨rfl, (raiseWith_raises c w pb s).2⟩

theorem when_carries {b : Bool} {f : State → State} (hf : Carries a (f s)) : Carries a (when b f s) := by
  unfold when
  split
  · exact hf
  · exact h

theorem setCkp_carries (c : Ckp) (r : Bool) : Carries a (setCkp c r s) :=
  have hset : Carries a { s with ckp := c } := h.trans (.of_eq rfl rfl)
  when_carries hset (raiseWith_carries hset _ _ _)

theorem redecideRef_carries : Carries a (redecideRef s) := setCkp_carries h _ _

theorem modPort_carries (p : PortIdx) (f : LanePort → LanePort) : Carries a (modPort p f s) := h.trans (.of_eq rfl rfl)

theorem moveTo_carries (p : PortIdx) (st : PortState) : Carries a (moveTo p st s) := by
  unfold moveTo
  split
  · exact h
  · cases st
    · exact raiseWith_carries (modPort_carries (modPort_carries h _ _) _ _) _ _ _
    · exact raiseWith_carries (modPort_carries h _ _) _ _ _
    · exact raiseWith_carries (modPort_carries (modPort_carries h _ _) _ _) _ _ _
    · exact raiseWith_carries (modPort_carries (modPort_carries (modPort_carries h _ _) _ _) _ _) _ _ _

theorem portDefect_carries (p : PortIdx) (cause : BitVec 3) (f : LanePort → LanePort) :
    Carries a (portDefect p cause f s) := by
  unfold portDefect
  extract_lets q st first s1 s2 dest s3
  have h1 : Carries a s1 := modPort_carries h p f
  have h3 : Carries a s3 := moveTo_carries (modPort_carries h1 _ _) _ _
  clear_value s3 s1
  split
  · split
    · exact moveTo_carries h1 _ _
    · exact h1
  · split
    · exact moveTo_carries h3 _ _
    · exact moveTo_carries h3 _ _
    · exact h3

theorem clockDies_carries (k : Clk) : Carries a (clockDies k s) := by
  unfold clockDies
  split
  · exact h
  · split
    · exact h.trans (.of_eq rfl rfl)
    · exact setCkp_carries h _ _

theorem stopTap_carries (n : Nat) : Carries a (stopTap n s) := by
  unfold stopTap
  split
  · exact redecideRef_carries (h.trans (.of_eq rfl rfl))
  · exact h

theorem stopLane_carries (n : Nat) : Carries a (stopLane n s) := by
  unfold stopLane
  split
  · next p l _ =>
    extract_lets q t
    have ht : Carries a t := portDefect_carries h q 6 _
    clear_value t
    split
    · exact ht
    · exact clockDies_carries ht _
  · exact h

/-! ## The close of a domain (R95-R102) -/

theorem modK_carries (k : Nat) (f : Kestrel → Kestrel) : Carries a (modK k f s) := h.trans (.of_eq rfl rfl)

theorem vacateMove_carries (e : Nat) : Carries a (vacateMove e s) := by
  unfold vacateMove
  extract_lets moves moved lost x0 x v m s1
  have h1 : Carries s s1 := .of_eq rfl rfl
  clear_value lost s1
  refine foldl_carries (h.trans h1) _ lost fun t i _ ht => ?_
  split
  · exact ht.trans (.of_eq rfl rfl)
  · exact ht

theorem beginVacate_carries (e : Nat) : Carries a (beginVacate e s) := by
  unfold beginVacate
  split
  · exact h.trans (.of_eq rfl rfl)
  · refine vacateMove_carries ?_ e
    exact h.trans (.of_eq rfl rfl)

theorem leaveEpochWait_carries : Carries a (leaveEpochWait s) := by
  unfold leaveEpochWait
  split
  · split
    · exact beginVacate_carries h _
    · exact h
  · exact h

theorem gateCloses_down_carries (n : Nat) : Carries a (gateCloses .down n s) := by
  unfold gateCloses
  extract_lets s1 s2
  have h1 : Carries a s1 := by
    unfold s1
    split
    · exact modK_carries h _ _
    · exact h
  have h2 : Carries a s2 := stopTap_carries (stopLane_carries h1 n) n
  clear_value s2
  split
  · exact h2.trans (.of_eq rfl rfl)
  · split
    · exact h2.trans (.of_eq rfl rfl)
    · exact h2

theorem startClose_down_carries (r : Requester) (n : Fin 67) : Carries a (startClose .down r n s) := by
  unfold startClose
  extract_lets g s1
  have h1 : Carries a s1 := h.trans (.of_eq rfl rfl)
  clear_value s1
  split
  · split
    · exact h1.trans (.of_eq rfl rfl)
    · exact beginVacate_carries h1 _
  · exact gateCloses_down_carries h1 _

/-! ## The commands of a mode entry (R90) -/

theorem gateResult_carries (res : BitVec 4) (c : GateCmd) (r : Requester) (n : Fin 67) :
    Carries a (gateResult res c r n s) := by
  unfold gateResult raise
  refine raiseWith_carries ?_ _ _ _
  exact h.trans (.of_eq rfl rfl)

theorem gateOpens_carries (n : Nat) : Carries a (gateOpens n s) := by
  unfold gateOpens reachOn
  split
  · exact redecideRef_carries h
  · split <;> exact h.trans (.of_eq rfl rfl)

/-- DOWN and UP, which are all that a mode entry gives. -/
theorem gateAct_carries {c : GateCmd} (hc : c = .down ∨ c = .up) (r : Requester) (n : Fin 67) :
    Carries a (gateAct c r n s) := by
  unfold gateAct
  generalize pdState s n = p
  obtain rfl | rfl := hc
  · cases p <;> dsimp only
    · exact gateResult_carries h _ _ _ _
    · exact startClose_down_carries h _ _
    · exact h.trans (.of_eq rfl rfl)
    · exact h
  · cases p <;> dsimp only
    · exact h.trans (.of_eq rfl rfl)
    · exact gateResult_carries h _ _ _ _
    · refine gateResult_carries (gateOpens_carries ?_ _) _ _ _ _
      exact h.trans (.of_eq rfl rfl)
    · exact h

end

/-! ## The entry's domains, one after the other -/

/-- An entry gives DOWN and UP only (R90). -/
theorem cmd_of_mem_entryTodo {s : State} {c : GateCmd × Fin 67} (hc : c ∈ entryTodo s) : c.1 = .down ∨ c.1 = .up := by
  unfold entryTodo at hc
  extract_lets ups downs at hc
  have hups : c ∈ ups → c.1 = .down ∨ c.1 = .up := fun hm => by
    obtain ⟨n, -, rfl⟩ := List.mem_map.mp hm
    exact .inr rfl
  have hdowns (q : Nat → Bool) : c ∈ downs q → c.1 = .down ∨ c.1 = .up := fun hm => by
    obtain ⟨n, -, rfl⟩ := List.mem_map.mp hm
    exact .inl rfl
  split at hc
  · exact absurd hc List.not_mem_nil
  · split at hc
    · split at hc
      · exact hdowns _ hc
      · exact absurd hc List.not_mem_nil
    · split at hc
      · exact hdowns _ hc
      · exact absurd hc List.not_mem_nil
    · split at hc
      · exact absurd hc List.not_mem_nil
      · exact hups hc
    · split at hc
      · exact absurd hc List.not_mem_nil
      · exact hups hc
    · split at hc
      · exact absurd hc List.not_mem_nil
      · exact hups hc
    · exact hdowns (fun x => x != 0) hc
    · exact absurd hc List.not_mem_nil

theorem entryLast_carries {a s : State} (h : Carries a s) : Carries a (entryLast s) := by
  unfold entryLast
  extract_lets s1
  have h1 : Carries a s1 := by
    unfold s1
    split
    · exact h.trans (.of_eq rfl rfl)
    · exact h
  clear_value s1
  split
  · split
    · exact h1
    · exact h1.trans (.of_eq rfl rfl)
  · exact h1.trans (.of_eq rfl rfl)
  · exact h1

theorem entryGoes_carries {a s : State} (h : Carries a s) : Carries a (entryGoes s) := by
  unfold entryGoes
  split
  · extract_lets t
    have ht : Carries a t := by
      refine foldl_carries h _ _ fun u c hc hu => ?_
      split
      · exact hu
      · exact gateAct_carries hu (cmd_of_mem_entryTodo hc) _ _
    clear_value t
    split
    · exact entryLast_carries ht
    · exact ht
  · exact h

/-! ## Entering a mode (R37, Table 2.4) -/

theorem KeepsRaised.of_isr {s t : State} (h : t.host.isr = s.host.isr) : KeepsRaised s t := fun c hc => by
  rw [raised, h]; exact hc

theorem raise_stay (c : Cause) (s : State) : (raise c s).stay = s.stay ∧ KeepsRaised s (raise c s) :=
  ⟨rfl, (raise_raises c s).2⟩

theorem takeRole_stay (src : ModeSrc) (s : State) : (takeRole src s).stay = s.stay ∧ KeepsRaised s (takeRole src s) := by
  unfold takeRole
  split
  · unfold when
    split
    · exact raise_stay _ _
    · exact ⟨rfl, fun _ hc => hc⟩
  · split
    · exact raise_stay _ _
    · exact ⟨rfl, fun _ hc => hc⟩

theorem entryActions_stay (f m : Mode) (src : ModeSrc) (s : State) :
    (entryActions f m src s).stay = s.stay ∧ KeepsRaised s (entryActions f m src s) := by
  have hsame : ∀ t : State, t.stay = s.stay → t.host.isr = s.host.isr → t.stay = s.stay ∧ KeepsRaised s t :=
    fun t hstay hisr => ⟨hstay, .of_isr hisr⟩
  unfold entryActions
  split
  · exact takeRole_stay src { quiet (hoodMode s) with chn := { s.chn with mustering := true } }
  · exact hsame _ rfl rfl
  · split <;> exact hsame _ rfl rfl
  · exact hsame _ rfl rfl
  · exact hsame _ rfl rfl

/-- HB_MODE at the trigger of a transition to `m` (R37, log entry 28). -/
def ModeCtl.entering (x : ModeCtl) (m : Mode) (src : ModeSrc) : ModeCtl :=
  { x with code := m, busy := true, tsrc := src, from_ := x.code, done := x.done || x.code == .boot }

/-- The state in which the entry actions act. -/
def atTrigger (m : Mode) (src : ModeSrc) (s : State) : State :=
  { s with
    mode := s.mode.entering m src
    ecc := if s.mode.code = .service then { s.ecc with flipctl := setBit s.ecc.flipctl 31 false } else s.ecc }

/-- What the domains of the entry carry through: the entry's actions at the trigger. -/
theorem enterMode_carries (m : Mode) (src : ModeSrc) (s : State) :
    Carries (entryActions s.mode.code m src (atTrigger m src s)) (enterMode m src s) :=
  entryGoes_carries (redecideRef_carries (.refl _))

theorem enterMode_spec (m : Mode) (src : ModeSrc) (s : State) :
    (enterMode m src s).mode = s.mode.entering m src ∧ (enterMode m src s).mem = s.mem ∧
      (enterMode m src s).pending = s.pending ∧ (enterMode m src s).ros.store = s.ros.store ∧
      KeepsRaised s (enterMode m src s) := by
  obtain ⟨hactions, hraised⟩ := entryActions_stay s.mode.code m src (atTrigger m src s)
  have hstay := (enterMode_carries m src s).stay.trans hactions
  simp only [State.stay, Prod.mk.injEq] at hstay
  obtain ⟨hmode, hmem, hpending, hstore⟩ := hstay
  exact ⟨hmode, hmem, hpending, hstore, fun c hc => (enterMode_carries m src s).raised c (hraised c hc)⟩

@[simp] theorem enterMode_mode (m : Mode) (src : ModeSrc) (s : State) : (enterMode m src s).mode = s.mode.entering m src :=
  (enterMode_spec m src s).1

/-! ## The end of BOOT (R56) -/

/-- Settles O14: every way out of `leaveBoot` is `enterMode`, which leaves the mode that it is given. -/
theorem leavingBootChoosesMode : Obligations.LeavingBootChoosesMode := by
  refine fun s hcode => ⟨fun hp => ?held, fun hp hring => ?muster, fun hp hring hlook => ?solo, fun hp hring hlook => ?waits⟩
  case held =>
    rw [leaveBoot, if_pos hp, enterMode_mode, setResult_mode]
    exact ⟨rfl, rfl⟩
  case muster =>
    rw [leaveBoot, if_neg (by simp [hp]), if_pos hring, enterMode_mode]
    rfl
  case solo =>
    rw [leaveBoot, if_neg (by simp [hp]), if_neg (by simp [hring]), if_pos hlook, enterMode_mode]
    rfl
  case waits =>
    rw [leaveBoot, if_neg (by simp [hp]), if_neg (by simp [hring]), if_neg (by simp [hlook])]

end Sys2Proof.Machine

/-! SUPPORT. Mode requests, transitions and the save (R31-R42, R57, R402-R404), each from what entering a mode leaves. -/

namespace Sys2Proof.Machine

/-- A code in three bits is that of its mode (Table 1.5). -/
theorem Mode.ofNum_pcode {c : Mode} {v : BitVec 3} (h : v = BitVec.ofNat 3 c.num) : Mode.ofNum v.toNat = c := by
  subst h
  cases c <;> rfl

theorem KeepsRaised.trans {s u t : State} (h : KeepsRaised s u) (g : KeepsRaised u t) : KeepsRaised s t :=
  fun c hc => g c (h c hc)

/-! ## Entering ROOST (R41, R402) -/

/-- The state at the entry to ROOST, before a close that waited for the migration goes on and the reference is decided
anew. -/
def atRoost (req : Bool) (src : ModeSrc) (s : State) : State :=
  let s1 := when (s.mode.pend || s.mode.mgmtReq.isSome) (setResult 2) s
  { s1 with
    mode := { s1.mode with code := .roost, busy := true, tsrc := src, from_ := s.mode.code, pend := false, mgmtReq := none
                           held := [], saveReq := req, saveFrom := s.mode.code, saveTime := s.chn.ctime, captured := false }
    epoch := { s1.epoch with mig := false, snap := false, held := false }
    drv := { s1.drv with liftAtFrame := false }
    ecc := { s1.ecc with flipctl := setBit s1.ecc.flipctl 31 false } }

theorem enterRoost_eq (req : Bool) (src : ModeSrc) (s : State) :
    enterRoost req src s = redecideRef (leaveEpochWait (atRoost req src s)) := rfl

theorem enterRoost_carries (req : Bool) (src : ModeSrc) (s : State) : Carries (atRoost req src s) (enterRoost req src s) :=
  redecideRef_carries (leaveEpochWait_carries (.refl _))

/-- What entering ROOST leaves of the core: the mode as `atRoost` set it, no migration, the memories and the queue. -/
theorem enterRoost_spec (req : Bool) (src : ModeSrc) (s : State) :
    (enterRoost req src s).mode = { s.mode with
      code := .roost, busy := true, tsrc := src, from_ := s.mode.code, pend := false, mgmtReq := none, held := []
      saveReq := req, saveFrom := s.mode.code, saveTime := s.chn.ctime, captured := false
      result := if s.mode.pend || s.mode.mgmtReq.isSome then 2 else s.mode.result } ∧
    (enterRoost req src s).epoch.mig = false ∧ (enterRoost req src s).mem = s.mem ∧
    (enterRoost req src s).pending = s.pending ∧ KeepsRaised s (enterRoost req src s) := by
  obtain ⟨hframe, -, -, hkeep⟩ := when_setResult_spec (s.mode.pend || s.mode.mgmtReq.isSome) 2 s
  have hcore := (enterRoost_carries req src s).core
  have hraised := (enterRoost_carries req src s).raised
  simp only [State.core, Prod.mk.injEq] at hcore
  obtain ⟨hmode, hmem, hpending, -, -, -, hepoch⟩ := hcore
  refine ⟨?_, ?_, ?_, ?_, fun c hc => hraised c (hkeep c hc)⟩
  · rw [hmode, atRoost, hframe]
  · rw [hepoch, atRoost]
  · rw [hmem, atRoost, hframe]
  · rw [hpending, atRoost, hframe]

/-! ## An evaluated request (R39, Table 2.3) -/

/-- The RESULT of a request for code `c` (R39). -/
def verdict (s : State) (c : Mode) : BitVec 2 := if admits s c then 1 else 2

/-- A refused request, and one for the present mode, only sets RESULT. -/
theorem evalRequest_stays {c : Mode} {s : State} (h : admits s c = false ∨ c = s.mode.code) (src : ModeSrc) :
    evalRequest c src s = setResult (verdict s c) s := by
  unfold evalRequest verdict
  split
  · next ha =>
    have hc : c = (setResult 1 s).mode.code := by
      rw [setResult_mode]
      exact h.resolve_left (by simp [ha])
    exact if_pos hc
  · rfl

/-- An accepted request for another mode starts its transition; the other fields of HB_MODE are as they were. -/
theorem evalRequest_starts {c : Mode} {s : State} (h : admits s c = true) (hne : c ≠ s.mode.code) (src : ModeSrc)
    (hpend : s.mode.pend = false) (hreq : s.mode.mgmtReq = none) :
    (evalRequest c src s).mode.code = c ∧ (evalRequest c src s).mode.busy = true ∧
      (evalRequest c src s).mode.from_ = s.mode.code ∧ (evalRequest c src s).mode.tsrc = src ∧
      (evalRequest c src s).mode.pend = false ∧ (evalRequest c src s).mode.mgmtReq = none ∧
      (evalRequest c src s).mode.result = 1 ∧ KeepsRaised (setResult 1 s) (evalRequest c src s) := by
  have hcode : (setResult 1 s).mode.code = s.mode.code := by rw [setResult_mode]
  rw [evalRequest, if_pos h]
  dsimp only
  rw [hcode, if_neg hne]
  split
  · next hc =>
    obtain ⟨hmode, -, -, -, hkeep⟩ := enterRoost_spec true src (setResult 1 s)
    rw [hmode, setResult_mode]
    exact ⟨hc.symm, rfl, rfl, rfl, rfl, rfl, if_neg (by simp [hpend, hreq]), hkeep⟩
  · obtain ⟨hmode, -, -, -, hkeep⟩ := enterMode_spec c src (setResult 1 s)
    split <;> simp only [hmode, setResult_mode] <;>
      exact ⟨rfl, rfl, rfl, rfl, hpend, hreq, rfl, hkeep⟩

/-- Evaluation ends with its verdict in RESULT and no request pending, and raises what setting RESULT raises. -/
theorem evalRequest_result (c : Mode) (src : ModeSrc) {s : State} (hpend : s.mode.pend = false)
    (hreq : s.mode.mgmtReq = none) :
    (evalRequest c src s).mode.pend = false ∧ (evalRequest c src s).mode.mgmtReq = none ∧
      (evalRequest c src s).mode.result = verdict s c ∧
      (s.mode.result ≠ verdict s c → raised .mode (evalRequest c src s) = true) := by
  obtain ⟨-, hraise, -⟩ := setResult_spec (verdict s c) s
  by_cases h : admits s c = false ∨ c = s.mode.code
  · rw [evalRequest_stays h, setResult_mode]
    exact ⟨hpend, hreq, rfl, hraise⟩
  · rw [not_or, Bool.not_eq_false] at h
    obtain ⟨ha, hne⟩ := h
    obtain ⟨-, -, -, -, hpend, hreq, hres, hkeep⟩ := evalRequest_starts ha hne src hpend hreq
    have hv : verdict s c = 1 := if_pos ha
    rw [hv] at hraise ⊢
    exact ⟨hpend, hreq, hres, fun hr => hkeep _ (hraise hr)⟩

/-- Whether a request is admitted is a matter of the mode, of CDR lock and of the SHOW condition (Table 2.3). -/
theorem admits_congr {s t : State} (hcode : t.mode.code = s.mode.code) (hlanes : t.lanes = s.lanes) (hchn : t.chn = s.chn)
    (c : Mode) : admits t c = admits s c := by
  simp only [admits, showCondition, anyLock, hcode, hlanes, hchn]

/-! ## The pending request (R39, R40, R57) -/

theorem exec_modeRequestEval (s : State) : exec .modeRequestEval s = .next (evalPending s) := rfl

/-- No request is pending any more. -/
def noRequest (s : State) : State := { s with mode := { s.mode with mgmtReq := none, pend := false } }

/-- The state in which a request of source `src` is evaluated: a management request displaces a host request, which ends
SUPERSEDED (R40). -/
def atEval (src : ModeSrc) (s : State) : State := when (src == .mgmt && s.mode.pend) (setResult 3) (noRequest s)

theorem evalPending_of_request {c : Mode} {src : ModeSrc} {s : State} (hrun : s.mode.code.running = true)
    (hbusy : s.mode.busy = false) (hpor : s.mode.inPor = false)
    (h : (src = .mgmt ∧ s.mode.mgmtReq = some (BitVec.ofNat 3 c.num)) ∨
      (src = .host ∧ s.mode.mgmtReq = none ∧ s.mode.pend = true ∧ s.mode.pcode = BitVec.ofNat 3 c.num)) :
    evalPending s = evalRequest c src (atEval src s) := by
  have hcodes : s.mode.code ≠ .boot ∧ s.mode.code ≠ .dormant ∧ s.mode.code ≠ .roost := by
    refine ⟨?_, ?_, ?_⟩ <;> (intro h; rw [h] at hrun; exact absurd hrun (by decide))
  obtain ⟨hboot, hdormant, hroost⟩ := hcodes
  rw [evalPending, if_neg (by simp [hbusy, hpor, hdormant, hroost]), if_neg hboot]
  obtain ⟨rfl, hreq⟩ | ⟨rfl, hreq, hpend, hpcode⟩ := h
  · rw [hreq]
    dsimp only
    rw [Mode.ofNum_pcode rfl]
    rfl
  · have hclear : noRequest s = { s with mode := { s.mode with pend := false } } := by rw [noRequest, ← hreq]
    have heval : atEval .host s = noRequest s := rfl
    rw [heval, hclear, hreq]
    dsimp only
    rw [if_pos hpend, Mode.ofNum_pcode hpcode]

theorem atEval_spec (src : ModeSrc) (s : State) :
    atEval src s = { s with
      mode := { s.mode with
        mgmtReq := none, pend := false, result := if src == .mgmt && s.mode.pend then 3 else s.mode.result }
      host := (atEval src s).host } := (when_setResult_spec _ 3 (noRequest s)).1

/-- Without a request, and while no request can be evaluated, nothing happens. -/
theorem evalPending_waits {s : State}
    (h : (s.mode.pend = false ∧ s.mode.mgmtReq = none) ∨ s.mode.busy = true ∨ s.mode.code = .dormant ∨
      s.mode.code = .roost ∨ (s.mode.code = .boot ∧ s.mode.step ≠ 5)) : evalPending s = s := by
  obtain ⟨hpend, hreq⟩ | h | h | h | ⟨hcode, hstep⟩ := h
  · simp [evalPending, hpend, hreq]
  · simp [evalPending, h]
  · simp [evalPending, h]
  · simp [evalPending, h]
  · have hstep' : ¬(s.mode.pend = true ∧ s.mode.step = 5) := fun h => hstep h.2
    rw [evalPending, if_pos hcode, if_neg hstep', ite_self]

/-- In RINGWAIT a held request is evaluated at once (log entry 29). -/
theorem evalPending_ringwait {s : State} (hcode : s.mode.code = .boot) (hbusy : s.mode.busy = false)
    (hpor : s.mode.inPor = false) (hstep : s.mode.step = 5) (hpend : s.mode.pend = true) :
    evalPending s = enterMode (Mode.ofNum s.mode.pcode.toNat) .host
      (setResult 1 { s with mode := { s.mode with pend := false } }) := by
  simp [evalPending, hcode, hbusy, hpor, hstep, hpend]

/-- Settles O16: the request is evaluated in `atEval`, where it starts its transition (`evalRequest_starts`) or only sets
RESULT (`evalRequest_stays`). -/
theorem pendingRequestIsEvaluated : Obligations.PendingRequestIsEvaluated := by
  refine ⟨fun c src s hrun hbusy hpor h => ?request, fun s hpend hreq => ?none, fun s h => ?waits,
    fun s hcode hbusy hpor => ⟨fun hstep => ?boot, fun hstep hpend => ?ringwait⟩⟩
  case request =>
    refine ⟨_, exec_modeRequestEval s, ?_⟩
    rw [evalPending_of_request hrun hbusy hpor h]
    have hframe := atEval_spec src s
    generalize atEval src s = u at hframe ⊢
    have hadm : admits u c = admits s c := admits_congr (by rw [hframe]) (by rw [hframe]) (by rw [hframe]) c
    have hverdict : verdict u c = if admits s c then 1 else 2 := by rw [verdict, hadm]
    have hcode : u.mode.code = s.mode.code := by rw [hframe]
    have hresult : u.mode.result = if src == .mgmt && s.mode.pend then 3 else s.mode.result := by rw [hframe]
    have hnone : u.mode.pend = false ∧ u.mode.mgmtReq = none := by rw [hframe]; exact ⟨rfl, rfl⟩
    obtain ⟨hpend, hreq, hres, hraise⟩ := evalRequest_result c src hnone.1 hnone.2
    refine ⟨hpend, hreq, hres.trans hverdict, fun hc => hraise ?_, fun ha hne => ?_, fun hstays => ?_⟩
    · rw [hresult]
      split
      · rw [hverdict]
        split <;> decide
      · next hnot => exact fun he => hc.elim (fun hne => hne (hres.trans he.symm)) fun ⟨hs, hp⟩ => hnot (by simp [hs, hp])
    · obtain ⟨htcode, htbusy, hfrom, htsrc, -⟩ :=
        evalRequest_starts (hadm.trans ha) (by rw [hcode]; exact hne) src hnone.1 hnone.2
      exact ⟨htcode, htbusy, hfrom.trans hcode, htsrc⟩
    · rw [evalRequest_stays (by rw [hadm, hcode]; exact hstays), setResult_mode]
      exact ⟨hcode, by rw [hframe]; exact hbusy, by rw [(setResult_spec _ u).1, hframe]⟩
  case none => rw [exec_modeRequestEval, evalPending_waits (.inl ⟨hpend, hreq⟩)]
  case waits => rw [exec_modeRequestEval, evalPending_waits (.inr (by tauto))]
  case boot => rw [exec_modeRequestEval, evalPending_waits (.inr (.inr (.inr (.inr ⟨hcode, hstep⟩))))]
  case ringwait =>
    refine ⟨_, exec_modeRequestEval s, ?_⟩
    rw [evalPending_ringwait hcode hbusy hpor hstep hpend]
    simp only [enterMode_mode, setResult_mode]
    exact ⟨rfl, rfl, rfl, rfl⟩

/-! ## The end of a transition (R37, R39) -/

theorem exec_modeTransitionDone (s : State) :
    exec .modeTransitionDone s = .next (if s.mode.busy && !entryWaits s then transitionDone s else s) := rfl

/-- With its actions done an entry has no domain to switch any more. -/
theorem entryTodo_of_done {s : State} (h : entryWaits s = false) : entryTodo s = [] := by
  simp only [entryWaits, Bool.or_eq_false_iff, Bool.not_eq_false', List.isEmpty_iff] at h
  exact h.1.2

/-- No domain that `q` picks is left to switch to the state `x`. -/
theorem all_pd_of_filter_nil {s : State} {q : Nat → Bool} {x : PdState} {l : List (Fin 67)} (hl : ∀ n, n ∈ l)
    (h : (l.filter fun n => q n.val && s.gate.pd[n] != x) = []) (n : Fin 67) (hn : q n.val = true) : s.gate.pd[n] = x := by
  have hnot := List.filter_eq_nil_iff.mp h n (hl n)
  simpa [hn] using hnot

/-- An entry to SHOW, SOLO or SERVICE ends with the mode domains ON (R90). -/
theorem all_on_of_entryTodo {s : State} (hbusy : s.mode.busy = true)
    (hcode : s.mode.code = .show ∨ s.mode.code = .solo ∨ s.mode.code = .service) (hfrom : s.mode.from_.active = false)
    (h : entryTodo s = []) (n : Fin 67) (hn : modeDomain n = true) : s.gate.pd[n] = .on := by
  have hups : (((List.finRange 67).filter fun n => modeDomain n.val && s.gate.pd[n] != .on).map fun n =>
      (GateCmd.up, n)) = [] := by
    rw [← h]
    obtain hc | hc | hc := hcode <;> simp [entryTodo, hbusy, hc, hfrom]
  exact all_pd_of_filter_nil List.mem_finRange (List.map_eq_nil_iff.mp hups) n hn

/-- An entry to MUSTER or RELAY from a mode that had them up ends with the mode domains OFF. -/
theorem all_off_of_entryTodo {s : State} (hbusy : s.mode.busy = true)
    (hcode : s.mode.code = .muster ∨ s.mode.code = .relay) (hfrom : s.mode.from_.active = true)
    (h : entryTodo s = []) (n : Fin 67) (hn : modeDomain n = true) : s.gate.pd[n] = .off := by
  have hdowns : (((List.finRange 67).reverse.filter fun n => modeDomain n.val && s.gate.pd[n] != .off).map fun n =>
      (GateCmd.down, n)) = [] := by
    rw [← h]
    obtain hc | hc := hcode <;> simp [entryTodo, hbusy, hc, hfrom]
  exact all_pd_of_filter_nil (by simp) (List.map_eq_nil_iff.mp hdowns) n hn

/-- An entry to DORMANT ends with every domain but PD0 OFF. -/
theorem all_off_of_dormant {s : State} (hbusy : s.mode.busy = true) (hcode : s.mode.code = .dormant)
    (h : entryTodo s = []) (n : Fin 67) (hn : n.val ≠ 0) : s.gate.pd[n] = .off := by
  have hdowns : (((List.finRange 67).reverse.filter fun n => (n.val != 0) && s.gate.pd[n] != .off).map fun n =>
      (GateCmd.down, n)) = [] := by
    rw [← h]
    simp [entryTodo, hbusy, hcode]
  exact all_pd_of_filter_nil (q := fun n => n != 0) (by simp) (List.map_eq_nil_iff.mp hdowns) n (by simpa using hn)

/-- What held triggers leave: SRC, the memories, the queue and every raised cause. -/
def Rides (s t : State) : Prop :=
  t.mode.src = s.mode.src ∧ t.mem = s.mem ∧ t.pending = s.pending ∧ KeepsRaised s t

theorem Rides.refl (s : State) : Rides s s := ⟨rfl, rfl, rfl, fun _ h => h⟩

theorem Rides.trans {s u t : State} (h : Rides s u) (g : Rides u t) : Rides s t := by
  obtain ⟨hsrc, hmem, hpending, hkeep⟩ := h
  obtain ⟨gsrc, gmem, gpending, gkeep⟩ := g
  exact ⟨gsrc.trans hsrc, gmem.trans hmem, gpending.trans hpending, hkeep.trans gkeep⟩

theorem enterMode_rides (m : Mode) (src : ModeSrc) (s : State) : Rides s (enterMode m src s) := by
  obtain ⟨hmode, hmem, hpending, -, hkeep⟩ := enterMode_spec m src s
  exact ⟨by rw [hmode]; rfl, hmem, hpending, hkeep⟩

theorem trigger_rides (x : Trigger) (s : State) : Rides s (trigger x s) := by
  unfold trigger takeTrigger
  split
  · exact Rides.refl s
  · split
    · exact enterMode_rides _ _ s
    · exact enterMode_rides _ _ s
    · exact enterMode_rides _ _ s
    · exact enterMode_rides _ _ s
    · split
      · exact enterMode_rides _ _ s
      · exact Rides.refl s
    · exact Rides.refl s

theorem heldTriggers_rides (s : State) : Rides s (heldTriggers s) := by
  have hfold (l : List Trigger) (p : Trigger → Bool) (t : State) (h : Rides s t) :
      Rides s (l.foldl (fun t x => if p x then trigger x t else t) t) := by
    induction l generalizing t with
    | nil => exact h
    | cons x l ih =>
      refine ih _ ?_
      dsimp only
      split
      · exact h.trans (trigger_rides x t)
      · exact h
  exact hfold _ (fun x => s.mode.held.contains x) _ (Rides.refl s)

theorem heldTriggers_of_none {s : State} (h : s.mode.held = []) : heldTriggers s = s := by
  have hclear : ({ s with mode := { s.mode with held := [] } } : State) = s := by rw [← h]
  simp [heldTriggers, h, hclear]

theorem heldTriggers_of_one {x : Trigger} {s : State} (h : s.mode.held = [x]) :
    heldTriggers s = trigger x { s with mode := { s.mode with held := [] } } := by
  cases x <;> simp [heldTriggers, h]

/-- The state in which what waited for BUSY acts (R39, R262). -/
def atEntryEnd (s : State) : State :=
  acceptHeld (raise .mode { s with
    mode := { s.mode with busy := false, src := s.mode.tsrc }
    drv := { s.drv with modeHood := s.drv.modeHood && !(s.mode.code == .show || s.mode.code == .solo) } })

theorem transitionDone_eq (s : State) : transitionDone s = heldTriggers (atEntryEnd s) := rfl

theorem atEntryEnd_frame (s : State) :
    atEntryEnd s = { s with
      mode := { s.mode with busy := false, src := s.mode.tsrc }
      drv := { s.drv with modeHood := s.drv.modeHood && !(s.mode.code == .show || s.mode.code == .solo) }
      host := setIsr Cause.mode.num s.host
      epoch := (atEntryEnd s).epoch } ∧
    (s.epoch.held = false ∨ s.epoch.mig = true → (atEntryEnd s).epoch = s.epoch) := by
  unfold atEntryEnd
  rw [raise_of_unlogged rfl rfl]
  unfold acceptHeld
  split
  · next h =>
    refine ⟨rfl, fun hno => absurd h ?_⟩
    simp only [State.setHost_epoch]
    obtain hno | hno := hno <;> simp [hno]
  · exact ⟨rfl, fun _ => rfl⟩

theorem trigger_of_free {s : State} (h : s.mode.busy = false) (x : Trigger) : trigger x s = takeTrigger x s :=
  if_neg (by simp [h])

/-- The triggers of the ring, each with the modes that it leaves and enters (Table 2.2). -/
def ringMoves : List (Trigger × Mode × Mode) :=
  [(.lost, .muster, .relay), (.lost, .show, .relay), (.remuster, .relay, .muster), (.remuster, .show, .muster)]

theorem takeTrigger_ring {x : Trigger × Mode × Mode} (hx : x ∈ ringMoves) {s : State} (h : s.mode.code = x.2.1) :
    takeTrigger x.1 s = enterMode x.2.2 .ring s := by
  simp only [ringMoves, List.mem_cons, List.not_mem_nil, or_false] at hx
  obtain rfl | rfl | rfl | rfl := hx <;> simp only [takeTrigger, h]

theorem takeTrigger_candidate {s : State} (hcode : s.mode.code = .solo) (hauto : bit s.mode.bootcfg 10 = true) :
    takeTrigger .candidate s = enterMode .muster .device s := by
  simp only [takeTrigger, hcode, hauto, if_true]

theorem exec_showCondition (s : State) :
    exec .showCondition s = .next (if s.mode.code == .muster && !s.mode.busy && showCondition s then
      enterMode (if bit s.mode.bootcfg 11 then .show else .relay) .ring s else s) := rfl

/-- Settles O17: with its actions done (`entryTodo_of_done`) an entry ends in `atEntryEnd`, where the held triggers act. -/
theorem transitionsEndAndLeaveMuster : Obligations.TransitionsEndAndLeaveMuster := by
  refine ⟨fun s hbusy hdone => ?ends, fun s hbusy hwaits => ?waits, fun s hcode hbusy hheld hfixed hframes hlock => ?leaves⟩
  case ends =>
    have hexec : exec .modeTransitionDone s = .next (heldTriggers (atEntryEnd s)) := by
      rw [exec_modeTransitionDone, if_pos (by simp [hbusy, hdone]), transitionDone_eq]
    have htodo := entryTodo_of_done hdone
    obtain ⟨hframe, hepoch⟩ := atEntryEnd_frame s
    generalize atEntryEnd s = u at hexec hframe hepoch
    have hmode : u.mode = { s.mode with busy := false, src := s.mode.tsrc } := by rw [hframe]
    have hraised : raised .mode u = true := by
      rw [hframe]
      exact (raised_setIsr .mode .mode _).trans (by simp)
    obtain ⟨hsrc, hmem, hpending, hkeep⟩ := heldTriggers_rides u
    refine ⟨_, hexec, hkeep _ hraised, hsrc.trans (by rw [hmode]), hpending.trans (by rw [hframe]),
      hmem.trans (by rw [hframe]), fun hc hf n hn => all_on_of_entryTodo hbusy hc hf htodo n hn,
      fun hc hf n hn => all_off_of_entryTodo hbusy hc hf htodo n hn,
      fun hc n hn => all_off_of_dormant hbusy hc htodo n hn, fun hheld => ?_, fun x hx hheld hcode => ?_,
      fun hheld hcode hauto => ?_⟩
    · rw [heldTriggers_of_none (by rw [hmode]; exact hheld)]
      refine ⟨hmode, by rw [hframe], ?_, fun he => ?_⟩
      · rw [hframe]
        simp [Bool.and_assoc, bne]
      · rw [hepoch he] at hframe
        rw [hframe]
    · have hone : u.mode.held = [x.1] := by rw [hmode]; exact hheld
      have hfrom : u.mode.code = x.2.1 := by rw [hmode]; exact hcode
      have hfree : u.mode.busy = false := by rw [hmode]
      have hact : heldTriggers u = enterMode x.2.2 .ring { u with mode := { u.mode with held := [] } } := by
        rw [heldTriggers_of_one hone]
        exact (trigger_of_free (by exact hfree) _).trans (takeTrigger_ring hx (by exact hfrom))
      rw [hact, enterMode_mode]
      exact ⟨rfl, rfl, rfl⟩
    · have hone : u.mode.held = [.candidate] := by rw [hmode]; exact hheld
      have hfrom : u.mode.code = .solo := by rw [hmode]; exact hcode
      have hfree : u.mode.busy = false := by rw [hmode]
      have hcfg : bit u.mode.bootcfg 10 = true := by rw [hmode]; exact hauto
      have hact : heldTriggers u = enterMode .muster .device { u with mode := { u.mode with held := [] } } := by
        rw [heldTriggers_of_one hone]
        exact (trigger_of_free (by exact hfree) _).trans (takeTrigger_candidate (by exact hfrom) (by exact hcfg))
      rw [hact, enterMode_mode]
      exact ⟨rfl, rfl⟩
  case waits => rw [exec_modeTransitionDone, if_neg (by simp [hwaits])]
  case leaves =>
    refine ⟨_, exec_showCondition s, ?_⟩
    have hgo : (s.mode.code == .muster && !s.mode.busy && showCondition s) = true := by
      simp [hcode, hbusy, showCondition, hheld, hfixed, hframes, hlock]
    rw [if_pos hgo]
    dsimp only
    rw [enterMode_mode]
    exact ⟨rfl, rfl, rfl, hcode⟩

/-! ## The save (R402, R404) -/

theorem exec_sag (s : State) :
    exec .sag s = .next (if s.mode.inPor then s
      else if s.mode.code = .boot then { s with mode := { s.mode with rstcause := setBit s.mode.rstcause 6 true } }
      else if s.mode.code.running then enterRoost false .device s
      else s) := rfl

/-- Unless a close waits for the migration, entering ROOST touches neither the gate controller nor the voices (log entry
82). -/
theorem enterRoost_gate_vox {s : State} (h : s.gate.phase ≠ 1) (req : Bool) (src : ModeSrc) :
    (enterRoost req src s).gate = s.gate ∧ (enterRoost req src s).vox = s.vox := by
  have href (t : State) : (redecideRef t).gate = t.gate ∧ (redecideRef t).vox = t.vox := by
    unfold redecideRef setCkp when
    dsimp only
    split <;> exact ⟨rfl, rfl⟩
  have hroost : (atRoost req src s).gate = s.gate ∧ (atRoost req src s).vox = s.vox := by
    obtain ⟨hframe, -⟩ := when_setResult_spec (s.mode.pend || s.mode.mgmtReq.isSome) 2 s
    rw [atRoost, hframe]
    exact ⟨rfl, rfl⟩
  have hwait : leaveEpochWait (atRoost req src s) = atRoost req src s := by
    have hphase : (atRoost req src s).gate.phase ≠ 1 := by
      rw [hroost.1]
      exact h
    unfold leaveEpochWait
    split
    · exact if_neg fun hg => hphase (of_decide_eq_true (Bool.and_eq_true_iff.mp hg).1)
    · rfl
  rw [enterRoost_eq, hwait, (href _).1, (href _).2]
  exact hroost

theorem exec_roostCaptureDone (s : State) :
    exec .roostCaptureDone s =
      .next (if s.mode.code == .roost && !s.mode.busy && !s.mode.captured then capturePart s else s) := rfl

/-- Reading words of memory touches ECC, the memories and causes only (R301-R303). -/
theorem readWordsEffect_frame (src : BitVec 4) (a n : Nat) (s : State) :
    (readWordsEffect src a n s).still = s.still ∧ (readWordsEffect src a n s).pending = s.pending := by
  have hone (a : Nat) (s : State) : (memReadEffect src a s).pending = s.pending := by
    unfold memReadEffect
    split
    · rfl
    · dsimp only
      split
      · rfl
      · rfl
      · unfold when
        split <;> rfl
      · rfl
  refine ⟨by simp, ?_⟩
  induction n generalizing a s with
  | zero => rfl
  | succ n ih => exact (ih (a + 8) _).trans (hone a s)

theorem userBlockEffect_frame (s : State) :
    (userBlockEffect s).still = s.still ∧ (userBlockEffect s).pending = s.pending := by
  unfold userBlockEffect
  split
  · split
    · exact readWordsEffect_frame _ _ _ s
    · exact ⟨rfl, rfl⟩
  · exact ⟨rfl, rfl⟩

/-- A restored look does not show through a capture: the MODE hood is on (Table 2.1). -/
theorem modeSource_of_captured {s : State} (hcode : s.mode.code = .roost) (hcapt : s.mode.captured = true)
    (hhood : s.drv.modeHood = true) : modeSource s = true := by
  simp [modeSource, lookShows, hcode, hcapt, hhood]

theorem capturePart_spec {s : State} (hcode : s.mode.code = .roost) :
    (capturePart s).mode = { s.mode with captured := true } ∧ (capturePart s).pending = s.pending ∧
      (capturePart s).ros.look = s.ros.look ∧ modeSource (capturePart s) = true ∧
      (capturePart s).ros.store = s.ros.store := by
  obtain ⟨hstill, hpending⟩ := userBlockEffect_frame s
  obtain ⟨hmode, -, -, -, hros⟩ := still_eq_iff.mp hstill
  obtain ⟨image, himage⟩ : ∃ image, capturePart s = { userBlockEffect s with
      mode := { (userBlockEffect s).mode with captured := true }
      ros := { (userBlockEffect s).ros with buffer := image }
      drv := { (userBlockEffect s).drv with modeHood := true, liftAtFrame := false } } := ⟨_, rfl⟩
  rw [himage]
  refine ⟨by rw [hmode], hpending, by rw [hros], modeSource_of_captured ?_ rfl rfl, by rw [hros]⟩
  rw [hmode]
  exact hcode

theorem resetState_store (k : ResetKind) (b : BitVec 3) (n : Nat) (s : State) :
    (resetState k b n s).ros.store = s.ros.store := rfl

/-- Settles O18: a sag is `enterRoost`, a capture `capturePart`, and the end of a save programs its slot before a reset or the
entry to DORMANT. -/
theorem sagSavesInRoost : Obligations.SagSavesInRoost := by
  refine ⟨⟨fun s hpor hrun => ?sag, fun s hpor hcode => ?sagBoot⟩, fun s hcode hbusy hcapt => ?capture,
    fun pg rst s hcode hcapt => ?saveEnd⟩
  case sag =>
    have hboot : s.mode.code ≠ .boot := by
      intro h
      rw [h] at hrun
      exact absurd hrun (by decide)
    refine ⟨_, exec_sag s, ?_⟩
    rw [if_neg (by simp [hpor]), if_neg hboot, if_pos hrun]
    obtain ⟨hmode, hmig, hmem, hpending, -⟩ := enterRoost_spec false .device s
    rw [hmode]
    refine ⟨rfl, rfl, rfl, rfl, rfl, rfl, rfl, rfl, rfl, fun hreq => if_pos ?_, hmig, hmem, hpending,
      fun hphase => enterRoost_gate_vox hphase false .device⟩
    rwa [Bool.or_eq_true, Option.isSome_iff_ne_none]
  case sagBoot => rw [exec_sag, if_neg (by simp [hpor]), if_pos hcode]
  case capture =>
    refine ⟨_, exec_roostCaptureDone s, ?_⟩
    rw [if_pos (by simp [hcode, hbusy, hcapt])]
    exact capturePart_spec hcode
  case saveEnd =>
    refine ⟨_, exec_saveEnd pg rst hcode hcapt, ?_⟩
    cases rst
    · cases pg
      · obtain ⟨hmode, -, -, hstore, -⟩ := enterMode_spec .dormant .device
          { s with
            ros := programSlot s.ros
            lanes := { s.lanes with port := s.lanes.port.map fun p => { p with repeating := false } } }
        exact ⟨hstore, congrArg ModeCtl.code hmode, by simp, by simp, fun _ _ => ⟨rfl, congrArg ModeCtl.busy hmode⟩⟩
      · exact ⟨resetState_store _ _ _ _, rfl, by simp, fun _ _ => rfl, by simp⟩
    · exact ⟨resetState_store _ _ _ _, rfl, fun _ => rfl, by simp, by simp⟩

end Sys2Proof.Machine

/-! SUPPORT. The steps of BOOT (R54, R55, R65, R68, R311, R312, R340): which domains FUSE powers and MEMTEST leaves OFF, and
the islands and the scan as the steps begin them. -/

namespace Sys2Proof.Machine

/-! ## Domains -/

theorem pd_setPd (n : Fin 67) (a : Nat) (x : PdState) (g : Gate) :
    (setPd a x g).pd[n] = if a = n.val then x else g.pd[n] := by
  simp [setPd, Vector.getElem_setIfInBounds]

/-- What powering domains up and waking their lanes leaves as it is, beside the states of the domains themselves. -/
def State.powered (s : State) : ModeCtl × List Instr × Vector PdState 67 := (s.mode, s.pending, s.gate.pd)

theorem ite_powered {p : Prop} [Decidable p] {a b : State} {x : ModeCtl × List Instr × Vector PdState 67}
    (ha : a.powered = x) (hb : b.powered = x) : (if p then a else b).powered = x := by
  split
  · exact ha
  · exact hb

theorem resetDomain_powered (n : Nat) (s : State) : (resetDomain n s).powered = s.powered := by
  unfold resetDomain
  iterate 15 refine ite_powered rfl ?_
  rfl

theorem powerUpDomain_powered (n : Nat) (s : State) : (powerUpDomain n s).powered = s.powered := by
  rw [← resetDomain_powered n s]
  unfold powerUpDomain
  generalize resetDomain n s = t
  extract_lets _ _ u
  have hu : u.powered = t.powered := ite_powered rfl rfl
  rw [← hu]
  clear_value u
  exact ite_powered rfl (ite_powered rfl (ite_powered rfl rfl))

theorem reachOn_powered (n : Nat) (s : State) : (reachOn n s).powered = s.powered := by
  unfold reachOn
  split <;> rfl

/-- Domain `n` powered up, unless `p` excludes it or it is ON. -/
def powerUpOne (p : Nat → Bool) (s : State) (n : Nat) : State :=
  if p n && !(pdOn s n) then
    { reachOn n (powerUpDomain n s) with gate := { setPd n .on s.gate with updater := s.gate.updater.filter (·.1 != n) } }
  else s

theorem powerUpAll_eq (p : Nat → Bool) (s : State) : powerUpAll p s = (List.range 67).foldl (powerUpOne p) s := rfl

/-- What powering a domain up leaves but for the domain's own state. -/
def State.booted (s : State) : ModeCtl × List Instr := (s.mode, s.pending)

theorem booted_of_powered {s t : State} (h : t.powered = s.powered) : t.booted = s.booted := by
  simp only [State.powered, Prod.mk.injEq] at h
  obtain ⟨hmode, hpending, -⟩ := h
  rw [State.booted, hmode, hpending, State.booted]

theorem powerUpOne_booted (p : Nat → Bool) (s : State) (a : Nat) : (powerUpOne p s a).booted = s.booted := by
  unfold powerUpOne
  split
  · have hup : (reachOn a (powerUpDomain a s)).booted = s.booted :=
      booted_of_powered ((reachOn_powered a _).trans (powerUpDomain_powered a s))
    exact hup
  · rfl

theorem powerUpOne_pd (p : Nat → Bool) (s : State) (a : Nat) (n : Fin 67) :
    (powerUpOne p s a).gate.pd[n] = if p n.val && a == n.val then .on else s.gate.pd[n] := by
  unfold powerUpOne
  split
  · next h =>
    rw [Bool.and_eq_true] at h
    refine (pd_setPd n a .on s.gate).trans ?_
    by_cases ha : a = n.val
    · subst ha
      simp [h.1]
    · simp [ha]
  · next h =>
    split
    · next hn =>
      simp only [Bool.and_eq_true, beq_iff_eq] at hn
      obtain ⟨hp, rfl⟩ := hn
      simpa [hp, pdOn] using h
    · rfl

/-- Powering up the domains of `p` sets them ON and leaves the others (R88, R90). -/
theorem powerUpAll_spec (p : Nat → Bool) (s : State) :
    (powerUpAll p s).booted = s.booted ∧
      ∀ n : Fin 67, (powerUpAll p s).gate.pd[n] = if p n.val then .on else s.gate.pd[n] := by
  have hfold (n : Fin 67) (l : List Nat) (t : State) :
      (l.foldl (powerUpOne p) t).gate.pd[n] = if p n.val && l.contains n.val then .on else t.gate.pd[n] := by
    induction l generalizing t with
    | nil => simp
    | cons a l ih =>
      rw [List.foldl_cons, ih, powerUpOne_pd]
      cases hp : p n.val
      · rfl
      · by_cases ha : a = n.val
        · simp [ha]
        · simp [ha, Ne.symm ha]
  refine ⟨by rw [powerUpAll_eq]; exact foldl_keep _ _ (powerUpOne_booted p) _ _, fun n => ?_⟩
  rw [powerUpAll_eq, hfold]
  simp

/-- A domain that the end of FUSE powers (Table 2.1, R312). -/
def fusePowers (s : State) (n : Nat) : Bool := n != 0 && !modeDomain n && !(s.mode.keepBoot && failedDomain s n)

theorem fuseDomains_spec (s : State) :
    (fuseDomains s).booted = s.booted ∧
      ∀ n : Fin 67, (fuseDomains s).gate.pd[n] = if fusePowers s n.val then .on else s.gate.pd[n] := by
  unfold fuseDomains
  dsimp only
  split
  · exact powerUpAll_spec (fusePowers s) s
  · exact ⟨rfl, fun n => by simp [mapPd, fusePowers]⟩

theorem startLanes_powered (s : State) : (startLanes s).powered = s.powered := by
  refine foldl_keep State.powered _ (fun t n => ?_) _ s
  split <;> rfl

theorem logEvent_mkey (cause : Nat) (w : Word) (t : Quad) (m : Mode) (x : Mgt) : (logEvent cause w t m x).mkey = x.mkey := by
  unfold logEvent
  split <;> rfl

theorem exec_fuseDone {s : State} (h : inStep s 0 = true) :
    exec .fuseDone s = .next (toStep 1 { startLanes (fuseDomains s) with
      mgt := logEvent (32 + (startLanes (fuseDomains s)).mode.bcause.toNat) 0 (startLanes (fuseDomains s)).chn.ctime .boot
        { (startLanes (fuseDomains s)).mgt with mkey := Config.mkey }
      ckp := (startLanes (fuseDomains s)).ckp.startRun }) :=
  congrArg Host.Outcome.next (if_pos h)

/-! ## The CLOCK step -/

/-- Deciding the reference changes the mux alone, and raises CLK (R79, R86). -/
theorem decideRef_frame (s : State) (c : Ckp) :
    (c.decideRef s).1 = { c with
      refNow := (c.decideRef s).1.refNow, refNext := (c.decideRef s).1.refNext, holdover := (c.decideRef s).1.holdover } := by
  unfold Ckp.decideRef
  split
  · rfl
  · split
    · split <;> rfl
    · rfl

theorem setCkp_frame (c : Ckp) (r : Bool) (s : State) :
    setCkp c r s = { s with ckp := c, host := (setCkp c r s).host, mgt := (setCkp c r s).mgt } := by
  unfold setCkp when
  split <;> rfl

theorem redecideRef_frame (s : State) :
    redecideRef s = { s with ckp := (s.ckp.decideRef s).1, host := (redecideRef s).host, mgt := (redecideRef s).mgt } :=
  setCkp_frame (s.ckp.decideRef s).1 (s.ckp.decideRef s).2 s

theorem icl_startIslands (c : Ckp) (n : Fin 7) :
    c.startIslands.icl n.val =
      if n.val = 1 then { c.icl n.val with act := 0, step := 0, sw := none, held := none, waitsrc := false }
      else if n.val = 5 then (if bit c.en 3 then (c.icl n.val).run else c.icl n.val)
      else if n.val = 6 then c.icl n.val
      else (c.icl n.val).run := by
  simp [Ckp.startIslands, Ckp.icl, vget]

/-- An island that has started runs on the source and divider of its register (R68). -/
theorem run_source (i : Iclk) : i.run.act.toNat = i.src ∧ i.run.step.toNat = i.div := by
  have hsrc : i.src < 2 ^ 2 := Nat.mod_lt _ (by decide)
  have hdiv : i.div < 2 ^ 3 := Nat.mod_lt _ (by decide)
  simp only [Iclk.run, BitVec.toNat_ofNat]
  exact ⟨Nat.mod_eq_of_lt hsrc, Nat.mod_eq_of_lt hdiv⟩

/-- The clocks once the islands have started and the reference is decided: the islands and the mux alone have changed. -/
theorem decideRef_startIslands (s : State) (c : Ckp) :
    (c.startIslands.decideRef s).1 = { c with
      iclk := (c.startIslands.decideRef s).1.iclk
      refNow := (c.startIslands.decideRef s).1.refNow
      refNext := (c.startIslands.decideRef s).1.refNext
      holdover := (c.startIslands.decideRef s).1.holdover } ∧
    ∀ n, (c.startIslands.decideRef s).1.icl n = c.startIslands.icl n := by
  have hframe := decideRef_frame s c.startIslands
  generalize (c.startIslands.decideRef s).1 = d at hframe
  exact ⟨by rw [hframe]; rfl, fun n => by rw [hframe]; rfl⟩

theorem startWirescan_frame (s : State) :
    startWirescan s = { s with
      mode := { s.mode with step := if s.pins.vfield then 3 else 4, scanskip := (startWirescan s).mode.scanskip }
      drv := (startWirescan s).drv } := by
  unfold startWirescan beginScan
  split <;> rfl

/-- The step after CLOCK: MEMTEST, or WIRESCAN in a boot that keeps the memories (R55, R312). -/
def leaveClock (s : State) : State :=
  if s.mode.keepBoot then startWirescan { s with mode := { s.mode with kept := true } } else toStep 2 s

theorem leaveClock_frame (s : State) :
    leaveClock s = { s with
      mode := { s.mode with
        kept := s.mode.keepBoot || s.mode.kept
        step := if s.mode.keepBoot then (if s.pins.vfield then 3 else 4) else 2
        scanskip := (leaveClock s).mode.scanskip }
      drv := (leaveClock s).drv } := by
  unfold leaveClock
  split
  · next hk =>
    refine (startWirescan_frame _).trans ?_
    rw [hk]
    rfl
  · next hk =>
    rw [Bool.eq_false_iff.mpr hk]
    rfl

theorem exec_clockStepDone (s : State) :
    exec .clockStepDone s =
      .next (if inStep s 1 && !s.mode.clkfail && s.ckp.xoq && bit s.ckp.lock 2 && bit s.ckp.lock 3 then
        leaveClock (redecideRef { s with ckp := s.ckp.startIslands }) else s) := rfl

/-! ## MEMTEST -/

/-- A domain of a memory: a mews bank or a kestrel (R312). -/
def memoryDomain (n : Nat) : Bool := decide (46 ≤ n) && decide (n ≤ 57)

/-- Domain `n` powered down when `p` picks it. -/
def powerDownOne (p : Nat → Bool) (s : State) (n : Nat) : State :=
  if p n && n != 0 then
    { powerOffDomain n s with gate := { setPd n .off s.gate with updater := s.gate.updater.filter (·.1 != n) } }
  else s

theorem powerDownAll_eq (p : Nat → Bool) (s : State) :
    powerDownAll p s = abandonAll ((List.range 67).reverse.foldl (powerDownOne p) s) := rfl

/-- What powering memories down leaves as it is, with their words. -/
def State.tested (s : State) : ModeCtl × Ecc × Pins := (s.mode, s.ecc, s.pins)

theorem powerDownOne_tested {p : Nat → Bool} (hp : ∀ n, p n = true → memoryDomain n = true) (s : State) (a : Nat) :
    (powerDownOne p s a).tested = s.tested ∧ (s.mem = {} → (powerDownOne p s a).mem = {}) := by
  unfold powerDownOne
  split
  · next h =>
    rw [Bool.and_eq_true] at h
    have ha := hp a h.1
    simp only [memoryDomain, Bool.and_eq_true, decide_eq_true_eq] at ha
    have hzero (hm : s.mem = {}) : zeroDomain a s.mem = {} := by rw [hm]; rfl
    rw [powerOffDomain, if_neg (by omega), if_neg (by omega)]
    split
    · exact ⟨rfl, hzero⟩
    · rw [if_pos (by omega)]
      exact ⟨rfl, hzero⟩
  · exact ⟨rfl, id⟩

theorem powerDownOne_pd (p : Nat → Bool) (s : State) (a : Nat) (n : Fin 67) (hn : n.val ≠ 0) :
    (powerDownOne p s a).gate.pd[n] = if p n.val && a == n.val then .off else s.gate.pd[n] := by
  unfold powerDownOne
  split
  · next h =>
    rw [Bool.and_eq_true] at h
    refine (pd_setPd n a .off s.gate).trans ?_
    by_cases ha : a = n.val
    · subst ha
      simp [h.1]
    · simp [ha]
  · next h =>
    split
    · next hp =>
      simp only [Bool.and_eq_true, beq_iff_eq] at hp
      obtain ⟨hp, rfl⟩ := hp
      simp [hp, hn] at h
    · rfl

/-- Powering memories down leaves every memory empty that was, and the domains of `p` OFF (R90, R312). -/
theorem powerDownAll_spec {p : Nat → Bool} (hp : ∀ n, p n = true → memoryDomain n = true) {s : State} (hmem : s.mem = {}) :
    (powerDownAll p s).tested = s.tested ∧ (powerDownAll p s).mem = {} ∧
      ∀ n : Fin 67, p n.val = true → (powerDownAll p s).gate.pd[n] = .off := by
  have hfold (l : List Nat) (t : State) (ht : t.mem = {}) :
      (l.foldl (powerDownOne p) t).tested = t.tested ∧ (l.foldl (powerDownOne p) t).mem = {} := by
    induction l generalizing t with
    | nil => exact ⟨rfl, ht⟩
    | cons a l ih =>
      obtain ⟨htested, hm⟩ := powerDownOne_tested hp t a
      obtain ⟨h1, h2⟩ := ih _ (hm ht)
      exact ⟨h1.trans htested, h2⟩
  have hpd (n : Fin 67) (hn : p n.val = true) (l : List Nat) (t : State) :
      (l.foldl (powerDownOne p) t).gate.pd[n] = if l.contains n.val then .off else t.gate.pd[n] := by
    have hn0 : n.val ≠ 0 := by
      intro h0
      have := hp _ hn
      rw [h0] at this
      exact absurd this (by decide)
    induction l generalizing t with
    | nil => simp
    | cons a l ih =>
      rw [List.foldl_cons, ih, powerDownOne_pd p t a n hn0]
      by_cases ha : a = n.val
      · simp [ha, hn]
      · simp [ha, Ne.symm ha]
  obtain ⟨htested, hm⟩ := hfold (List.range 67).reverse s hmem
  rw [powerDownAll_eq]
  refine ⟨htested, hm, fun n hn => (hpd n hn _ s).trans ?_⟩
  simp

/-- The domain of a memory that MEMTEST failed (R312). -/
def memtestFails (banks : BitVec 8) (kests : BitVec 4) (n : Nat) : Bool :=
  (decide (46 ≤ n) && decide (n ≤ 53) && bit banks (n - 46)) || (decide (54 ≤ n) && decide (n ≤ 57) && bit kests (n - 54))

theorem memoryDomain_of_memtestFails (banks : BitVec 8) (kests : BitVec 4) (n : Nat) (h : memtestFails banks kests n = true) :
    memoryDomain n = true := by
  simp only [memtestFails, memoryDomain, Bool.or_eq_true, Bool.and_eq_true, decide_eq_true_eq] at h ⊢
  omega

/-- The state that MEMTEST records its results in, every memory zero. -/
def atMemtest (banks : BitVec 8) (kests : BitVec 4) (addr : Word) (s : State) : State :=
  { s with
    mem := {}
    gate := { s.gate with failed := kests ++ banks }
    ecc := { s.ecc with fail := banks, kfail := kests, bistaddr := if (banks != 0 || kests != 0) then addr else 0 }
    mode := { s.mode with memfail := banks != 0 || kests != 0 } }

theorem exec_memtestDone (banks : BitVec 8) (kests : BitVec 4) (addr : Word) {s : State} (h : inStep s 2 = true) :
    exec (.memtestDone banks kests addr) s =
      .next (startWirescan (powerDownAll (memtestFails banks kests) (atMemtest banks kests addr s))) :=
  congrArg Host.Outcome.next (if_pos h)

/-! ## The later steps -/

theorem exec_clockStepFail (s : State) :
    exec .clockStepFail s = .next (if inStep s 1 && !s.ckp.xoq then { s with mode := { s.mode with clkfail := true } } else s) :=
  rfl

theorem exec_scanComplete (s : State) :
    exec .scanComplete s = .next (if s.drv.scanBusy && s.drv.scanPos == 64 then
      (if inStep s 3 then toStep 4 (scanComplete s) else scanComplete s) else s) := rfl

theorem exec_roostchkDone (s : State) :
    exec .roostchkDone s = .next (if inStep s 4 then leaveBoot (toStep 5 (roostCheck s)) else s) := rfl

theorem exec_ringwaitEnd (s : State) :
    exec .ringwaitEnd s = .next (if inStep s 5 && fld s.mode.bootcfg 12 4 != 15 then
      enterMode (if s.chn.framesNow || candidate? s then .muster else .solo) .device s else s) := rfl

/-- Settles O13, step by step: FUSE by `fuseDomains_spec`, CLOCK by `redecideRef_frame` and `icl_startIslands`, MEMTEST by
`powerDownAll_spec`. -/
theorem bootStepsFollowInOrder : Obligations.BootStepsFollowInOrder := by
  refine ⟨fun s h => ?fuse, fun s h hxoq hcore hpwm => ⟨fun hfail => ?clockStays, fun hok => ?clock⟩,
    fun s h hxoq => ?clockFail, fun banks kests addr s h => ?memtest, fun s h hbusy hpos => ?scan,
    fun s h => ?roostchk, fun s h hwait => ?ringwait⟩
  case fuse =>
    refine ⟨_, exec_fuseDone h, ?_⟩
    obtain ⟨hbooted, hpd⟩ := fuseDomains_spec s
    have hlanes := startLanes_powered (fuseDomains s)
    have hkeep := (booted_of_powered hlanes).trans hbooted
    have hpds : (startLanes (fuseDomains s)).gate.pd = (fuseDomains s).gate.pd := congrArg (·.2.2) hlanes
    rw [← hpds] at hpd
    generalize startLanes (fuseDomains s) = u at hkeep hpd
    simp only [State.booted, Prod.mk.injEq] at hkeep
    obtain ⟨hmode, hpending⟩ := hkeep
    refine ⟨?_, logEvent_mkey _ _ _ _ _, hpending, fun n hn hm hf => (hpd n).trans (if_pos ?_),
      fun hk n hf => (hpd n).trans (if_neg ?_)⟩
    · simp only [toStep, hmode]
    · obtain hf | hf := hf <;> simp [fusePowers, hn, hm, hf]
    · simp [fusePowers, hk, hf]
  case clockStays => rw [exec_clockStepDone, if_neg (by simp [hfail])]
  case clock =>
    refine ⟨_, exec_clockStepDone s, ?_⟩
    have hframe := redecideRef_frame { s with ckp := s.ckp.startIslands }
    obtain ⟨hckp, hicl⟩ := decideRef_startIslands { s with ckp := s.ckp.startIslands } s.ckp
    have hgo : (inStep s 1 && !s.mode.clkfail && s.ckp.xoq && bit s.ckp.lock 2 && bit s.ckp.lock 3) = true := by
      rw [h, hxoq, hcore, hpwm, hok]
      rfl
    rw [if_pos hgo]
    generalize redecideRef { s with ckp := s.ckp.startIslands } = u at hframe
    generalize (s.ckp.startIslands.decideRef { s with ckp := s.ckp.startIslands }).1 = c at hframe hckp hicl
    have hucode : u.ckp = c := by rw [hframe]
    have humode : u.mode = s.mode := by rw [hframe]
    have hrun (n : Fin 7) (h1 : n.val ≠ 1) (hn : n.val < 5 ∨ (n.val = 5 ∧ bit s.ckp.en 3 = true)) :
        c.icl n = (s.ckp.icl n).run := by
      rw [hicl, icl_startIslands, if_neg h1]
      obtain hn | ⟨hn, hen⟩ := hn
      · rw [if_neg (by omega), if_neg (by omega)]
      · rw [if_pos hn, if_pos hen]
    have hsys := (hicl 1).trans ((icl_startIslands s.ckp 1).trans (if_pos rfl))
    rw [leaveClock_frame]
    dsimp only
    rw [hucode, humode]
    refine ⟨hckp, by rw [hsys], by rw [hsys], by rw [hsys], fun n h1 hn => ?_, rfl, ?_, ?_⟩
    · rw [hrun n h1 hn]
      exact run_source _
    · rw [hframe]
    · rw [hframe]
  case clockFail => rw [exec_clockStepFail, if_pos (by rw [h, hxoq]; rfl)]
  case memtest =>
    refine ⟨_, exec_memtestDone banks kests addr h, ?_⟩
    obtain ⟨htested, hmem, hoff⟩ := powerDownAll_spec (memoryDomain_of_memtestFails banks kests)
      (s := atMemtest banks kests addr s) rfl
    generalize powerDownAll (memtestFails banks kests) (atMemtest banks kests addr s) = u at htested hmem hoff
    simp only [State.tested, Prod.mk.injEq] at htested
    obtain ⟨hmode, hecc, hpins⟩ := htested
    rw [startWirescan_frame u]
    dsimp only
    rw [hmem, hecc, hmode, hpins]
    refine ⟨fun a => rfl, rfl, rfl, rfl, rfl, rfl, fun m hm => ?_, fun k hk => ?_⟩
    · have hfail : memtestFails banks kests (46 + m.val) = true := by
        simp [memtestFails, hm]
        omega
      have hlt : 46 + m.val < 67 := by omega
      rw [Vector.getElem?_eq_getElem hlt]
      exact congrArg some (hoff ⟨_, hlt⟩ hfail)
    · have hfail : memtestFails banks kests (54 + k.val) = true := by
        simp [memtestFails, hk]
        omega
      have hlt : 54 + k.val < 67 := by omega
      rw [Vector.getElem?_eq_getElem hlt]
      exact congrArg some (hoff ⟨_, hlt⟩ hfail)
  case scan =>
    refine ⟨_, exec_scanComplete s, ?_⟩
    rw [if_pos (by simp [hbusy, hpos]), if_pos h]
    exact ⟨rfl, rfl⟩
  case roostchk => exact ⟨_, exec_roostchkDone s, if_pos h⟩
  case ringwait =>
    refine ⟨_, exec_ringwaitEnd s, ?_⟩
    have hends : (inStep s 5 && fld s.mode.bootcfg 12 4 != 15) = true := by
      rw [h, Bool.true_and]
      exact bne_iff_ne.mpr hwait
    rw [if_pos hends]
    dsimp only
    rw [enterMode_mode]
    exact ⟨rfl, rfl⟩

end Sys2Proof.Machine

/-! SUPPORT. What a head does (R180, R191-R195): the role it takes at a MUSTER entry, its launch, its registers, genlock and
its uplink. -/

namespace Sys2Proof.Machine

/-! ## The role at a MUSTER entry (R191, R193) -/

/-- A candidate takes the role with position 0 and starts a count. -/
theorem takeRole_of_candidate {src : ModeSrc} {s : State} (hcand : candidate? s = true)
    (hrole : s.chn.role ≠ 2) :
    (takeRole src s).chn = { s.chn with
        role := 1, huid := Config.uid, held := true, fixed := true, pos := 0, late := false, lock := true
        mepoch := s.chn.mepoch + 1, mustering := true } ∧
      (takeRole src s).head.counting = true := by
  have hfree : (s.chn.role != 2) = true := bne_iff_ne.mpr hrole
  rw [takeRole, if_pos (by rw [hcand, hfree]; rfl)]
  unfold when
  split <;> exact ⟨rfl, rfl⟩

/-- A candidate that enters MUSTER is head there, and counts. -/
theorem enterMuster_of_candidate {src : ModeSrc} {s : State} (hcand : candidate? s = true) (hrole : s.chn.role ≠ 2) :
    let t := enterMode .muster src s
    t.chn.mepoch = s.chn.mepoch + 1 ∧ t.head.counting = true ∧ t.chn.role = 1 ∧ t.chn.huid = Config.uid ∧
      t.chn.held = true ∧ t.chn.pos = 0 := by
  obtain ⟨hchn, hcount⟩ := takeRole_of_candidate (src := src) (s := { quiet (hoodMode (atTrigger .muster src s)) with
    chn := { (atTrigger .muster src s).chn with mustering := true } }) hcand hrole
  have hcore := (enterMode_carries .muster src s).core
  simp only [State.core, Prod.mk.injEq] at hcore
  obtain ⟨-, -, -, -, hstanding, hhead, -⟩ := hcore
  have hchn' := hstanding.trans (congrArg Chn.standing hchn)
  refine ⟨?_, hhead ▸ hcount, ?_, ?_, ?_, ?_⟩
  · exact congrArg Chn.mepoch hchn'
  · exact congrArg Chn.role hchn'
  · exact congrArg Chn.huid hchn'
  · exact congrArg Chn.held hchn'
  · exact congrArg Chn.pos hchn'

/-! ## The launch (R194) -/

theorem exec_headFrameLaunch (s : State) : exec .headFrameLaunch s = .next (if originates s then launchFrame s else s) := rfl

theorem exec_uplinkCell (r : Bool) (u : Fin 1024) (c : CellBytes) (s : State) :
    exec (.uplinkCell r u c) s = .next (if !originates s then s
      else if !cellCrcOk c then { s with chn := { s.chn with uperr := satInc s.chn.uperr } }
      else uplinkPass u.val c s) := rfl

/-- The two lanes of one ring's output. -/
theorem sent_ofFn {α : Type} (f : PortIdx → Fin 2 → α) (r : PortIdx) (l : Fin 2) :
    (if l = 0 then ((Vector.ofFn fun p => (f p 0, f p 1))[r]).1 else ((Vector.ofFn fun p => (f p 0, f p 1))[r]).2) = f r l := by
  rw [Fin.getElem_fin, Vector.getElem_ofFn]
  match l with
  | 0 => rfl
  | 1 => rfl

/-! ## Its registers -/

theorem exec_headRemuster (s : State) : exec .headRemuster s = .next (if pd1Up s then remuster s else s) := rfl

theorem remuster_of_not_head {s : State} (h : s.chn.role ≠ 1) : remuster s = s := by
  have hno : isHead s = false := beq_eq_false_iff_ne.mpr h
  rw [remuster, if_pos (by rw [hno]; rfl)]

/-- In MUSTER and SERVICE a head starts its count anew; in RELAY and SHOW it is a trigger (R191). -/
theorem remuster_of_head {s : State} (h : s.chn.role = 1) :
    (s.mode.code = .muster ∨ s.mode.code = .service → remuster s = startCount s) ∧
      (s.mode.code = .relay ∨ s.mode.code = .show → remuster s = trigger .remuster s) := by
  have hhead : ¬((!isHead s) = true) := by simp [isHead, h]
  rw [remuster, if_neg hhead]
  refine ⟨fun hc => ?_, fun hc => ?_⟩ <;> obtain hc | hc := hc <;> rw [hc]

theorem trigger_of_busy {s : State} (h : s.mode.busy = true) (x : Trigger) :
    trigger x s = { s with mode := { s.mode with held := s.mode.held ++ [x] } } := if_pos h

theorem exec_headCandidateEnable (v : Word) (s : State) :
    exec (.headCandidateEnable v) s = .next (if chainRuns s then writeHead (setBit v 15 true) s else s) := rfl

/-- The head registers after a write of CHN_HEAD with EN = 1. -/
def enabledHead (v : Word) (x : Head) : Head := { x with cfg := applyWrite headFieldsRw x.cfg (setBit v 15 true) }

theorem enabledHead_en (v : Word) (x : Head) : bit (enabledHead v x).cfg 15 = true := by
  have hlast : applyWrite headFieldsRw x.cfg (setBit v 15 true) =
      setFld (applyWrite (headFieldsRw.take 4) x.cfg (setBit v 15 true)) 0 6
        ((⟨0, 6, .clamp 8 48, .rw⟩ : Field).next (fld x.cfg 0 6) (fld (setBit v 15 true) 0 6)) := by
    simp only [applyWrite, headFieldsRw, List.take, List.foldl]
  rw [enabledHead, hlast, bit_setFld _ _ _ _ _ (by decide), if_neg (by decide), bit_applyWrite_of_plain _ _ _ _ (by decide),
    if_pos (by decide), bit_setBit _ _ _ _ (by decide), if_pos rfl]

/-- A write of CHN_HEAD with EN = 1 and no REMUSTER: EN that rises is a trigger. -/
theorem writeHead_enable {v : Word} (h : bit v 31 = false) (s : State) :
    writeHead (setBit v 15 true) s =
      if candidate? s then { s with head := enabledHead v s.head }
      else candidateTrigger { s with head := enabledHead v s.head } := by
  have h15 : bit (setBit v 15 true) 15 = true := by rw [bit_setBit _ _ _ _ (by decide), if_pos rfl]
  have h31 : bit (setBit v 15 true) 31 = false := by rw [bit_setBit _ _ _ _ (by decide), if_neg (by decide), h]
  simp only [writeHead, h15, h31]
  cases hc : bit s.head.cfg 15 <;> simp [candidate?, hc, enabledHead]

theorem candidateTrigger_of_solo {s : State} (h : s.mode.code = .solo) : candidateTrigger s = trigger .candidate s :=
  if_neg (by simp [h])

/-- EN that rises acts in RINGWAIT, in SOLO with AUTOMUSTER, and waits while BUSY; else it is only stored (Table 2.2). -/
theorem candidateTrigger_stays {s : State} (hbusy : s.mode.busy = false)
    (hsolo : s.mode.code = .solo → bit s.mode.bootcfg 10 = false) (hboot : ¬(s.mode.code = .boot ∧ s.mode.step = 5)) :
    candidateTrigger s = s := by
  rw [candidateTrigger, if_neg hboot, trigger_of_free hbusy]
  by_cases hc : s.mode.code = .solo
  · simp only [takeTrigger, hc, hsolo hc, Bool.false_eq_true, if_false]
  · unfold takeTrigger
    split <;> simp_all

theorem exec_headCellQueue (r : BitVec 2) (s : State) :
    exec (.headCellQueue r) s = .next (if chainRuns s then { s with head := writeHtx r true s.head } else s) := rfl

/-- A cell written with GO enters the queue of 64, or is discarded with HTXDROP (R194). -/
theorem writeHtx_queues (r : BitVec 2) (x : Head) :
    let y := writeHtx r true x
    y = { x with queue := y.queue, htxRing := y.htxRing, htxdrop := y.htxdrop } ∧
      (x.queue.length < 64 → y.queue = x.queue ++ [((List.range 68).map fun i => cget zeroCell x.htxbuf i,
        if r = 3 then 0 else r)] ∧ y.htxdrop = x.htxdrop) ∧
      (64 ≤ x.queue.length → y.queue = x.queue ∧ y.htxdrop = true) := by
  have hgo : ¬((!true) = true) := by decide
  by_cases hfull : 64 ≤ x.queue.length
  · have hy : writeHtx r true x = { x with htxRing := if r = 3 then 0 else r, htxdrop := true } := if_pos hfull
    rw [hy]
    exact ⟨rfl, fun hroom => absurd hfull (Nat.not_le.mpr hroom), fun _ => ⟨rfl, rfl⟩⟩
  · have hy : writeHtx r true x = { x with
        htxRing := if r = 3 then 0 else r
        queue := x.queue ++ [((List.range 68).map fun i => cget zeroCell x.htxbuf i, if r = 3 then 0 else r)] } := if_neg hfull
    rw [hy]
    exact ⟨rfl, fun _ => ⟨rfl, rfl⟩, fun hf => absurd hf hfull⟩

theorem exec_ctsetLoad (hi : Byte) (s : State) :
    exec (.ctsetLoad hi) s = .next (if chainRuns s then writeCtset hi true s else s) := rfl

/-! ## Genlock (R195) -/

theorem exec_genlockEdge (r : Bool) (t : Quad) (s : State) :
    exec (.genlockEdge r t) s = .next (if genlockOn s && r == !bit s.head.gen 30 then genlockEdge t s else s) := rfl

theorem exec_genlockLoss (s : State) :
    exec .genlockLoss s = .next (if genlockOn s then { s with head := { s.head with genlk := false, genRun := 0, genEdges := 0 } }
      else s) := rfl

theorem clampI_bounds {lo hi : Int} (h : lo ≤ hi) (v : Int) : lo ≤ clampI lo hi v ∧ clampI lo hi v ≤ hi := by
  unfold clampI
  split_ifs <;> omega

/-- An edge touches the head's registers and the free choices alone. -/
theorem genlockEdge_frame (t : Quad) (s : State) :
    genlockEdge t s = { s with head := (genlockEdge t s).head, free := (genlockEdge t s).free } := by
  unfold genlockEdge
  split
  · rfl
  · obtain ⟨f, x, h⟩ : ∃ f x, genlockCompare t s = (s.setFree f).setHead x := ⟨_, _, rfl⟩
    rw [h]
    rfl

theorem trim_genlockCompare (t : Quad) (s : State) :
    -100000 ≤ (genlockCompare t s).head.trim ∧ (genlockCompare t s).head.trim ≤ 100000 := by
  obtain ⟨v, hv⟩ : ∃ v, (genlockCompare t s).head.trim = clampI (-100000) 100000 v := ⟨_, rfl⟩
  rw [hv]
  exact clampI_bounds (by omega) v

theorem pherr_genlockCompare {t : Quad} {s : State} (hlo : -8388608 ≤ genlockError s.head.gen t)
    (hhi : genlockError s.head.gen t < 8388608) :
    (genlockCompare t s).head.pherr.toInt = genlockError s.head.gen t := by
  have hfits : (decide (-8388608 ≤ genlockError s.head.gen t) && decide (genlockError s.head.gen t < 8388608)) = true := by
    rw [decide_eq_true hlo, decide_eq_true hhi]
    rfl
  have hpherr : (genlockCompare t s).head.pherr = BitVec.ofInt 24 (genlockError s.head.gen t) := if_pos hfits
  rw [hpherr, BitVec.toInt_ofInt]
  exact Int.bmod_eq_of_le (by omega) (by omega)

/-! ## The uplink (R180, R191) -/

theorem countEnd_spec (s : State) :
    (countEnd s).head.hellos = s.head.hellos ∧
      countEnd s = { s with head := (countEnd s).head, chn := (countEnd s).chn, lanes := (countEnd s).lanes } ∧
      (s.head.counting = false → countEnd s = s) := by
  unfold countEnd
  dsimp only
  split
  · next h => exact ⟨rfl, rfl, fun hc => absurd h (by simp [hc])⟩
  · exact ⟨rfl, rfl, fun _ => rfl⟩

/-- A HELLO of position `u` has been heard. -/
def withHello (u : Nat) (x : Head) : Head :=
  { x with hellos := if x.hellos.contains u then x.hellos else u :: x.hellos }

theorem mem_withHello (u : Nat) (x : Head) : u ∈ (withHello u x).hellos := by
  unfold withHello
  dsimp only
  split
  · next h => exact List.contains_iff_mem.mp h
  · exact List.mem_cons_self

theorem uplinkPass_hello {c : CellBytes} (h6 : cellType c = 6) (h2 : cellAux c % 16 = 2) (u : Nat) (s : State) :
    uplinkPass u c s = countEnd { s with head := withHello u s.head } := if_pos ⟨h6, h2⟩

theorem uplinkPass_other {c : CellBytes} {s : State} (h : ¬(cellType c = 6 ∧ cellAux c % 16 = 2))
    (h5 : cellType c ≠ 5 ∨ 2 ≤ cellAux c / 256 ∨ bit s.mgt.cfg 1 = false) (u : Nat) : uplinkPass u c s = s := by
  rw [uplinkPass]
  dsimp only
  rw [if_neg h, if_neg]
  rintro ⟨ht, hform, hon⟩
  obtain h5 | h5 | h5 := h5
  · exact h5 ht
  · omega
  · exact absurd hon (by simp [h5])

/-- Settles O42: each act by the equation of its row, the MUSTER entry of a candidate by `enterMuster_of_candidate`. -/
theorem headActsInItsRole : Obligations.HeadActsInItsRole := by
  intro s
  refine ⟨fun h => ?noRole, fun h => ?launch, rfl, ⟨fun h => ?noRemuster, fun hpd hrole => ?remuster⟩,
    ⟨fun v h => ?noEnable, fun v h h31 => ?enable⟩, fun r => ⟨fun h => ?noQueue, fun h => ?queue⟩,
    fun hi => ⟨fun h => ?noCount, fun h => ?count⟩, fun h => ?noGenlock, fun r t0 h => ?edge, fun h => ?loss,
    fun r u c h => ?uplink⟩
  case noRole =>
    refine ⟨?_, fun r u c => ?_⟩
    · rw [exec_headFrameLaunch, if_neg (by simp [h])]
    · rw [exec_uplinkCell, if_pos (by simp [h])]
  case launch =>
    refine ⟨_, (exec_headFrameLaunch s).trans (congrArg Host.Outcome.next (if_pos h)), rfl, rfl, rfl, rfl, rfl, fun r l => ?_⟩
    exact sent_ofFn _ r l
  case noRemuster =>
    rw [exec_headRemuster]
    obtain hpd | hrole := h
    · rw [if_neg (by simp [hpd])]
    · rw [remuster_of_not_head hrole, ite_self]
  case remuster =>
    obtain ⟨hcount, htrigger⟩ := remuster_of_head hrole
    refine ⟨fun hc => ?_, fun hc hbusy => ?_, fun hc hbusy => ?_⟩
    · refine ⟨startCount s, ?_, rfl, rfl, rfl, rfl, rfl⟩
      rw [exec_headRemuster, if_pos hpd, hcount hc]
    · rw [exec_headRemuster, if_pos hpd, htrigger hc, trigger_of_busy hbusy]
    · have hact : trigger .remuster s = enterMode .muster .ring s := by
        rw [trigger_of_free hbusy]
        obtain hc | hc := hc <;> simp only [takeTrigger, hc]
      refine ⟨enterMode .muster .ring s, ?_, congrArg ModeCtl.code (enterMode_mode _ _ s),
        congrArg ModeCtl.busy (enterMode_mode _ _ s), fun hcand => ?_⟩
      · rw [exec_headRemuster, if_pos hpd, htrigger hc, hact]
      · obtain ⟨hepoch, hcounts, -⟩ := enterMuster_of_candidate (src := .ring) hcand (by rw [hrole]; decide)
        exact ⟨hepoch, hcounts⟩
  case noEnable => rw [exec_headCandidateEnable, if_neg (by simp [h])]
  case enable =>
    have hexec := exec_headCandidateEnable v s
    rw [if_pos h, writeHead_enable h31] at hexec
    have hen := enabledHead_en v s.head
    refine ⟨fun hstays => ⟨_, hexec, ?_⟩, fun hcand hsolo hbusy => ⟨_, hexec, ?_⟩,
      fun hcand hsolo hauto hbusy hrole => ⟨_, hexec, ?_⟩⟩
    · cases hcand : candidate? s
      · have hfree := hstays.resolve_left (by simp [hcand])
        obtain ⟨hbusy, hsolo, hboot⟩ := hfree
        rw [if_neg (by simp), candidateTrigger_stays (by exact hbusy) (by exact hsolo) (by exact hboot)]
        exact ⟨hen, rfl⟩
      · exact ⟨hen, rfl⟩
    · rw [if_neg (by simp [hcand]), candidateTrigger_of_solo (by exact hsolo), trigger_of_busy (by exact hbusy)]
      rfl
    · obtain ⟨-, -, hrole, huid, hheld, hpos⟩ := enterMuster_of_candidate (src := .device)
        (s := { s with head := enabledHead v s.head }) hen hrole
      rw [if_neg (by simp [hcand]), candidateTrigger_of_solo (by exact hsolo), trigger_of_free (by exact hbusy),
        takeTrigger_candidate (by exact hsolo) (by exact hauto)]
      exact ⟨congrArg ModeCtl.code (enterMode_mode _ _ _), congrArg ModeCtl.busy (enterMode_mode _ _ _),
        hrole, huid, hheld, hpos⟩
  case noQueue => rw [exec_headCellQueue, if_neg (by simp [h])]
  case queue =>
    refine ⟨_, (exec_headCellQueue r s).trans (congrArg Host.Outcome.next (if_pos h)), ?_⟩
    obtain ⟨hframe, hroom, hfull⟩ := writeHtx_queues r s.head
    exact ⟨congrArg s.setHead hframe, hroom, hfull⟩
  case noCount => rw [exec_ctsetLoad, if_neg (by simp [h])]
  case count =>
    rw [exec_ctsetLoad, if_pos h, writeCtset, Bool.true_and]
  case noGenlock =>
    refine ⟨?_, fun r t0 => ?_⟩
    · rw [exec_genlockLoss, if_neg (by simp [h])]
    · rw [exec_genlockEdge, if_neg (by simp [h])]
  case edge =>
    refine ⟨fun hr => ?_, fun hr => ⟨genlockEdge t0 s, ?_, ?_, fun hfew => ?_, fun hmany => ?_⟩⟩
    · rw [exec_genlockEdge, if_neg (by simp [hr])]
    · rw [exec_genlockEdge, if_pos (by simp [h, hr])]
    · exact genlockEdge_frame t0 s
    · rw [genlockEdge, if_pos hfew]
    · rw [genlockEdge, if_neg (by omega)]
      obtain ⟨hlo, hhi⟩ := trim_genlockCompare t0 s
      exact ⟨rfl, hlo, hhi, fun h1 h2 => pherr_genlockCompare h1 h2⟩
  case loss => rw [exec_genlockLoss, if_pos h]
  case uplink =>
    have hexec := exec_uplinkCell r u c s
    rw [if_neg (by simp [h])] at hexec
    refine ⟨fun hbad => ?_, fun hok h6 h2 => ?_, fun hok hno h5 => ?_⟩
    · rw [hexec, if_pos (by simp [hbad])]
    · rw [if_neg (by simp [hok]), uplinkPass_hello h6 h2] at hexec
      obtain ⟨hhellos, hframe, hidle⟩ := countEnd_spec { s with head := withHello u s.head }
      refine ⟨_, hexec, ?_, hframe, fun hc => ?_⟩
      · rw [hhellos]
        exact mem_withHello u s.head
      · rw [hidle hc]
        rfl
    · rw [hexec, if_neg (by simp [hok]), uplinkPass_other hno h5]

end Sys2Proof.Machine

/-! SUPPORT. One instruction of a kestrel on the state that its fetch leaves (R267, R274, R278, R290-R295): how it completes,
traps, halts and enters the store buffer. -/

namespace Sys2Proof.Machine

/-! ## The fetch -/

/-- What a fetch changes: ECC counters and causes (R267, R302). -/
def State.fetching (e : Ecc) (i : Word) (s : State) : State := { s with ecc := e, host := { s.host with isr := i } }

/-- An ECC block that the fetch of kestrel `k` can leave. -/
def FetchedEcc (k : KIdx) (s : State) (e : Ecc) : Prop := eccClass (rawWord s.mem (fetchAddr s k)) ≠ .corrected → e = s.ecc

/-- A row whose instruction stands at PC executes it on a state that differs by the fetch alone. -/
theorem kRun_fetching {s : State} {k : KIdx} {i : KInstr} {sel : KInstr → Option (Word → State → State)}
    {f : Word → State → State} (h : Executes s k i) (hs : sel i = some f) :
    ∃ e x, FetchedEcc k s e ∧ kRun k sel s = f (fetched s k).1 (s.fetching e x) := by
  obtain ⟨hframe, hecc⟩ := fetch_frame h.2.2
  refine ⟨(memReadEffect (kSrc k) (fetchAddr s k) s).ecc, (memReadEffect (kSrc k) (fetchAddr s k) s).host.isr, hecc, ?_⟩
  rw [kRun_spec sel f h hs]
  exact congrArg _ hframe

/-- A change of kestrel `k` alone. -/
theorem HaltOnly.only {k : KIdx} {s t : State} (h : HaltOnly k s t) : OnlyKestrel k s t ∧ t.mgt = s.mgt ∧ t.mem = s.mem := by
  obtain ⟨hframe, hothers, -⟩ := h
  refine ⟨⟨?_, ?_, fun _ => ?_, hothers⟩, ?_, ?_⟩ <;> rw [hframe]

theorem HaltOnly.of_fetching {k : KIdx} {s t : State} {e : Ecc} {x : Word} (he : FetchedEcc k s e)
    (h : HaltOnly k (s.fetching e x) t) : OnlyKestrel k s t ∧ t.mgt = s.mgt ∧ t.mem = s.mem := by
  obtain ⟨hframe, hothers, -⟩ := h
  refine ⟨⟨?_, ?_, fun hc => ?_, hothers⟩, ?_, ?_⟩
  · rw [hframe]; rfl
  · rw [hframe]; rfl
  · rw [hframe]; exact he hc
  · rw [hframe]; rfl
  · rw [hframe]; rfl

/-! ## Causes survive what follows an instruction -/

theorem debugHalt_keepsRaised (k : KIdx) (cause : BitVec 3) (s : State) : KeepsRaised s (debugHalt k cause s) := by
  have hisr (u : State) : (freezeTimers k u).host.isr = u.host.isr := by
    obtain ⟨hframe, -⟩ := freezeTimers_froze k u
    generalize freezeTimers k u = t at hframe
    rw [hframe]
  exact fun c hc => KeepsRaised.of_isr (hisr _) c ((raise_raises .khalt _).2 c hc)

theorem afterInstr_keepsRaised (k : KIdx) (s : State) : KeepsRaised s (afterInstr k s) := by
  unfold afterInstr
  dsimp only
  split
  · exact .of_isr rfl
  split
  · exact fun _ hc => hc
  have hpark : KeepsRaised s (when (kes s k).parkReq (modK k fun c => { c with parked := true, parkReq := false }) s) := by
    unfold when
    split
    · exact .of_isr rfl
    · exact fun _ hc => hc
  refine hpark.trans ?_
  split
  · exact debugHalt_keepsRaised k 0 _
  split
  · exact debugHalt_keepsRaised k 3 _
  · exact .of_isr rfl

/-! ## An instruction that completes -/

theorem modK_congr {k : KIdx} {f g : Kestrel → Kestrel} {s : State} (h : f (kes s k) = g (kes s k)) :
    modK k f s = modK k g s := by
  have hk : s.kst.core[k.val]? = some (kes s k) := by simp [kes, vget]
  simp only [modK, vmod, hk, h]

/-- What follows an instruction touches the controls of the kestrel alone. -/
theorem GoesOn.frame {k : KIdx} {c : Kestrel} {s t : State} (h : GoesOn k c s t) :
    kes t k = { c with
      parked := (kes t k).parked, parkReq := (kes t k).parkReq, skipBrk := (kes t k).skipBrk, halted := (kes t k).halted
      hcause := (kes t k).hcause, haltReq := (kes t k).haltReq, stepping := (kes t k).stepping } := by
  obtain ⟨hruns, hhalts⟩ := h
  by_cases hq : c.haltReq = true ∨ c.stepping = true
  · rw [(hhalts hq).2.1]
  · rw [not_or, Bool.not_eq_true, Bool.not_eq_true] at hq
    rw [(hruns hq.1 hq.2).1]

/-- The kestrel once its instruction has written `v` to `rd`, after `n` cycles. -/
def Kestrel.finish (rd : Fin 16) (v : Word) (m : Bool) (pc : BitVec 14) (n : Nat) (c : Kestrel) : Kestrel :=
  { c with
    regs := (c.setReg rd v m).regs, mark := (c.setReg rd v m).mark, pc := pc, cyc := c.cyc + BitVec.ofNat 64 n, wait := .none }

theorem Kestrel.finish_eq (rd : Fin 16) (v : Word) (m : Bool) (pc : BitVec 14) (n : Nat) (c : Kestrel) :
    { (c.setReg rd v m).done pc n with wait := .none } = c.finish rd v m pc n := by
  unfold Kestrel.finish Kestrel.done Kestrel.setReg
  split <;> rfl

theorem Kestrel.reg_finish (rd : Fin 16) (v : Word) (m : Bool) (pc : BitVec 14) (n : Nat) (c : Kestrel) (r : Fin 16) :
    (c.finish rd v m pc n).reg r = (if r = rd ∧ r ≠ 0 then v else c.reg r) ∧
      (c.finish rd v m pc n).bad r = (if r = rd ∧ r ≠ 0 then m else c.bad r) := by
  by_cases hrd : rd = 0
  · subst hrd
    by_cases h0 : r = 0 <;> simp [Kestrel.finish, Kestrel.reg, Kestrel.bad, Kestrel.setReg, h0]
  · by_cases h0 : r = 0
    · simp [Kestrel.reg, Kestrel.bad, h0]
    · by_cases he : r = rd
      · subst he
        simp [Kestrel.finish, Kestrel.reg, Kestrel.bad, Kestrel.setReg, h0]
      · have hne : ¬rd.val = r.val := fun h => he (Fin.ext h.symm)
        simp [Kestrel.finish, Kestrel.reg, Kestrel.bad, Kestrel.setReg, h0, he, hrd, hne]

section

variable {k : KIdx} {s : State} (hg : Going s k) (rd : Fin 16) (v : Word) (m : Bool) (pc : BitVec 14) (n : Nat)

include hg

/-- An instruction that writes `rd` completes so. -/
theorem complete_finish :
    HaltOnly k s (complete k (Kestrel.finish rd v m pc n) s) ∧
      GoesOn k ((kes s k).finish rd v m pc n) s (complete k (Kestrel.finish rd v m pc n) s) :=
  complete_spec k _ s (Going.modK hg) rfl

theorem complete_finish_kes :
    let t := complete k (Kestrel.finish rd v m pc n) s
    kes t k = { (kes s k).finish rd v m pc n with
      parked := (kes t k).parked, parkReq := (kes t k).parkReq, skipBrk := (kes t k).skipBrk, halted := (kes t k).halted
      hcause := (kes t k).hcause, haltReq := (kes t k).haltReq, stepping := (kes t k).stepping } :=
  (complete_finish hg rd v m pc n).2.frame

theorem complete_finished : Finished k rd v m pc s (complete k (Kestrel.finish rd v m pc n) s) := by
  have hgoes := (complete_finish hg rd v m pc n).2
  have hkes := complete_finish_kes hg rd v m pc n
  generalize complete k (Kestrel.finish rd v m pc n) s = t at hgoes hkes
  have hregs : (kes t k).regs = ((kes s k).setReg rd v m).regs := by rw [hkes]; rfl
  have hmark : (kes t k).mark = ((kes s k).setReg rd v m).mark := by rw [hkes]; rfl
  have hcyc : (kes t k).cyc = (kes s k).cyc + BitVec.ofNat 64 n := by rw [hkes]; rfl
  have hsbuf : (kes t k).sbuf = (kes s k).sbuf := by rw [hkes]; rfl
  refine ⟨?_, by rw [hsbuf], fun r => ?_⟩
  · rw [hregs, hmark, hcyc, hsbuf]
    exact hgoes
  · obtain ⟨hreg, hbad⟩ := Kestrel.reg_finish rd v m pc n (kes s k) r
    refine ⟨Eq.trans ?_ hreg, Eq.trans ?_ hbad⟩
    · simp only [Kestrel.reg, hregs, Kestrel.finish]
    · simp only [Kestrel.bad, hmark, Kestrel.finish]

end

/-- A finished instruction wrote its register. -/
theorem Finished.reg {k : KIdx} {rd : Fin 16} {v : Word} {m : Bool} {pc : BitVec 14} {s t : State}
    (h : Finished k rd v m pc s t) (hrd : rd ≠ 0) : (kes t k).reg rd = v := by
  obtain ⟨-, -, hregs⟩ := h
  rw [(hregs rd).1, if_pos ⟨rfl, hrd⟩]

theorem Kestrel.eq_of_wait {c : Kestrel} (h : c.wait = .none) : c = { c with wait := .none } := by
  rw [← h]

/-- The form that the instructions themselves complete in. -/
theorem complete_setReg {k : KIdx} {s : State} (hw : (kes s k).wait = .none) (rd : Fin 16) (v : Word) (m : Bool) (n : Nat) :
    complete k (fun c => (c.setReg rd v m).done c.next n) s =
      complete k (Kestrel.finish rd v m ((kes s k).pc + 4) n) s := by
  refine congrArg (afterInstr k) (modK_congr ?_)
  have hwait : (((kes s k).setReg rd v m).done ((kes s k).pc + 4) n).wait = .none := by
    rw [← hw, Kestrel.done, Kestrel.setReg]
    split <;> rfl
  rw [← Kestrel.finish_eq]
  exact Kestrel.eq_of_wait hwait

/-- An instruction that writes its register, on the state that the fetch leaves of `b`. -/
theorem wrote_fetching {k : KIdx} {b : State} {e : Ecc} {x : Word} (he : FetchedEcc k b e) (hg : Going b k)
    (hw : (kes b k).wait = .none) (rd : Fin 16) (v : Word) :
    Wrote k rd v false ((kes b k).pc + 4) b
      (complete k (fun c => (c.setReg rd v false).done c.next 1) (b.fetching e x)) := by
  rw [complete_setReg (s := b.fetching e x) hw]
  have hhalt := (complete_finish (s := b.fetching e x) hg rd v false ((kes b k).pc + 4) 1).1
  have hsbuf := congrArg Kestrel.sbuf (complete_finish_kes (s := b.fetching e x) hg rd v false ((kes b k).pc + 4) 1)
  obtain ⟨hgoes, hentries, hregs⟩ := complete_finished (s := b.fetching e x) hg rd v false ((kes b k).pc + 4) 1
  obtain ⟨honly, hmgt, -⟩ := hhalt.of_fetching he
  exact ⟨honly, hmgt, hsbuf, hgoes.congr rfl rfl, hentries, hregs⟩

/-! ## Traps (R274, R295) -/

theorem trap_trapped {k : KIdx} {s : State} {e : Ecc} {x : Word} (he : FetchedEcc k s e) (hg : Going s k)
    (hin : (kes s k).intrap = false) (cause : BitVec 4) (info : Word) :
    Trapped k cause info s (trap k cause info (s.fetching e x)) := by
  have htrap : trap k cause info (s.fetching e x) =
      afterInstr k (raise .ktrap (modK k (fun c => c.trapped cause info) (s.fetching e x))) :=
    if_neg (by rw [Bool.not_eq_true]; exact hin)
  rw [htrap]
  obtain ⟨v, hv⟩ : ∃ v, v = raise .ktrap (modK k (fun c => c.trapped cause info) (s.fetching e x)) := ⟨_, rfl⟩
  have hkes (j : Nat) : kes v j = kes (modK k (fun c => c.trapped cause info) (s.fetching e x)) j := by rw [hv]; rfl
  have hself : kes v k = (kes s k).trapped cause info := (hkes k).trans (kes_modK_self k _ _)
  have hframe : v = { s with kst := v.kst, ecc := e, host := v.host, mgt := v.mgt } ∧ v.host.win = s.host.win := by
    refine ⟨by rw [hv]; rfl, ?_⟩
    rw [hv, raise_host]
    rfl
  have hraised : raised .ktrap v = true := by rw [hv]; exact raised_raise _ _
  rw [← hv]
  clear hv
  obtain ⟨hrst, hhalted, hdfault⟩ := hg
  obtain ⟨⟨hafter, hothers, -⟩, hgoes⟩ := afterInstr_spec k v
    ⟨by rw [hself]; exact hrst, by rw [hself]; exact hhalted, by rw [hself]; exact hdfault⟩ (by rw [hself]; rfl)
  have hkeep := afterInstr_keepsRaised k v .ktrap hraised
  obtain ⟨hs, hwin⟩ := hframe
  rw [hself] at hgoes
  generalize afterInstr k v = t at hafter hothers hgoes hkeep
  refine ⟨⟨?_, ?_, fun hc => ?_, fun j hj => ?_⟩, hkeep, hgoes.congr (by rw [hs]) (by rw [hs])⟩
  · rw [hafter, hs]
  · rw [hafter]; exact hwin
  · rw [hafter, hs]; exact he hc
  · rw [hothers j hj, hkes, kes_modK, if_neg fun h => hj (Fin.ext h)]
    rfl

theorem trap_doubleFaulted {k : KIdx} {s : State} {e : Ecc} {x : Word} (he : FetchedEcc k s e)
    (hin : (kes s k).intrap = true) (cause : BitVec 4) (info : Word) :
    DoubleFaulted k s (trap k cause info (s.fetching e x)) := by
  have htrap : trap k cause info (s.fetching e x) =
      doubleFault k (modK k (fun c => { c with wait := .none }) (s.fetching e x)) := if_pos hin
  rw [htrap, doubleFault]
  obtain ⟨hhalt, hraised, hkes⟩ := debugHalt_spec k 4 (modK k (fun c => { c with wait := .none }) (s.fetching e x))
  obtain ⟨honly, hmgt, -⟩ := ((modK_haltOnly k _ (s.fetching e x)).trans
    (hhalt.trans (modK_haltOnly k (fun c => { c with dfault := true }) _))).of_fetching he
  refine ⟨honly, hraised, hmgt, ?_⟩
  rw [kes_modK_self, hkes, kes_modK_self]
  rfl

/-- A trap that is no bus error, on the state that the fetch leaves. -/
theorem takeTrap_traps {k : KIdx} {s : State} {e : Ecc} {x : Word} (he : FetchedEcc k s e) (hg : Going s k) (w : Word) :
    Traps k 4 w s (takeTrap k (4, w) (s.fetching e x)) :=
  ⟨fun hin => trap_trapped he hg hin 4 w, fun hin => trap_doubleFaulted he hin 4 w⟩

theorem orTrap_of_true {k : KIdx} {b : Bool} (h : b = true) (w : Word) (f : State → State) (s : State) :
    orTrap k (trapIf b 4 w) f s = takeTrap k (4, w) s := by rw [h]; rfl

theorem orTrap_of_false {k : KIdx} {b : Bool} (h : b = false) (w : Word) (f : State → State) (s : State) :
    orTrap k (trapIf b 4 w) f s = f s := by rw [h]; rfl

/-! ## A debug halt of a kestrel that waits for nothing (R293) -/

theorem debugHalt_idle {k : KIdx} {s : State} (hw : (kes s k).wait = .none) (cause : BitVec 3) :
    kes (debugHalt k cause s) k = { kes s k with
      halted := true, hcause := cause, haltReq := false, stepping := false, skipBrk := false } := by
  rw [(debugHalt_spec k cause s).2.2, Kestrel.dropWait, hw]

/-! ## The store buffer (R278) -/

theorem SbEntry.withAdm_issue (s : State) (k : KIdx) (e : SbEntry) :
    (e.issue s k).withAdm (fun _ => none) = e.withAdm fun _ => none := by
  cases e <;> rfl

theorem entries_issueFrom (s : State) (k : KIdx) (i : Option Nat) (es : List SbEntry) :
    entries (issueFrom s k i es) = entries es := by
  induction es with
  | nil => rfl
  | cons e es ih =>
    rw [issueFrom]
    split
    · exact congrArg₂ List.cons (e.withAdm_issue s k) ih
    · rfl

theorem entries_issueBuf (s : State) (k : KIdx) (busy : Option Nat) (es : List SbEntry) :
    entries (issueBuf s k busy es) = entries es := by
  cases es with
  | nil => rfl
  | cons e es =>
    rw [issueBuf]
    split
    · rfl
    · exact congrArg₂ List.cons (e.withAdm_issue s k) (entries_issueFrom s k _ es)

/-- An instruction that entered `e` has completed: `e` stands behind what the buffer held. -/
def Kestrel.entered (e : SbEntry) (c : Kestrel) : Kestrel :=
  { c.done c.next 1 with sbuf := c.sbuf ++ [e], wait := .none }

theorem enter_eq (k : KIdx) (e : SbEntry) (s : State) : enter k e s = issueAll k (complete k (Kestrel.entered e) s) := rfl

/-- What issues behind a kestrel that waits for nothing is its buffer (R278). -/
theorem issueAll_idle {k : KIdx} {s : State} (hw : (kes s k).wait = .none) :
    issueAll k s = modK k (fun c => { c with sbuf := issueBuf s k none c.sbuf }) s := by
  refine modK_congr ?_
  have hwait : issueWait s k (kes s k) = .none := by rw [issueWait, hw]
  rw [hwait]
  exact congrArg (fun w => { kes s k with sbuf := issueBuf s k none (kes s k).sbuf, wait := w }) hw.symm

/-- The buffer moves on beside what follows the instruction. -/
theorem GoesOn.withSbuf {k : KIdx} {c : Kestrel} {s u : State} (h : GoesOn k c s u) (b : List SbEntry) :
    GoesOn k { c with sbuf := b } s (modK k (fun x => { x with sbuf := b }) u) := by
  obtain ⟨hruns, hhalts⟩ := h
  refine ⟨fun hreq hstep => ?_, fun hq => ?_⟩
  · obtain ⟨hkes, hgpt, hfree⟩ := hruns hreq hstep
    exact ⟨by rw [kes_modK_self, hkes], hgpt, hfree⟩
  · obtain ⟨hraised, hkes, hgpt⟩ := hhalts hq
    exact ⟨hraised, by rw [kes_modK_self, hkes], hgpt⟩

/-- An unissued post enters the buffer (R278, R288). -/
theorem enter_buffered {k : KIdx} {s : State} {e : Ecc} {x : Word} (he : FetchedEcc k s e) (hg : Going s k) (p : EvBytes)
    (n : BitVec 4) : Buffered k (.post p n none) s (enter k (.post p n none) (s.fetching e x)) := by
  obtain ⟨hhalt, hgoes⟩ := complete_spec k (Kestrel.entered (.post p n none)) (s.fetching e x) (Going.modK hg) rfl
  rw [enter_eq]
  generalize complete k (Kestrel.entered (.post p n none)) (s.fetching e x) = u at hhalt hgoes
  have hkes := hgoes.frame
  have hwait : (kes u k).wait = .none := by rw [hkes]; rfl
  have hsbuf : (kes u k).sbuf = (kes s k).sbuf ++ [.post p n none] := by rw [hkes]; rfl
  have hadm : admission u (.kestrel k) (SbEntry.post p n none).addr true =
      admission s (.kestrel k) (SbEntry.post p n none).addr true := by rw [hhalt.1]; rfl
  obtain ⟨b, hb⟩ : ∃ b, b = issueBuf u k none ((kes s k).sbuf ++ [.post p n none]) := ⟨_, rfl⟩
  have hissue : issueAll k u = modK k (fun c => { c with sbuf := b }) u := by
    rw [issueAll_idle hwait]
    exact modK_congr (by rw [hb, hsbuf])
  have hself := kes_modK_self k (fun c => { c with sbuf := b }) u
  have hcyc : (kes u k).cyc = (kes s k).cyc + 1 := by rw [hkes]; rfl
  obtain ⟨honly, hmgt, -⟩ := (hhalt.trans (modK_haltOnly k (fun c => { c with sbuf := b }) u)).of_fetching he
  have hon := (hgoes.withSbuf b).congr (s := s) rfl rfl
  rw [hissue]
  refine ⟨honly, hmgt, ?_, fun hempty => ?_, ?_⟩
  · rw [hself, hb, entries_issueBuf]
  · rw [hself, hb, hempty]
    exact congrArg (fun a => [SbEntry.post p n (some a)]) hadm
  · rw [hself, hcyc]
    exact hon

end Sys2Proof.Machine

/-! SUPPORT. The special registers, POST and WAIT of a kestrel, and its start, stop and halt (R273, R283-R295). -/

namespace Sys2Proof.Machine

/-! ## The instruction that completes on any state (R283-R287) -/

/-- What decides how a kestrel goes on: its PC, its wait and what has stopped it. -/
def Kestrel.course (c : Kestrel) : BitVec 14 × KWait × Bool × Bool × Bool := (c.pc, c.wait, c.rst, c.halted, c.dfault)

theorem course_eq {c d : Kestrel} (h : d.course = c.course) :
    d.pc = c.pc ∧ d.wait = c.wait ∧ d.rst = c.rst ∧ d.halted = c.halted ∧ d.dfault = c.dfault := by
  simpa [Kestrel.course] using h

section

variable {k : KIdx} {s u : State} (hg : Going s k) (hw : (kes s k).wait = .none)
  (hu : (kes u k).course = (kes s k).course) (rd : Fin 16) (v : Word)

include hg hw hu

theorem going_of_course : Going u k ∧ (kes u k).wait = .none := by
  obtain ⟨-, hwait, hrst, hhalted, hdfault⟩ := course_eq hu
  obtain ⟨h1, h2, h3⟩ := hg
  exact ⟨⟨hrst.trans h1, hhalted.trans h2, hdfault.trans h3⟩, hwait.trans hw⟩

/-- What the completion of an instruction that writes `rd` leaves of the state that it acts on. -/
theorem complete_setReg_spec :
    let t := complete k (fun c => (c.setReg rd v false).done c.next 1) u
    HaltOnly k u t ∧ KeepsRaised u t ∧ (kes t k).pc = (kes s k).pc + 4 ∧ (rd ≠ 0 → (kes t k).reg rd = v) ∧
      (kes t k).pend = (kes u k).pend ∧ (kes t k).cyc = (kes u k).cyc + 1 ∧ (kes t k).cychi = (kes u k).cychi := by
  obtain ⟨hgu, hwu⟩ := going_of_course hg hw hu
  have hpc := (course_eq hu).1
  have hraised : KeepsRaised u (complete k (Kestrel.finish rd v false ((kes u k).pc + 4) 1) u) :=
    fun c hc => afterInstr_keepsRaised k _ c hc
  rw [complete_setReg hwu]
  have hkes := complete_finish_kes hgu rd v false ((kes u k).pc + 4) 1
  refine ⟨(complete_finish hgu rd v false _ 1).1, hraised, ?_, (complete_finished hgu rd v false _ 1).reg, ?_, ?_, ?_⟩
  · rw [hkes, ← hpc]; rfl
  · rw [hkes]; rfl
  · rw [hkes]; rfl
  · rw [hkes]; rfl

end

/-- A change of kestrel `k` and of host registers beside the windows. -/
theorem HaltOnly.of_host {k : KIdx} {s u t : State} {e : Ecc} (he : FetchedEcc k s e)
    (hu : u = { s with kst := u.kst, ecc := e, host := u.host }) (hwin : u.host.win = s.host.win)
    (hkes : ∀ j : KIdx, j ≠ k → kes u j = kes s j) (h : HaltOnly k u t) : OnlyKestrel k s t := by
  obtain ⟨hframe, hothers, -⟩ := h
  refine ⟨?_, ?_, fun hc => ?_, fun j hj => (hothers j hj).trans (hkes j hj)⟩
  · rw [hframe, hu]
  · rw [hframe]; exact hwin
  · rw [hframe, hu]; exact he hc

/-- An instruction that changes kestrel `k` by `g` beside, and writes its register. -/
theorem wrote_modK {k : KIdx} {s : State} {e : Ecc} {x : Word} (he : FetchedEcc k s e) (hg : Going s k)
    (hw : (kes s k).wait = .none) (rd : Fin 16) (v : Word) {g : Kestrel → Kestrel}
    (hcourse : (g (kes s k)).course = (kes s k).course) :
    Wrote k rd v false ((kes s k).pc + 4) (modK k g s)
      (complete k (fun c => (c.setReg rd v false).done c.next 1) ((modK k g s).fetching e x)) := by
  have hself := kes_modK_self k g s
  have hb : (kes (modK k g s) k).course = (kes s k).course := by rw [hself]; exact hcourse
  obtain ⟨hgb, hwb⟩ := going_of_course hg hw hb
  have hpc := (course_eq hb).1
  have heb : FetchedEcc k (modK k g s) e := by
    unfold FetchedEcc fetchAddr
    rw [hpc]
    exact he
  have hwrote := wrote_fetching (x := x) heb hgb hwb rd v
  rwa [hpc] at hwrote

/-! ## The special registers (R273, R283-R287) -/

/-- The row of an SPR act (Table 11.2). -/
def SprAct.row (a : SprAct) (k : KIdx) : Instr :=
  match a with
  | .rd => .kSprRd k
  | .wr => .kSprWr k
  | .set => .kSprSet k
  | .clr => .kSprClr k

theorem exec_spr_row (a : SprAct) (k : KIdx) (s : State) : exec (a.row k) s = .next (kSpr a k s) := by
  cases a <;> rfl

/-- What an SPR instruction does before it completes. -/
def sprEffect (k : KIdx) (a : SprAct) (ra : Fin 16) (sr : BitVec 12) (s u : State) : State :=
  if a.writes ra then
    sprAct k a sr.toNat (sprValue s k sr.toNat) ((kes s k).reg ra) (sprReadEffect k sr.toNat u)
  else sprReadEffect k sr.toNat u

section

variable {k : KIdx} {s : State} {a : SprAct} {rd ra : Fin 16} {sr : BitVec 12} (h : Executes s k (.spr a rd ra sr))

include h

theorem exec_spr : ∃ e x, FetchedEcc k s e ∧
    exec (a.row k) s = .next (sprStep k a rd ra sr (fetched s k).1 (s.fetching e x)) := by
  obtain ⟨e, x, he, hrun⟩ := kRun_fetching (f := sprStep k a rd ra sr)
    (sel := fun i => match i with | .spr b rd ra sr => if b = a then some (sprStep k a rd ra sr) else none | _ => none) h
    (if_pos rfl)
  refine ⟨e, x, he, ?_⟩
  rw [exec_spr_row]
  exact congrArg Host.Outcome.next hrun

theorem exec_spr_traps (ha : a ≠ .rd) (hbad : (kes s k).bad ra = true) : Gives (a.row k) s (Traps k 4 (fetched s k).1 s) := by
  obtain ⟨e, x, he, hexec⟩ := exec_spr h
  have hb : (a != .rd && (kes (s.fetching e x) k).bad ra) = true := by
    rw [bne_iff_ne.mpr ha]
    exact hbad
  rw [sprStep, orTrap_of_true hb] at hexec
  exact ⟨_, hexec, takeTrap_traps he h.going.1 _⟩

theorem exec_spr_completes (hb : a = .rd ∨ (kes s k).bad ra = false) : ∃ e x, FetchedEcc k s e ∧
    exec (a.row k) s = .next (complete k (fun c => (c.setReg rd (sprValue s k sr.toNat) false).done c.next 1)
      (sprEffect k a ra sr s (s.fetching e x))) := by
  obtain ⟨e, x, he, hexec⟩ := exec_spr h
  have hgood : (a != .rd && (kes (s.fetching e x) k).bad ra) = false := by
    obtain rfl | hb := hb
    · rfl
    · rw [Bool.and_eq_false_iff]
      exact .inr hb
  rw [sprStep, orTrap_of_false hgood] at hexec
  exact ⟨e, x, he, hexec⟩

/-- An SPR instruction that changes nothing beside its register. -/
theorem spr_wrote (hb : a = .rd ∨ (kes s k).bad ra = false)
    (hidle : ∀ u, sprEffect k a ra sr s u = u) :
    Gives (a.row k) s (Wrote k rd (sprValue s k sr.toNat) false ((kes s k).pc + 4) s) := by
  obtain ⟨e, x, he, hexec⟩ := exec_spr_completes h hb
  obtain ⟨hg, hw, -⟩ := h.going
  rw [hidle] at hexec
  exact ⟨_, hexec, wrote_fetching he hg hw rd _⟩

/-- An SPR instruction that changes registers of its kestrel. -/
theorem spr_wrote_modK (hb : a = .rd ∨ (kes s k).bad ra = false) {g : Kestrel → Kestrel}
    (hcourse : (g (kes s k)).course = (kes s k).course)
    (hmod : ∀ e x, sprEffect k a ra sr s (s.fetching e x) = (modK k g s).fetching e x) :
    Gives (a.row k) s (Wrote k rd (sprValue s k sr.toNat) false ((kes s k).pc + 4) (modK k g s)) := by
  obtain ⟨e, x, he, hexec⟩ := exec_spr_completes h hb
  obtain ⟨hg, hw, -⟩ := h.going
  rw [hmod] at hexec
  exact ⟨_, hexec, wrote_modK he hg hw rd _ hcourse⟩

end

/-- Reading an SR other than CYCLO and CTLO changes nothing. -/
theorem sprReadEffect_idle {sr : BitVec 12} (h1 : sr ≠ 0x102) (h2 : sr ≠ 0x110) (k : KIdx) (u : State) :
    sprReadEffect k sr.toNat u = u := by
  unfold sprReadEffect
  split
  · next h => exact absurd (BitVec.eq_of_toNat_eq h) h1
  · next h => exact absurd (BitVec.eq_of_toNat_eq h) h2
  · rfl

theorem sprEffect_idle {sr : BitVec 12} (h1 : sr ≠ 0x102) (h2 : sr ≠ 0x110) {a : SprAct} {ra : Fin 16}
    (hw : a.writes ra = false) (k : KIdx) (s u : State) : sprEffect k a ra sr s u = u := by
  rw [sprEffect, if_neg (by simp [hw]), sprReadEffect_idle h1 h2]

/-- The SRs that no reading changes and that are not PEND (Table 11.4). -/
def plainSrs : List (BitVec 12) :=
  [0x112, 0x113, 0x130, 0x131, 0x132, 0x133, 0x134, 0x121, 0x122, 0x124, 0x100, 0x101, 0x103, 0x111, 0x123]

theorem plainSrs_spec : ∀ sr ∈ plainSrs, sr ≠ 0x102 ∧ sr ≠ 0x110 ∧ sr.toNat ≠ 0x120 := by decide

/-- A writing SPR instruction writes its value to a plain SR. -/
theorem sprEffect_plain {sr : BitVec 12} (h : sr ∈ plainSrs) {a : SprAct} {ra : Fin 16} (hw : a.writes ra = true) (k : KIdx)
    (s u : State) :
    sprEffect k a ra sr s u = sprWrite k sr.toNat (a.value (sprValue s k sr.toNat) ((kes s k).reg ra)) u := by
  obtain ⟨h1, h2, h3⟩ := plainSrs_spec sr h
  rw [sprEffect, if_pos hw, sprReadEffect_idle h1 h2, sprAct, if_neg h3]

/-- The SRs that hold what is written, each with the kestrel that a write of `w` leaves of `c` (Table 11.4). -/
def sprRegisters (w : Word) (c : Kestrel) : List (BitVec 12 × Kestrel) :=
  [(0x112, { c with tgtlo := w }), (0x113, { c with tgthi := w, target := w ++ c.tgtlo }), (0x130, { c with tpc := pcOf w }),
    (0x131, { c with tcause := w.setWidth 4 }), (0x132, { c with tinfo := w }), (0x133, { c with tentry := pcOf w }),
    (0x134, { c with intrap := bit w 0 })]

theorem mem_plainSrs_of_register {w : Word} {c : Kestrel} {y : BitVec 12 × Kestrel} (hy : y ∈ sprRegisters w c) :
    y.1 ∈ plainSrs := by
  have hsub : ∀ sr ∈ (sprRegisters w c).map Prod.fst, sr ∈ plainSrs := by
    have hmap : (sprRegisters w c).map Prod.fst = plainSrs.take 7 := rfl
    rw [hmap]
    decide
  exact hsub _ (List.mem_map_of_mem hy)

theorem sprWrite_register {k : KIdx} {s : State} {w : Word} {y : BitVec 12 × Kestrel} (hy : y ∈ sprRegisters w (kes s k)) :
    sprWrite k y.1.toNat w s = modK k (fun _ => y.2) s ∧ y.2.course = (kes s k).course := by
  simp only [sprRegisters, List.mem_cons, List.not_mem_nil, or_false] at hy
  obtain rfl | rfl | rfl | rfl | rfl | rfl | rfl := hy
  · exact ⟨modK_congr (f := fun c => { c with tgtlo := w }) rfl, rfl⟩
  · exact ⟨modK_congr (f := fun c => { c with tgthi := w, target := w ++ c.tgtlo }) rfl, rfl⟩
  · exact ⟨modK_congr (f := fun c => { c with tpc := pcOf w }) rfl, rfl⟩
  · exact ⟨modK_congr (f := fun c => { c with tcause := low 4 w }) rfl, rfl⟩
  · exact ⟨modK_congr (f := fun c => { c with tinfo := w }) rfl, rfl⟩
  · exact ⟨modK_congr (f := fun c => { c with tentry := pcOf w }) rfl, rfl⟩
  · exact ⟨modK_congr (f := fun c => { c with intrap := bit w 0 }) rfl, rfl⟩

/-! ## The SRs that act beside their kestrel (R285, R287) -/

theorem kes_signal (m : Word) (s : State) (j : KIdx) :
    kes (signal m s) j = if bit m j.val then { kes s j with pend := setBit (kes s j).pend 15 true } else kes s j := by
  simp [kes, signal, vget]

theorem course_signal (m : Word) (s : State) (j : KIdx) : (kes (signal m s) j).course = (kes s j).course := by
  rw [kes_signal]
  split <;> rfl

theorem ringHost_frame (k : KIdx) (m : Word) (s : State) :
    ringHost k m s = { s with host := (ringHost k m s).host } ∧ (ringHost k m s).host.win = s.host.win ∧
      (bit m 0 = true → bit (ringHost k m s).host.dbh k.val = true ∧ raised .dbell (ringHost k m s) = true) ∧
      (bit m 0 = false → (ringHost k m s).host.dbh = s.host.dbh) := by
  unfold ringHost
  split
  · next h =>
    refine ⟨?_, ?_, fun _ => ⟨?_, raised_raise _ _⟩, fun hb => absurd h (by simp [hb])⟩
    · rw [raise_of_unlogged rfl rfl]
      rfl
    · rw [raise_host]
    · rw [raise_host]
      exact (bit_setBit _ _ _ _ k.isLt).trans (if_pos rfl)
  · next h => exact ⟨rfl, rfl, fun hb => absurd hb h, fun _ => rfl⟩

/-- The response of cue code to the host (R287). -/
def respond (w : Word) (s : State) : State := { s with host := { s.host with dbrsp := low 16 w } }

theorem pendClear_spec (k : KIdx) (m : Word) (s : State) :
    pendClear k m s = { s with kst := (pendClear k m s).kst, host := (pendClear k m s).host } ∧
      (pendClear k m s).host.win = s.host.win ∧
      (∀ j : Nat, kes (pendClear k m s) j = kes (modK k (fun c => { c with pend := c.pend &&& ~~~(low 16 m) }) s) j) ∧
      (bit m 1 = true → bit (pendClear k m s).host.dbk k.val = false) ∧
      (bit m 1 = false → (pendClear k m s).host.dbk = s.host.dbk) := by
  unfold pendClear
  dsimp only
  split
  · next h => exact ⟨rfl, rfl, fun _ => rfl, fun _ => (bit_setBit _ _ _ _ k.isLt).trans (if_pos rfl),
      fun hb => absurd h (by simp [hb])⟩
  · next h => exact ⟨rfl, rfl, fun _ => rfl, fun hb => absurd hb h, fun _ => rfl⟩

/-! ## The clauses of the SRs -/

section

variable {k : KIdx} {s : State} {a : SprAct} {rd ra : Fin 16} {sr : BitVec 12}
  (h : Executes s k (.spr a rd ra sr)) (hb : (kes s k).bad ra = false) (hw : a.writes ra = true)

include h hb hw

theorem spr_registers {y : BitVec 12 × Kestrel}
    (hy : y ∈ sprRegisters (a.value (sprValue s k sr.toNat) ((kes s k).reg ra)) (kes s k)) (hsr : sr = y.1) :
    Gives (a.row k) s (Wrote k rd (sprValue s k sr.toNat) false ((kes s k).pc + 4) (modK k (fun _ => y.2) s)) := by
  subst hsr
  refine spr_wrote_modK h (.inr hb) (sprWrite_register hy).2 fun e x => ?_
  rw [sprEffect_plain (mem_plainSrs_of_register hy) hw]
  exact (sprWrite_register (s := s.fetching e x) hy).1

theorem spr_readOnly (hsr : sr ∈ [(0x100 : BitVec 12), 0x101, 0x103, 0x111, 0x123]) :
    Gives (a.row k) s (Wrote k rd (sprValue s k sr.toNat) false ((kes s k).pc + 4) s) := by
  have hplain : ∀ sr ∈ [(0x100 : BitVec 12), 0x101, 0x103, 0x111, 0x123], sr ∈ plainSrs := by decide
  refine spr_wrote h (.inr hb) fun u => ?_
  rw [sprEffect_plain (hplain sr hsr) hw]
  simp only [List.mem_cons, List.not_mem_nil, or_false] at hsr
  obtain rfl | rfl | rfl | rfl | rfl := hsr <;> rfl

/-- A writing SPR instruction on a plain SR whose write is `f`. -/
theorem exec_spr_plain (hsr : sr ∈ plainSrs) (f : Word → State → State) (hf : ∀ w u, sprWrite k sr.toNat w u = f w u) :
    ∃ e x, FetchedEcc k s e ∧ exec (a.row k) s =
      .next (complete k (fun c => (c.setReg rd (sprValue s k sr.toNat) false).done c.next 1)
        (f (a.value (sprValue s k sr.toNat) ((kes s k).reg ra)) (s.fetching e x))) := by
  obtain ⟨e, x, he, hexec⟩ := exec_spr_completes h (.inr hb)
  rw [sprEffect_plain hsr hw, hf] at hexec
  exact ⟨e, x, he, hexec⟩

theorem spr_signal (hsr : sr = 0x121) :
    let w := a.value (sprValue s k sr.toNat) ((kes s k).reg ra)
    Gives (a.row k) s fun t => (kes t k).pc = (kes s k).pc + 4 ∧ t.mem = s.mem ∧ ∀ j : KIdx,
      (kes t j).pend = if bit w j.val then setBit (kes s j).pend 15 true else (kes s j).pend := by
  subst hsr
  obtain ⟨e, x, -, hexec⟩ := exec_spr_plain h hb hw (by decide) signal fun _ _ => rfl
  dsimp only
  generalize a.value (sprValue s k (0x121 : BitVec 12).toNat) ((kes s k).reg ra) = w at hexec ⊢
  obtain ⟨hg, hwait, -⟩ := h.going
  obtain ⟨⟨hframe, hothers, -⟩, -, hpc, -, hpend, -⟩ :=
    complete_setReg_spec hg hwait (course_signal _ (s.fetching e x) k) rd (sprValue s k (0x121 : BitVec 12).toNat)
  refine ⟨_, hexec, hpc, by rw [hframe]; rfl, fun j => ?_⟩
  have hkes := kes_signal w (s.fetching e x) j
  have hj : (kes (signal w (s.fetching e x)) j).pend = _ :=
    (congrArg Kestrel.pend hkes).trans (apply_ite Kestrel.pend _ _ _)
  by_cases hjk : j = k
  · subst hjk
    exact hpend.trans hj
  · exact (congrArg Kestrel.pend (hothers j hjk)).trans hj

theorem spr_ringHost (hsr : sr = 0x122) :
    let w := a.value (sprValue s k sr.toNat) ((kes s k).reg ra)
    Gives (a.row k) s fun t => (kes t k).pc = (kes s k).pc + 4 ∧ OnlyKestrel k s t ∧
      (bit w 0 = true → bit t.host.dbh k.val = true ∧ raised .dbell t = true) ∧
      (bit w 0 = false → t.host.dbh = s.host.dbh) := by
  subst hsr
  obtain ⟨e, x, he, hexec⟩ := exec_spr_plain h hb hw (by decide) (ringHost k) fun _ _ => rfl
  dsimp only
  generalize a.value (sprValue s k (0x122 : BitVec 12).toNat) ((kes s k).reg ra) = w at hexec ⊢
  obtain ⟨hg, hwait, -⟩ := h.going
  obtain ⟨hring, hwin, hrings, hsilent⟩ := ringHost_frame k w (s.fetching e x)
  have hkes (j : Nat) : kes (ringHost k w (s.fetching e x)) j = kes s j := by rw [hring]; rfl
  obtain ⟨hhalt, hkeep, hpc, -⟩ := complete_setReg_spec hg hwait (by rw [hkes]) rd (sprValue s k (0x122 : BitVec 12).toNat)
    (u := ringHost k w (s.fetching e x))
  have hdbh := congrArg (fun t : State => t.host.dbh) hhalt.1
  refine ⟨_, hexec, hpc, hhalt.of_host he (by rw [hring]; rfl) hwin fun j _ => hkes j, fun hm => ?_, fun hm => ?_⟩
  · exact ⟨by rw [hdbh]; exact (hrings hm).1, hkeep _ (hrings hm).2⟩
  · rw [hdbh]
    exact hsilent hm

theorem spr_respond (hsr : sr = 0x124) :
    let w := a.value (sprValue s k sr.toNat) ((kes s k).reg ra)
    Gives (a.row k) s fun t => (kes t k).pc = (kes s k).pc + 4 ∧ OnlyKestrel k s t ∧
      t.host.dbrsp = w.setWidth 16 ∧ (rd ≠ 0 → (kes t k).reg rd = s.host.dbrsp.setWidth 32) := by
  subst hsr
  obtain ⟨e, x, he, hexec⟩ := exec_spr_plain h hb hw (by decide) respond fun _ _ => rfl
  dsimp only
  generalize a.value (sprValue s k (0x124 : BitVec 12).toNat) ((kes s k).reg ra) = w at hexec ⊢
  obtain ⟨hg, hwait, -⟩ := h.going
  obtain ⟨hhalt, -, hpc, hreg, -⟩ := complete_setReg_spec hg hwait rfl rd (sprValue s k (0x124 : BitVec 12).toNat)
    (u := respond w (s.fetching e x))
  have honly := HaltOnly.of_host (u := respond w (s.fetching e x)) he rfl rfl (fun _ _ => rfl) hhalt
  refine ⟨_, hexec, hpc, honly, ?_, fun hrd => (hreg hrd).trans ?_⟩
  · exact congrArg (fun t : State => t.host.dbrsp) hhalt.1
  · exact BitVec.ofNat_toNat 32 s.host.dbrsp

theorem spr_clearPend (hsr : sr = 0x120) (hset : a ≠ .set) :
    Gives (a.row k) s fun t => (kes t k).pc = (kes s k).pc + 4 ∧ OnlyKestrel k s t ∧
      (kes t k).pend = (kes s k).pend &&& ~~~(((kes s k).reg ra).setWidth 16) ∧
      (bit ((kes s k).reg ra) 1 = true → bit t.host.dbk k.val = false) ∧
      (bit ((kes s k).reg ra) 1 = false → t.host.dbk = s.host.dbk) ∧
      (rd ≠ 0 → (kes t k).reg rd = pendOf s k) := by
  subst hsr
  obtain ⟨e, x, he, hexec⟩ := exec_spr_completes h (.inr hb)
  have heffect : sprEffect k a ra 0x120 s (s.fetching e x) = pendClear k ((kes s k).reg ra) (s.fetching e x) := by
    rw [sprEffect, if_pos hw, sprReadEffect_idle (by decide) (by decide), sprAct, if_pos (by decide), if_neg hset]
  rw [heffect] at hexec
  obtain ⟨hg, hwait, -⟩ := h.going
  obtain ⟨hclear, hwin, hkes, hrung, hsilent⟩ := pendClear_spec k ((kes s k).reg ra) (s.fetching e x)
  have hself := (hkes k).trans (kes_modK_self k _ _)
  obtain ⟨hhalt, -, hpc, hreg, hpend, -⟩ := complete_setReg_spec hg hwait (by rw [hself]; rfl) rd
    (sprValue s k (0x120 : BitVec 12).toNat) (u := pendClear k ((kes s k).reg ra) (s.fetching e x))
  have hdbk := congrArg (fun t : State => t.host.dbk) hhalt.1
  refine ⟨_, hexec, hpc, hhalt.of_host he (by rw [hclear]; rfl) hwin fun j hj => ?_, hpend.trans (by rw [hself]; rfl),
    fun hm => by rw [hdbk]; exact hrung hm, fun hm => by rw [hdbk]; exact hsilent hm, hreg⟩
  rw [hkes, kes_modK, if_neg fun hjk => hj (Fin.ext hjk)]
  rfl

theorem spr_setPend (hsr : sr = 0x120) (hset : a = .set) :
    Gives (a.row k) s (Wrote k rd (pendOf s k) false ((kes s k).pc + 4) s) := by
  subst hsr hset
  refine spr_wrote h (.inr hb) fun u => ?_
  rw [sprEffect, if_pos hw, sprReadEffect_idle (by decide) (by decide), sprAct, if_pos (by decide), if_pos rfl]

end

/-! ## Reading the clocks (R283) -/

section

variable {k : KIdx} {s : State} {rd ra : Fin 16}

theorem spr_readTime (h : Executes s k (.spr .rd rd ra 0x110)) :
    Gives (.kSprRd k) s (Wrote k rd (s.chn.ctime.setWidth 32) false ((kes s k).pc + 4)
      (modK k (fun c => { c with cthi := (s.chn.ctime >>> 32).setWidth 32 }) s)) :=
  spr_wrote_modK h (.inl rfl) rfl fun _ _ => rfl

/-- What a reading of CYCLO latches: CYC moves on by the free number `n` (log entry 8). -/
def latchCycles (n : Quad) (c : Kestrel) : Kestrel :=
  { c with cyc := c.cyc + n, cychi := ((c.cyc + n) >>> 32).setWidth 32 }

theorem spr_readCycles (h : Executes s k (.spr .rd rd ra 0x102)) :
    Gives (.kSprRd k) s fun t => ∃ n : Quad,
      (rd ≠ 0 → (kes t k).reg rd = n.setWidth 32) ∧ (kes t k).cychi = (n >>> 32).setWidth 32 ∧ (kes t k).cyc = n + 1 ∧
      (kes t k).pc = (kes s k).pc + 4 ∧ t.mem = s.mem := by
  obtain ⟨e, x, -, hexec⟩ := exec_spr_completes h (.inl rfl)
  obtain ⟨f, hf⟩ : ∃ f : Quad, f = (Config.freeWord s.free).setWidth 64 := ⟨_, rfl⟩
  have heffect : sprEffect k .rd ra 0x102 s (s.fetching e x) =
      { modK k (latchCycles f) (s.fetching e x) with free := s.free + 1 } := by rw [hf]; rfl
  have hvalue : sprValue s k (0x102 : BitVec 12).toNat = ((kes s k).cyc + f).setWidth 32 := by rw [hf]; rfl
  rw [heffect, hvalue] at hexec
  obtain ⟨hg, hwait, -⟩ := h.going
  have hself : kes { modK k (latchCycles f) (s.fetching e x) with free := s.free + 1 } k = latchCycles f (kes s k) :=
    kes_modK_self k _ (s.fetching e x)
  obtain ⟨⟨hframe, -⟩, -, hpc, hreg, -, hcyc, hcychi⟩ := complete_setReg_spec hg hwait (by rw [hself]; rfl) rd
    (((kes s k).cyc + f).setWidth 32) (u := { modK k (latchCycles f) (s.fetching e x) with free := s.free + 1 })
  refine ⟨_, hexec, (kes s k).cyc + f, hreg, ?_, ?_, hpc, (congrArg State.mem hframe).trans rfl⟩
  · rw [hcychi, hself]; rfl
  · rw [hcyc, hself]; rfl

end

/-! ## POST and WAIT (R276, R286, R288) -/

section

variable {k : KIdx} {s : State}

theorem exec_post {ra : Fin 16} (h : Executes s k (.post ra)) : ∃ e x, FetchedEcc k s e ∧
    exec (.kPost k) s = .next (postStep k ra (fetched s k).1 (s.fetching e x)) := by
  obtain ⟨e, x, he, hrun⟩ := kRun_fetching (f := postStep k ra)
    (sel := fun i => match i with | .post ra => some (postStep k ra) | _ => none) h rfl
  exact ⟨e, x, he, congrArg Host.Outcome.next hrun⟩

/-- A POST of clean registers waits for room or enters the buffer. -/
theorem postStep_clean {ra : Fin 16} (hclean : ∀ i : Fin 4, vget (kes s k).mark (ra.val + i.val) false = false) (w : Word) :
    postStep k ra w s = bufferEntry k (.post ((kes s k).event ra) (kes s k).sess none) w s := by
  refine orTrap_of_false ?_ w _ s
  rw [List.any_eq_false]
  intro i hi
  rw [hclean ⟨i, List.mem_range.mp hi⟩]
  exact Bool.false_ne_true

theorem postStep_poisoned {ra : Fin 16} (hbad : ∃ i : Fin 4, vget (kes s k).mark (ra.val + i.val) false = true) (w : Word) :
    postStep k ra w s = takeTrap k (4, w) s := by
  obtain ⟨i, hi⟩ := hbad
  exact orTrap_of_true (List.any_eq_true.mpr ⟨i.val, List.mem_range.mpr i.isLt, hi⟩) w _ s

theorem exec_wait {rd ra : Fin 16} (h : Executes s k (.wait rd ra)) : ∃ e x, FetchedEcc k s e ∧
    exec (.kWait k) s = .next (waitStep k rd ra (fetched s k).1 (s.fetching e x)) := by
  obtain ⟨e, x, he, hrun⟩ := kRun_fetching (f := waitStep k rd ra)
    (sel := fun i => match i with | .wait rd ra => some (waitStep k rd ra) | _ => none) h rfl
  exact ⟨e, x, he, congrArg Host.Outcome.next hrun⟩

/-- The end of a WAIT in the form of the other instructions. -/
theorem waitDone_eq (k : KIdx) (rd : Fin 16) (v : Word) (s : State) :
    waitDone k rd v s = complete k (Kestrel.finish rd v false ((kes s k).pc + 4) 1) s :=
  congrArg (afterInstr k) (modK_congr (Kestrel.finish_eq rd v false ((kes s k).pc + 4) 1 (kes s k)))

theorem exec_waitDone {rd : Fin 16} {m : Word} (h : (kes s k).wait = .event rd m) :
    exec (.waitDone k) s = .next (if pendOf s k &&& m ≠ 0 then waitDone k rd (pendOf s k &&& m) s else s) := by
  refine congrArg Host.Outcome.next ?_
  rw [waitReady, h]

theorem exec_timeTargetReached (k : KIdx) (s : State) :
    exec (.timeTargetReached k) s = .next (if chainRuns s then reachTime (kes s k).target s else s) := rfl

theorem reachTime_spec (t : Quad) (s : State) :
    t.toNat ≤ (reachTime t s).chn.ctime.toNat ∧ s.chn.ctime.toNat ≤ (reachTime t s).chn.ctime.toNat ∧
      reachTime t s = { s with chn := { s.chn with ctime := (reachTime t s).chn.ctime } } := by
  unfold reachTime
  split
  · next h => exact ⟨Nat.le_refl _, Nat.le_of_lt h, rfl⟩
  · next h => exact ⟨Nat.le_of_not_lt h, Nat.le_refl _, rfl⟩

end

end Sys2Proof.Machine

/-! SUPPORT. Starting, resetting, halting and stepping a kestrel (R290-R295), and the kestrel's control statement. -/

namespace Sys2Proof.Machine

/-! ## KST_CTRLk (R6, Table 11.7) -/

theorem bit_setRst (v : Word) (b : Bool) :
    bit (setBit v 31 b) 31 = b ∧ ∀ i, i < 31 → bit (setBit v 31 b) i = bit v i :=
  ⟨(bit_setBit _ _ _ _ (by decide)).trans (if_pos rfl),
    fun _ hi => (bit_setBit _ _ _ _ (by decide)).trans (if_neg (Nat.ne_of_lt hi))⟩

theorem fld_setRst (v : Word) (b : Bool) : fld (setBit v 31 b) 0 4 = fld v 0 4 := by
  refine Nat.eq_of_testBit_eq fun i => ?_
  rw [testBit_fld, testBit_fld, bit_setBit _ _ _ _ (by decide)]
  by_cases hi : i < 4
  · rw [if_neg (by omega)]
  · simp [hi]

/-- Kestrel `k` alone has changed, and nothing beside the kestrels. -/
def OnlyCore (k : KIdx) (s t : State) : Prop := t = { s with kst := t.kst } ∧ ∀ j : KIdx, j ≠ k → kes t j = kes s j

theorem modK_onlyCore (k : KIdx) (f : Kestrel → Kestrel) (s : State) : OnlyCore k s (modK k f s) :=
  ⟨rfl, (modK_haltOnly k f s).2.1⟩

theorem OnlyCore.trans {k : KIdx} {s u t : State} (h : OnlyCore k s u) (g : OnlyCore k u t) : OnlyCore k s t := by
  obtain ⟨hs, hj⟩ := h
  obtain ⟨hu, hi⟩ := g
  exact ⟨by rw [hu, hs], fun j hjk => (hi j hjk).trans (hj j hjk)⟩

/-- RESUME, or STEP when `step` (R294). -/
def goOn (step : Bool) (k : Nat) (s : State) : State :=
  if (kes s k).halted && !(kes s k).dfault && !(kes s k).rst then
    modK k (fun c => { c with halted := false, stepping := step, skipBrk := true }) s
  else s

theorem kStep_eq (k : Nat) (s : State) : kStep k s = goOn true k s := rfl

theorem kResume_eq (k : Nat) (s : State) : kResume k s = goOn false k s := rfl

theorem goOn_halted {k : KIdx} {s : State} (hhalted : (kes s k).halted = true) (hdfault : (kes s k).dfault = false)
    (hrst : (kes s k).rst = false) (step : Bool) :
    goOn step k s = modK k (fun c => { c with halted := false, stepping := step, skipBrk := true }) s :=
  if_pos (by rw [hhalted, hdfault, hrst]; rfl)

theorem goOn_stays {k : KIdx} {s : State} (h : (kes s k).halted = false ∨ (kes s k).dfault = true) (step : Bool) :
    goOn step k s = s :=
  if_neg (by obtain h | h := h <;> simp [h])

/-- RESUME and STEP touch the kestrel's halt alone. -/
theorem goOn_frame (step : Bool) (k : KIdx) (s : State) : OnlyCore k s (goOn step k s) ∧
    kes (goOn step k s) k = { kes s k with
      halted := (kes (goOn step k s) k).halted, stepping := (kes (goOn step k s) k).stepping
      skipBrk := (kes (goOn step k s) k).skipBrk } := by
  unfold goOn
  split
  · exact ⟨modK_onlyCore k _ s, by rw [kes_modK_self]⟩
  · exact ⟨⟨rfl, fun _ _ => rfl⟩, rfl⟩

/-- What the debug controls of a KST_CTRLk write do (R293, R294). -/
def debugControls (v : Word) (k : Nat) (s : State) : State :=
  if bit v 30 then haltRequest k s else if bit v 28 then kStep k s else if bit v 29 then kResume k s else s

/-- BRKH is stored. -/
def storeBrkh (v : Word) (k : Nat) (s : State) : State := modK k (fun c => { c with brkh := bit v 27 }) s

theorem writeKctrl_run (v : Word) (k : KIdx) (s : State) :
    writeKctrl k (setBit v 31 false) s =
      debugControls v k (if (kes s k).rst then kStart k (storeBrkh v k s) else storeBrkh v k s) := by
  obtain ⟨h31, hbits⟩ := bit_setRst v false
  simp only [writeKctrl, h31, hbits 30 (by decide), hbits 29 (by decide), hbits 28 (by decide), hbits 27 (by decide),
    Bool.false_eq_true, if_false]
  rfl

/-- RST = 1 stores BRKH and SESS, and stops a kestrel that runs (R6, R291). -/
theorem writeKctrl_reset (v : Word) (k : KIdx) (s : State) :
    writeKctrl k (setBit v 31 true) s =
      if (kes s k).rst then modK k (fun c => { c with brkh := bit v 27, sess := BitVec.ofNat 4 (fld v 0 4) }) s
      else modK k (Kestrel.stop k) (modK k (fun c => { c with brkh := bit v 27, sess := BitVec.ofNat 4 (fld v 0 4) }) s) := by
  obtain ⟨h31, hbits⟩ := bit_setRst v true
  simp only [writeKctrl, h31, hbits 27 (by decide), fld_setRst, if_true]

/-! ## A start (R290) -/

theorem exec_kestrelStart {k : KIdx} {s : State} (hpd : pdOn s (54 + k.val) = true) (v : Word) :
    exec (.kestrelStart k v) s =
      .next (debugControls v k (if (kes s k).rst then kStart k (storeBrkh v k s) else storeBrkh v k s)) :=
  congrArg Host.Outcome.next ((if_pos hpd).trans (writeKctrl_run v k s))

theorem kStart_onlyCore (v : Word) (k : KIdx) (s : State) : OnlyCore k s (kStart k (storeBrkh v k s)) :=
  (modK_onlyCore k _ s).trans (modK_onlyCore k _ _)

/-- Outside BOOT the kestrel begins, parked in MUSTER and RELAY. -/
theorem kes_kStart {k : KIdx} {s : State} (hboot : s.mode.code ≠ .boot) (v : Word) :
    kes (kStart k (storeBrkh v k s)) k =
      { ({ kes s k with brkh := bit v 27 } : Kestrel).begin k s.mode.code.parks with rst := false } := by
  have hcode : ¬((storeBrkh v k s).mode.code = .boot) := hboot
  rw [kStart, kes_modK_self, if_neg hcode, storeBrkh, kes_modK_self]
  rfl

/-- In BOOT the start is stored. -/
theorem kes_kStart_boot {k : KIdx} {s : State} (hboot : s.mode.code = .boot) (v : Word) :
    kes (kStart k (storeBrkh v k s)) k = { kes s k with brkh := bit v 27, rst := false, startPend := true } := by
  have hcode : (storeBrkh v k s).mode.code = .boot := hboot
  rw [kStart, kes_modK_self, if_pos hcode, storeBrkh, kes_modK_self]

/-- A kestrel that has begun is not halted: RESUME and STEP do nothing. -/
theorem debugControls_idle {v : Word} {k : KIdx} {s : State} (h30 : bit v 30 = false) (hhalted : (kes s k).halted = false) :
    debugControls v k s = s := by
  rw [debugControls, if_neg (by simp [h30]), kStep_eq, kResume_eq, goOn_stays (.inl hhalted), goOn_stays (.inl hhalted)]
  simp

theorem haltRequest_idle {k : KIdx} {s : State} (hrst : (kes s k).rst = false) (hpend : (kes s k).startPend = false)
    (hhalted : (kes s k).halted = false) (hdfault : (kes s k).dfault = false) (hin : (kes s k).inside = false) :
    haltRequest k s = debugHalt k 0 s := by
  simp [haltRequest, hrst, hpend, hhalted, hdfault, hin]

theorem haltRequest_inside {k : KIdx} {s : State} (hrst : (kes s k).rst = false) (hpend : (kes s k).startPend = false)
    (hhalted : (kes s k).halted = false) (hdfault : (kes s k).dfault = false) (hin : (kes s k).inside = true) :
    haltRequest k s = modK k (fun c => { c with haltReq := true }) s := by
  simp [haltRequest, hrst, hpend, hhalted, hdfault, hin]

/-- The debug controls beside a start that is stored. -/
theorem debugControls_stored {k : KIdx} {s : State} (hpend : (kes s k).startPend = true) (v : Word) :
    OnlyCore k s (debugControls v k s) ∧
      kes (debugControls v k s) k = { kes s k with
        halted := (kes (debugControls v k s) k).halted, stepping := (kes (debugControls v k s) k).stepping
        skipBrk := (kes (debugControls v k s) k).skipBrk } := by
  have hhalt : haltRequest k s = s := by simp [haltRequest, hpend]
  unfold debugControls
  rw [hhalt, kStep_eq, kResume_eq]
  split
  · exact ⟨⟨rfl, fun _ _ => rfl⟩, rfl⟩
  · split
    · exact goOn_frame true k s
    · split
      · exact goOn_frame false k s
      · exact ⟨⟨rfl, fun _ _ => rfl⟩, rfl⟩

/-! ## A reset (R291) -/

theorem Kestrel.dropWait_frame (c : Kestrel) :
    c.dropWait = { c with wait := c.dropWait.wait } ∧ (c.inside = false → c.dropWait.wait = .none) ∧
      (c.inside = true → c.dropWait = c) := by
  refine ⟨?_, ?_, ?_⟩
  · unfold Kestrel.dropWait
    split <;> rfl
  · unfold Kestrel.dropWait Kestrel.inside
    cases hw : c.wait <;> simp [hw]
  · unfold Kestrel.dropWait Kestrel.inside
    cases hw : c.wait <;> simp

/-- A kestrel that is told to stop: inside an instruction it finishes it, else it has stopped. -/
theorem stop_spec (k : Nat) (c : Kestrel) :
    let d := c.stop k
    (d.rst = true ∧ d.sess = c.sess ∧ d.brkh = c.brkh) ∧
      (c.inside = false →
        d.stopping = false ∧ d.halted = false ∧ d.parked = false ∧ d.sbuf = c.sbuf.filter (·.hasCrossed k)) ∧
      (c.inside = true → d.stopping = true ∧ d.wait = c.wait ∧ d.sbuf = c.sbuf) := by
  obtain ⟨hframe, hnone, hsame⟩ := c.dropWait_frame
  cases hin : c.inside
  · have hstop : c.stop k = Kestrel.stopped k { c.dropWait with
        rst := true, startPend := false, parked := false, parkReq := false, halted := false, dfault := false
        haltReq := false, stepping := false, skipBrk := false } := if_neg (by simp [Kestrel.inside, hnone hin])
    rw [hstop, hframe]
    exact ⟨⟨rfl, rfl, rfl⟩, fun _ => ⟨rfl, rfl, rfl, rfl⟩, fun h => absurd h (by decide)⟩
  · have hstop : c.stop k = { c with
        rst := true, startPend := false, parked := false, parkReq := false, halted := false, dfault := false
        haltReq := false, stepping := false, skipBrk := false, stopping := true } := by
      rw [Kestrel.stop, hsame hin]
      exact if_pos hin
    rw [hstop]
    exact ⟨⟨rfl, rfl, rfl⟩, fun h => absurd h (by decide), fun _ => ⟨rfl, rfl, rfl⟩⟩

theorem exec_kestrelReset {k : KIdx} {s : State} (hpd : pdOn s (54 + k.val) = true) (v : Word) :
    exec (.kestrelReset k v) s = .next (
      if (kes s k).rst then modK k (fun c => { c with brkh := bit v 27, sess := BitVec.ofNat 4 (fld v 0 4) }) s
      else modK k (Kestrel.stop k) (modK k (fun c => { c with brkh := bit v 27, sess := BitVec.ofNat 4 (fld v 0 4) }) s)) :=
  congrArg Host.Outcome.next ((if_pos hpd).trans (writeKctrl_reset v k s))

theorem exec_haltRequest {k : KIdx} {s : State} (hpd : pdOn s (54 + k.val) = true) :
    exec (.haltRequest k) s = .next (haltRequest k s) := congrArg Host.Outcome.next (if_pos hpd)

theorem exec_kestrelResume {k : KIdx} {s : State} (hpd : pdOn s (54 + k.val) = true) :
    exec (.kestrelResume k) s = .next (goOn false k s) := congrArg Host.Outcome.next (if_pos hpd)

theorem exec_kestrelStep {k : KIdx} {s : State} (hpd : pdOn s (54 + k.val) = true) :
    exec (.kestrelStep k) s = .next (goOn true k s) := congrArg Host.Outcome.next (if_pos hpd)

theorem exec_breakpointHalt (k : KIdx) (s : State) :
    exec (.breakpointHalt k) s =
      .next (if kReady s k && decide ((kes s k).wait = .none) && (kes s k).atBreak then debugHalt k 1 s else s) := rfl

/-- Outside BOOT, RST = 0 begins the kestrel, which halts at once with HALTREQ (R290, R293). -/
theorem kestrelStart_begins {k : KIdx} {s : State} (hpd : pdOn s (54 + k.val) = true) (hrst : (kes s k).rst = true)
    (hboot : s.mode.code ≠ .boot) (v : Word) : Gives (.kestrelStart k v) s fun t =>
      (kes t k).rst = false ∧ (kes t k).pc = (kes s k).bootpc ∧ (∀ r : Fin 16, (kes t k).reg r = 0) ∧
      (kes t k).brkh = bit v 27 ∧ (kes t k).sess = (kes s k).sess ∧ (kes t k).intrap = false ∧ (kes t k).tentry = 0 ∧
      (kes t k).parked = s.mode.code.parks ∧ (kes t k).pend = 0 ∧ (kes t k).sbuf = [] ∧ t.mem = s.mem ∧
      (bit v 30 = false → (kes t k).halted = false ∧ t = { s with kst := t.kst }) ∧
      (bit v 30 = true → (kes t k).halted = true ∧ (kes t k).hcause = 0 ∧ raised .khalt t = true) ∧
      ∀ j : KIdx, j ≠ k → kes t j = kes s j := by
  have hexec := exec_kestrelStart hpd v
  rw [if_pos hrst] at hexec
  have hkes := kes_kStart (k := k) hboot v
  obtain ⟨hcore, hothers⟩ := kStart_onlyCore v k s
  generalize kStart k (storeBrkh v k s) = u at hexec hkes hcore hothers
  have hwait : (kes u k).wait = .none := by rw [hkes]; rfl
  have hregs (c : Kestrel) (hc : c.regs = Vector.replicate 16 0) (r : Fin 16) : c.reg r = 0 := by
    simp [Kestrel.reg, hc]
  cases h30 : bit v 30
  · rw [debugControls_idle h30 (by rw [hkes]; rfl)] at hexec
    refine ⟨u, hexec, ?_⟩
    beta_reduce
    rw [hkes]
    refine ⟨rfl, rfl, hregs _ rfl, rfl, rfl, rfl, rfl, rfl, rfl, rfl, ?_, fun _ => ⟨rfl, hcore⟩,
      fun h => absurd h (by decide), hothers⟩
    rw [hcore]
  · have hhalt : debugControls v k u = debugHalt k 0 u := by
      rw [debugControls, if_pos h30]
      exact haltRequest_idle (by rw [hkes]) (by rw [hkes]; rfl) (by rw [hkes]; rfl) (by rw [hkes]; rfl) (by rw [hkes]; rfl)
    obtain ⟨hhaltOnly, hraised, -⟩ := debugHalt_spec k 0 u
    obtain ⟨⟨-, -, -, hhaltOthers⟩, -, hmem⟩ := hhaltOnly.only
    rw [hhalt] at hexec
    refine ⟨_, hexec, ?_⟩
    beta_reduce
    rw [debugHalt_idle hwait, hkes]
    refine ⟨rfl, rfl, hregs _ rfl, rfl, rfl, rfl, rfl, rfl, rfl, rfl, ?_, fun h => absurd h (by decide),
      fun _ => ⟨rfl, rfl, hraised⟩, fun j hj => (hhaltOthers j hj).trans (hothers j hj)⟩
    rw [hmem, hcore]

/-- RST = 1 stops the kestrel, after the instruction that it is in (R291). -/
theorem kestrelReset_stops {k : KIdx} {s : State} (hpd : pdOn s (54 + k.val) = true) (v : Word) :
    Gives (.kestrelReset k v) s fun t => (kes t k).rst = true ∧ (kes t k).sess.toNat = fld v 0 4 ∧
      (kes t k).brkh = bit v 27 ∧ t = { s with kst := t.kst } ∧ (∀ j : KIdx, j ≠ k → kes t j = kes s j) ∧
      ((kes s k).rst = false → (kes s k).inside = false → (kes t k).stopping = false ∧ (kes t k).halted = false ∧
        (kes t k).parked = false ∧ (kes t k).sbuf = (kes s k).sbuf.filter (·.hasCrossed k)) ∧
      ((kes s k).rst = false → (kes s k).inside = true → (kes t k).stopping = true ∧ (kes t k).wait = (kes s k).wait ∧
        (kes t k).sbuf = (kes s k).sbuf) := by
  refine ⟨_, exec_kestrelReset hpd v, ?_⟩
  have hsess : (BitVec.ofNat 4 (fld v 0 4)).toNat = fld v 0 4 := Nat.mod_eq_of_lt (Nat.mod_lt _ (by decide))
  cases hrst : (kes s k).rst
  · obtain ⟨⟨hstop, hses, hbrkh⟩, hidle, hinside⟩ :=
      stop_spec k { kes s k with brkh := bit v 27, sess := BitVec.ofNat 4 (fld v 0 4) }
    obtain ⟨hcore, hothers⟩ := (modK_onlyCore k
      (fun c => { c with brkh := bit v 27, sess := BitVec.ofNat 4 (fld v 0 4) }) s).trans (modK_onlyCore k (Kestrel.stop k) _)
    rw [if_neg (by decide)]
    beta_reduce
    rw [kes_modK_self, kes_modK_self]
    exact ⟨hstop, by rw [hses]; exact hsess, hbrkh, hcore, hothers, fun _ hin => hidle hin, fun _ hin => hinside hin⟩
  · obtain ⟨hcore, hothers⟩ := modK_onlyCore k
      (fun c => { c with brkh := bit v 27, sess := BitVec.ofNat 4 (fld v 0 4) }) s
    rw [if_pos rfl]
    beta_reduce
    rw [kes_modK_self]
    exact ⟨hrst, hsess, rfl, hcore, hothers, fun h => absurd h (by decide), fun h => absurd h (by decide)⟩

/-! ## POST and WAIT as they stand (R278, R286) -/

theorem kes_fetching (e : Ecc) (x : Word) (s : State) (k : Nat) : kes (s.fetching e x) k = kes s k := rfl

theorem bufferEntry_full {k : KIdx} {s : State} (h : 8 ≤ (kes s k).sbuf.length) (e : SbEntry) (w : Word) :
    bufferEntry k e w s = modK k (fun c => { c with wait := .room e w }) s := if_pos h

theorem bufferEntry_room {k : KIdx} {s : State} (h : (kes s k).sbuf.length < 8) (p : EvBytes) (n : BitVec 4) (w : Word) :
    bufferEntry k (.post p n none) w s = enter k (.post p n none) s := if_neg (Nat.not_le.mpr h)

/-- A WAIT with a clean mask. -/
def waitFor (k : KIdx) (rd : Fin 16) (m : Word) (s : State) : State :=
  if m = 0 ∨ pendOf s k &&& m ≠ 0 then waitDone k rd (pendOf s k &&& m) s
  else if (kes s k).stepping then debugHalt k 3 s else waitIn k (.event rd m) s

theorem waitStep_clean {k : KIdx} {ra : Fin 16} {s : State} (h : (kes s k).bad ra = false) (rd : Fin 16) (w : Word) :
    waitStep k rd ra w s = waitFor k rd ((kes s k).reg ra) s := by
  rw [waitStep, orTrap_of_false h]
  rfl

theorem waitFor_ends {k : KIdx} {m : Word} {s : State} (h : m = 0 ∨ pendOf s k &&& m ≠ 0) (rd : Fin 16) :
    waitFor k rd m s = waitDone k rd (pendOf s k &&& m) s := if_pos h

theorem waitFor_waits {k : KIdx} {m : Word} {s : State} (hm : m ≠ 0) (hpend : pendOf s k &&& m = 0) (rd : Fin 16) :
    waitFor k rd m s = if (kes s k).stepping then debugHalt k 3 s else waitIn k (.event rd m) s :=
  if_neg fun h => h.elim hm fun hset => hset hpend

theorem waitDone_setReg {k : KIdx} {s : State} (hw : (kes s k).wait = .none) (rd : Fin 16) (v : Word) :
    waitDone k rd v s = complete k (fun c => (c.setReg rd v false).done c.next 1) s :=
  (waitDone_eq k rd v s).trans (complete_setReg hw rd v false 1).symm

theorem post_spec {k : KIdx} {ra : Fin 16} {s : State} (h : Executes s k (.post ra)) :
    let e : SbEntry := .post ((kes s k).event ra) (kes s k).sess none
    ((∀ i : Fin 4, vget (kes s k).mark (ra.val + i.val) false = false) →
      ((kes s k).sbuf.length < 8 → Gives (.kPost k) s (Buffered k e s)) ∧
      (8 ≤ (kes s k).sbuf.length → Gives (.kPost k) s fun t => OnlyKestrel k s t ∧
        kes t k = { kes s k with wait := .room e (fetched s k).1 })) ∧
    ((∃ i : Fin 4, vget (kes s k).mark (ra.val + i.val) false = true) →
      Gives (.kPost k) s (Traps k 4 (fetched s k).1 s)) := by
  obtain ⟨e, x, he, hexec⟩ := exec_post h
  obtain ⟨hg, hwait, -⟩ := h.going
  refine ⟨fun hclean => ?_, fun hbad => ?_⟩
  · rw [postStep_clean (s := s.fetching e x) hclean] at hexec
    refine ⟨fun hroom => ⟨_, hexec, ?_⟩, fun hfull => ⟨_, hexec, ?_⟩⟩
    · rw [bufferEntry_room (s := s.fetching e x) hroom]
      exact enter_buffered he hg _ _
    · rw [bufferEntry_full (s := s.fetching e x) hfull]
      exact ⟨((modK_haltOnly k _ _).of_fetching he).1, kes_modK_self k _ _⟩
  · rw [postStep_poisoned (s := s.fetching e x) hbad] at hexec
    exact ⟨_, hexec, takeTrap_traps he hg _⟩

theorem wait_spec {k : KIdx} {rd ra : Fin 16} {s : State} (h : Executes s k (.wait rd ra)) :
    ((kes s k).bad ra = true → Gives (.kWait k) s (Traps k 4 (fetched s k).1 s)) ∧
    ((kes s k).bad ra = false →
      ((kes s k).reg ra = 0 ∨ pendOf s k &&& (kes s k).reg ra ≠ 0 →
        Gives (.kWait k) s (Wrote k rd (pendOf s k &&& (kes s k).reg ra) false ((kes s k).pc + 4) s)) ∧
      ((kes s k).reg ra ≠ 0 → pendOf s k &&& (kes s k).reg ra = 0 → Gives (.kWait k) s fun t => OnlyKestrel k s t ∧
        ((kes s k).stepping = false → kes t k = { kes s k with wait := .event rd ((kes s k).reg ra) }) ∧
        ((kes s k).stepping = true → raised .khalt t = true ∧ kes t k = { kes s k with
          halted := true, hcause := 3, haltReq := false, stepping := false, skipBrk := false }))) := by
  obtain ⟨e, x, he, hexec⟩ := exec_wait h
  obtain ⟨hg, hwait, -⟩ := h.going
  refine ⟨fun hbad => ⟨_, hexec, ?_⟩, fun hgood => ?_⟩
  · rw [waitStep, orTrap_of_true (by exact hbad)]
    exact takeTrap_traps he hg _
  · rw [waitStep_clean (s := s.fetching e x) hgood, kes_fetching] at hexec
    refine ⟨fun hends => ⟨_, hexec, ?_⟩, fun hm hpend => ⟨_, hexec, ?_⟩⟩
    · rw [waitFor_ends (s := s.fetching e x) hends, waitDone_setReg (s := s.fetching e x) hwait]
      exact wrote_fetching he hg hwait rd _
    · rw [waitFor_waits (s := s.fetching e x) hm hpend]
      cases hstep : (kes s k).stepping
      · rw [if_neg (by exact ne_true_of_eq_false hstep)]
        exact ⟨((modK_haltOnly k _ _).of_fetching he).1, fun _ => kes_modK_self k _ _, fun h => absurd h (by decide)⟩
      · rw [if_pos (by exact hstep)]
        obtain ⟨hhalt, hraised, -⟩ := debugHalt_spec k 3 (s.fetching e x)
        exact ⟨(hhalt.of_fetching he).1, fun h => absurd h (by decide),
          fun _ => ⟨hraised, debugHalt_idle (s := s.fetching e x) hwait 3⟩⟩

/-! ## The statement -/

/-- The writing SPR rows of the statement: each with its act and the value that it writes. -/
theorem spr_row_cases {k : KIdx} {old v : Word} {x : Instr × SprAct × Word}
    (hx : x ∈ [(Instr.kSprWr k, SprAct.wr, v), (.kSprSet k, .set, old ||| v), (.kSprClr k, .clr, old &&& ~~~v)]) :
    ∃ a : SprAct, a ≠ .rd ∧ x = (a.row k, a, a.value old v) := by
  simp only [List.mem_cons, List.not_mem_nil, or_false] at hx
  obtain rfl | rfl | rfl := hx
  · exact ⟨.wr, by decide, rfl⟩
  · exact ⟨.set, by decide, rfl⟩
  · exact ⟨.clr, by decide, rfl⟩

theorem writes_of {a : SprAct} {ra : Fin 16} (ha : a ≠ .rd) (h : a = .wr ∨ ra ≠ 0) : a.writes ra = true := by
  cases a
  · exact absurd rfl ha
  · rfl
  · exact bne_iff_ne.mpr (h.resolve_left (by decide))
  · exact bne_iff_ne.mpr (h.resolve_left (by decide))

/-- Settles O51: the SPR rows by the clauses of `sprEffect`, POST by `enter_buffered`, WAIT by `waitDone_eq`, and the controls
by `debugControls` and `stop_spec`. -/
theorem kestrelControlAndSignals : Obligations.KestrelControlAndSignals := by
  refine ⟨fun k rd ra sr s => ⟨fun h1 h2 h => ?read, fun h => spr_readTime h, fun h => spr_readCycles h,
      fun hbad x hx h => ?trap, fun hra h1 h2 x hx h => ?idle, fun hbad x hx hwr h => ?writes⟩,
    fun k rd ra s => ⟨fun h => ?post, fun h => ?wait, fun m hm hg => ?waitDone, fun hruns => ?target⟩,
    fun k v s hpd => ⟨fun hrst hboot => ?start, fun hrst hboot => ?store, fun hrst h30 h29 h28 => ?running, ?reset,
      fun hrst hpend hhalted hdfault => ?halt, fun hhalted hdfault hrst => ?resume, fun hdfault => ?faulted,
      fun hready hwait hbrk => ?break_⟩⟩
  case read => exact spr_wrote h (.inl rfl) fun u => sprEffect_idle h1 h2 rfl k s u
  case trap =>
    simp only [List.mem_cons, List.not_mem_nil, or_false] at hx
    obtain rfl | rfl | rfl := hx
    · exact exec_spr_traps (a := .wr) h (by decide) hbad
    · exact exec_spr_traps (a := .set) h (by decide) hbad
    · exact exec_spr_traps (a := .clr) h (by decide) hbad
  case idle =>
    have hbad : (kes s k).bad ra = false := by rw [hra]; rfl
    simp only [List.mem_cons, List.not_mem_nil, or_false] at hx
    obtain rfl | rfl := hx
    · exact spr_wrote h (.inr hbad) fun u => sprEffect_idle h1 h2 (by rw [hra]; rfl) k s u
    · exact spr_wrote h (.inr hbad) fun u => sprEffect_idle h1 h2 (by rw [hra]; rfl) k s u
  case writes =>
    obtain ⟨a, ha, rfl⟩ := spr_row_cases hx
    have hw := writes_of ha hwr
    exact ⟨fun y hy hsr => spr_registers h hbad hw hy hsr, spr_signal h hbad hw, spr_ringHost h hbad hw, spr_respond h hbad hw,
      spr_clearPend h hbad hw, spr_setPend h hbad hw, spr_readOnly h hbad hw⟩
  case post => exact post_spec h
  case wait => exact wait_spec h
  case waitDone =>
    refine ⟨fun hzero => ?_, fun hset => ⟨_, (exec_waitDone hm).trans (by rw [if_pos hset]), ?_⟩⟩
    · rw [exec_waitDone hm, if_neg (by simp [hzero])]
    · rw [waitDone_eq]
      exact ⟨(complete_finish hg rd _ false _ 1).1.only.1, complete_finished hg rd _ false _ 1⟩
  case target => exact ⟨_, (exec_timeTargetReached k s).trans (by rw [if_pos hruns]), reachTime_spec _ s⟩
  case start => exact kestrelStart_begins hpd hrst hboot v
  case store =>
    have hexec := exec_kestrelStart hpd v
    rw [if_pos hrst] at hexec
    have hkes := kes_kStart_boot (k := k) hboot v
    have hcore := kStart_onlyCore v k s
    generalize kStart k (storeBrkh v k s) = u at hexec hkes hcore
    obtain ⟨hdebug, hframe⟩ := debugControls_stored (k := k) (s := u) (by rw [hkes]) v
    obtain ⟨honly, hothers⟩ := hcore.trans hdebug
    refine ⟨_, hexec, ?_⟩
    beta_reduce
    rw [hframe, hkes]
    exact ⟨rfl, rfl, rfl, rfl, rfl, honly, hothers⟩
  case running =>
    refine ⟨storeBrkh v k s, ?_, kes_modK_self k _ s, modK_onlyCore k _ s⟩
    rw [exec_kestrelStart hpd, if_neg (by simp [hrst]), debugControls, if_neg (by simp [h30]), if_neg (by simp [h28]),
      if_neg (by simp [h29])]
  case reset => exact kestrelReset_stops hpd v
  case halt =>
    refine ⟨fun hin => ⟨_, exec_haltRequest hpd, ?_⟩, fun hin => ⟨_, exec_haltRequest hpd, ?_⟩⟩
    · rw [haltRequest_inside hrst hpend hhalted hdfault hin]
      exact ⟨kes_modK_self k _ s, modK_onlyCore k _ s⟩
    · rw [haltRequest_idle hrst hpend hhalted hdfault hin]
      obtain ⟨hhalt, hraised, hkes⟩ := debugHalt_spec k 0 s
      obtain ⟨honly, hmgt, -⟩ := hhalt.only
      obtain ⟨hdrop, hnone, -⟩ := (kes s k).dropWait_frame
      rw [hkes]
      refine ⟨rfl, rfl, hnone hin, ?_, ?_, hraised, honly, hmgt⟩
      · rw [hdrop]
      · rw [hdrop]
  case resume =>
    obtain ⟨hcore, hothers⟩ := modK_onlyCore k (fun c => { c with halted := false, stepping := false, skipBrk := true }) s
    refine ⟨⟨_, exec_kestrelResume hpd, ?_⟩, ⟨_, exec_kestrelStep hpd, ?_⟩⟩
    · rw [goOn_halted hhalted hdfault hrst]
      exact ⟨rfl, hothers, kes_modK_self k _ s⟩
    · rw [goOn_halted hhalted hdfault hrst]
      exact ⟨rfl, (modK_onlyCore k _ s).2, kes_modK_self k _ s⟩
  case faulted =>
    rw [exec_kestrelResume hpd, exec_kestrelStep hpd, goOn_stays (.inr hdfault), goOn_stays (.inr hdfault)]
    exact ⟨rfl, rfl⟩
  case break_ =>
    have hbreak : (kReady s k && decide ((kes s k).wait = .none) && (kes s k).atBreak) = true := by simp [hready, hwait, hbrk]
    obtain ⟨hhalt, hraised, -⟩ := debugHalt_spec k 1 s
    obtain ⟨honly, hmgt, -⟩ := hhalt.only
    exact ⟨_, (exec_breakpointHalt k s).trans (by rw [if_pos hbreak]), hraised, honly, hmgt, debugHalt_idle hwait 1⟩

end Sys2Proof.Machine

/-! SUPPORT. The clock block (R60-R86): the monitor's view, one island, storing CKP with its cause, and a window of the
comparator. -/

namespace Sys2Proof.Machine

/-! ## Storing CKP and deciding the reference (R79, R86) -/

@[simp] theorem ckp_setCkp (c : Ckp) (r : Bool) (s : State) : (setCkp c r s).ckp = c := by
  rw [setCkp_frame]

/-- Beside CKP, storing it changes only what raising CLK does. -/
theorem setCkp_rest (c : Ckp) (r : Bool) (s : State) :
    setCkp c r s = { s with
      ckp := (setCkp c r s).ckp, host := (setCkp c r s).host, mgt := (setCkp c r s).mgt, kst := (setCkp c r s).kst } := by
  rw [setCkp_frame]

theorem setCkp_quiet (c : Ckp) (s : State) : setCkp c false s = { s with ckp := c } := rfl

theorem raised_setCkp (c : Ckp) {r : Bool} (h : r = true) (s : State) : raised .clk (setCkp c r s) = true := by
  rw [setCkp, when, if_pos h]
  exact (raiseD_raises _ _ _).2

/-- CLK is raised for the reference only when holdover begins (R81). -/
theorem decideRef_flag {s : State} {c : Ckp} (h : (c.decideRef s).1.holdover = c.holdover) : (c.decideRef s).2 = false := by
  unfold Ckp.decideRef at h ⊢
  split
  · rfl
  · next hstarted =>
    rw [if_neg hstarted] at h
    split
    · split <;> rfl
    · next hnone =>
      have hheld : true = c.holdover := by simpa [hnone] using h
      simp [← hheld]

/-- Deciding the reference again: the mux and the causes (R79). -/
theorem decided_frame (s : State) (c : Ckp) (r : Bool) :
    setCkp (c.decideRef s).1 r s = { s with
      ckp := { c with
        refNow := (setCkp (c.decideRef s).1 r s).ckp.refNow
        refNext := (setCkp (c.decideRef s).1 r s).ckp.refNext
        holdover := (setCkp (c.decideRef s).1 r s).ckp.holdover }
      host := (setCkp (c.decideRef s).1 r s).host
      mgt := (setCkp (c.decideRef s).1 r s).mgt
      kst := (setCkp (c.decideRef s).1 r s).kst } := by
  rw [ckp_setCkp, ← decideRef_frame, setCkp_frame]

/-! ## Qualification (R64-R66) -/

/-- A window of `count` fails a qualified XO for the second time in a row (R66). -/
def Ckp.losesXo (c : Ckp) (count : BitVec 24) : Bool :=
  !c.windowPasses c.runRef count.toNat && c.xoq && decide (1 ≤ c.fails)

/-- What one window leaves (R64, R66). -/
def Ckp.afterWindow (c : Ckp) (count : BitVec 24) : Ckp :=
  let pass := c.windowPasses c.runRef count.toNat
  let lost := c.losesXo count
  { c with
    xocnt := count, xocntRec := c.runRef != .rco
    run := if pass then (if 4 ≤ c.run.toNat then 1 else c.run + 1) else 0
    fails := if pass || lost then 0 else c.fails + 1
    runRef := if pass = true ∧ c.run ≠ 3 then c.runRef else c.chooseRun
    xoq := if pass then c.xoq || c.run == 3 else c.xoq && !lost
    xolost := c.xolost || lost }

/-- The count of a run reaches 4 from 3 alone. -/
theorem nextRun_eq_four (r : BitVec 3) : ((if 4 ≤ r.toNat then 1 else r + 1) = (4 : BitVec 3)) = (r = 3) := by
  revert r
  decide

section

variable {c : Ckp} {count : BitVec 24}

theorem window_pass (h : c.windowPasses c.runRef count.toNat = true) :
    c.window count = ({ c with
      xocnt := count, xocntRec := c.runRef != .rco, run := if 4 ≤ c.run.toNat then 1 else c.run + 1, fails := 0
      xoq := c.xoq || c.run == 3, runRef := if c.run = 3 then c.chooseRun else c.runRef }, false) := by
  have hfourth : ((if 4 ≤ c.run.toNat then 1 else c.run + 1) == (4 : BitVec 3)) = (c.run == 3) :=
    Bool.eq_iff_iff.2 (by simp only [beq_iff_eq, nextRun_eq_four])
  rw [← hfourth, ← if_congr (Iff.of_eq (nextRun_eq_four c.run)) rfl rfl]
  exact if_pos h

theorem window_loses (h : c.windowPasses c.runRef count.toNat = false) (hl : (c.xoq && decide (1 ≤ c.fails)) = true) :
    c.window count = ({ c with
      xocnt := count, xocntRec := c.runRef != .rco, run := 0, fails := 0, runRef := c.chooseRun, xoq := false
      xolost := true }, true) :=
  (if_neg (by simp [h])).trans (if_pos hl)

theorem window_fails (h : c.windowPasses c.runRef count.toNat = false) (hl : (c.xoq && decide (1 ≤ c.fails)) = false) :
    c.window count = ({ c with
      xocnt := count, xocntRec := c.runRef != .rco, run := 0, fails := c.fails + 1, runRef := c.chooseRun }, false) :=
  (if_neg (by simp [h])).trans (if_neg (by simp [hl]))

theorem window_eq : c.window count = (c.afterWindow count, c.losesXo count) := by
  cases hpass : c.windowPasses c.runRef count.toNat
  · cases hl : (c.xoq && decide (1 ≤ c.fails))
    · rw [window_fails hpass hl]
      simp [Ckp.afterWindow, Ckp.losesXo, hpass, hl]
    · rw [window_loses hpass hl]
      simp [Ckp.afterWindow, Ckp.losesXo, hpass, hl]
  · rw [window_pass hpass]
    by_cases hrun : c.run = 3 <;> simp [Ckp.afterWindow, Ckp.losesXo, hpass, hrun]

end

/-- Settles O19: a window is `Ckp.afterWindow` (`window_eq`), after which the reference is decided again. -/
theorem qualificationWindows : Obligations.QualificationWindows := by
  refine ⟨fun count s => ⟨fun h => ?stopped, fun h => ?window⟩, fun s => ⟨fun h => ?requalStopped, fun h => ?requal⟩⟩
  case stopped => exact congrArg Host.Outcome.next (if_neg (by simp [h]))
  case requalStopped => exact congrArg Host.Outcome.next (if_neg (by simp [h]))
  case requal => exact congrArg Host.Outcome.next (if_pos h)
  case window =>
    have hexec : exec (.xoqWindow count) s = .next (setCkp ((s.ckp.afterWindow count).decideRef s).1
        (s.ckp.losesXo count || ((s.ckp.afterWindow count).decideRef s).2) s) := by
      refine congrArg Host.Outcome.next ((if_pos h).trans ?_)
      rw [window_eq]
    have hframe := decided_frame s (s.ckp.afterWindow count) (s.ckp.losesXo count || ((s.ckp.afterWindow count).decideRef s).2)
    refine ⟨_, hexec, setCkp_rest _ _ _, congrArg State.ckp hframe, fun hlost => ?_, fun hlost hhold => ?_⟩
    · exact raised_setCkp _ (Bool.or_eq_true_iff.2 (.inl hlost)) s
    · rw [ckp_setCkp] at hhold
      rw [show s.ckp.losesXo count = false from hlost, decideRef_flag hhold]
      rfl

end Sys2Proof.Machine

/-! SUPPORT. One island of CKP (R67-R78): the steps of its switch, what a step leaves of the other islands, and the
statements about writes, steps and forced switches. -/

namespace Sys2Proof.Machine

/-! ## The place of an island -/

theorem icl_modIclk (c : Ckp) (n m : Fin 7) (f : Iclk → Iclk) :
    (c.modIclk n f).icl m = if m = n then f (c.icl n) else c.icl m := by
  simp only [Ckp.icl, Ckp.modIclk, vget_vmod _ _ _ _ _ n.isLt, Fin.ext_iff]

/-- Only island `n` has changed. -/
def OnlyIsland (n : Fin 7) (s t : State) : Prop :=
  t = { s with ckp := { s.ckp with iclk := t.ckp.iclk } } ∧ ∀ m : Fin 7, m ≠ n → t.ckp.icl m = s.ckp.icl m

/-- A command that changes island `n` by `f` leaves the others alone. -/
theorem gives_modIclk {c : Instr} {n : Fin 7} {f : Iclk → Iclk} {s : State}
    (h : exec c s = .next { s with ckp := s.ckp.modIclk n f }) :
    Gives c s fun t => OnlyIsland n s t ∧ t.ckp.icl n = f (s.ckp.icl n) :=
  ⟨_, h, ⟨rfl, fun m hm => (icl_modIclk s.ckp n m f).trans (if_neg hm)⟩, (icl_modIclk s.ckp n n f).trans (if_pos rfl)⟩

theorem Gives.mono {c : Instr} {s : State} {P Q : State → Prop} (h : Gives c s P) (hPQ : ∀ t, P t → Q t) : Gives c s Q := by
  obtain ⟨t, hexec, hP⟩ := h
  exact ⟨t, hexec, hPQ t hP⟩

/-! ## What a stored register starts (R71, R72, R74) -/

section

variable {i : Iclk} {base : Word} {live : Bool}

theorem start_switch (h : i.waitsrc = true ∨ i.src ≠ fld base 0 2) :
    i.start base live = if live then i.begin else { i with waitsrc := true } := if_pos h

variable (hw : i.waitsrc = false) (hs : i.src = fld base 0 2)

include hw hs

theorem start_same (hd : i.div = fld base 4 3) : i.start base live = i := by
  simp [Iclk.start, hw, hs, hd]

theorem start_ramp (hd : i.div ≠ fld base 4 3) (hlt : i.div < i.step.toNat) :
    i.start base live =
      { i with sw := some { dst := i.act, div := BitVec.ofNat 3 i.div, stopped := true, engaged := true, failover := false } } := by
  simp [Iclk.start, hw, hs, hd, hlt]

theorem start_atOnce (hd : i.div ≠ fld base 4 3) (hle : i.step.toNat ≤ i.div) :
    i.start base live = { i with step := BitVec.ofNat 3 i.div } := by
  simp [Iclk.start, hw, hs, hd, Nat.not_lt.2 hle]

end

/-- What starts changes neither the register nor the source in use. -/
theorem start_keeps (i : Iclk) (base : Word) (live : Bool) :
    (i.start base live).cfg = i.cfg ∧ (i.start base live).act = i.act := by
  unfold Iclk.start
  split
  · split <;> exact ⟨rfl, rfl⟩
  · split
    · exact ⟨rfl, rfl⟩
    · split <;> exact ⟨rfl, rfl⟩

/-! ## The end of a switch (R71, R73) -/

theorem finish_keeps (i : Iclk) (w : Switch) (live : Bool) :
    (i.finish w live).cfg = i.cfg ∧ (i.finish w live).act = i.act := start_keeps _ _ _

/-- Without a held write and a source to wait for, nothing starts when a switch ends. -/
theorem finish_idle {i : Iclk} (hheld : i.held = none) (hwait : i.waitsrc = false) (w : Switch) (live : Bool) :
    i.finish w live = { i with sw := none, failed := w.failover && i.failed } := by
  have hsame : i.finish w live = { i with failed := if w.failover then i.failed else false, sw := none, held := none } := by
    refine start_same hwait ?_ ?_ <;> simp [hheld, Iclk.src, Iclk.div]
  rw [hsame, hheld]
  cases w.failover <;> rfl

/-! ## The steps of a switch (R71, R75, R77) -/

section

variable {i : Iclk} {w : Switch} (hsw : i.sw = some w)

include hsw

theorem disengage_switch : i.disengage = { i with sw := some (if w.engaged then w else { w with stopped := true }) } := by
  simp [Iclk.disengage, hsw]

section

variable (he : w.engaged = false)

include he

theorem engage_ramps (live : Bool) (h : w.div.toNat < (if w.cont then i.step else (5 : BitVec 3)).toNat) :
    i.engage live =
      { i with act := w.dst, step := if w.cont then i.step else 5, sw := some { w with stopped := true, engaged := true } } := by
  simp only [Iclk.engage, hsw, he]
  exact if_neg (Nat.not_le.2 h)

theorem engage_reaches (live : Bool) (h : (if w.cont then i.step else (5 : BitVec 3)).toNat ≤ w.div.toNat) :
    i.engage live =
      { i with act := w.dst, step := w.div, sw := some { w with stopped := true, engaged := true } }.finish
        { w with stopped := true, engaged := true } live := by
  simp only [Iclk.engage, hsw, he]
  exact if_pos h

theorem engage_ends (live : Bool) (h : (if w.cont then i.step else (5 : BitVec 3)).toNat ≤ w.div.toNat)
    (hheld : i.held = none) (hwait : i.waitsrc = false) :
    i.engage live = { i with act := w.dst, step := w.div, sw := none, failed := w.failover && i.failed } := by
  rw [engage_reaches hsw he live h, finish_idle (by exact hheld) (by exact hwait)]

theorem engage_act (live : Bool) : (i.engage live).act = w.dst ∧ (i.engage live).cfg = i.cfg := by
  rcases Nat.lt_or_ge w.div.toNat (if w.cont then i.step else (5 : BitVec 3)).toNat with h | h
  · rw [engage_ramps hsw he live h]
    exact ⟨rfl, rfl⟩
  · rw [engage_reaches hsw he live h]
    exact (finish_keeps _ _ _).symm

end

theorem ramp_stays (live : Bool) (h : w.engaged = false ∨ i.step.toNat ≤ w.div.toNat) : i.ramp live = i := by
  have hdone : (w.engaged && decide (w.div.toNat < i.step.toNat)) = false := by
    rcases h with h | h
    · simp [h]
    · simp [Nat.not_lt.2 h]
  simp [Iclk.ramp, hsw, hdone]

variable (he : w.engaged = true)

include he

theorem ramp_step (live : Bool) (h : w.div.toNat < i.step.toNat) :
    i.ramp live =
      if i.step - 1 = w.div then { i with step := i.step - 1 }.finish w live else { i with step := i.step - 1 } := by
  simp [Iclk.ramp, hsw, he, h]

theorem ramp_halves (live : Bool) (h : w.div.toNat + 1 < i.step.toNat) : i.ramp live = { i with step := i.step - 1 } := by
  rw [ramp_step hsw he live (by omega), if_neg (by bv_omega)]

theorem ramp_ends (live : Bool) (h : w.div.toNat + 1 = i.step.toNat) :
    i.ramp live = { i with step := w.div }.finish w live := by
  have hlast : i.step - 1 = w.div := by bv_omega
  rw [ramp_step hsw he live (by omega), if_pos hlast, hlast]

end

theorem steps_idle {i : Iclk} (h : i.sw = none) (live : Bool) : i.disengage = i ∧ i.ramp live = i := by
  cases i
  subst h
  exact ⟨rfl, rfl⟩

/-! ## The statement -/

theorem exec_iclkWrite {n : Fin 7} {v : Word} {s : State} (h : pd1Up s = true) :
    exec (.iclkWrite n v) s = .next { s with ckp := s.ckp.writeIclk n v (!coreStarted s) } :=
  congrArg Host.Outcome.next (if_pos h)

theorem exec_clockEngage {n : Fin 7} {s : State} (h : (s.ckp.icl n).sw.any (fun w => w.stopped && !w.engaged) = true) :
    exec (.clockEngage n) s = .next { s with ckp := s.ckp.modIclk n fun i => i.engage (s.ckp.srcLive n i.src) } :=
  congrArg Host.Outcome.next (if_pos h)

/-- What a write of the register makes of an island (R67, R68, R73). -/
theorem gives_iclkWrite {n : Fin 7} {v : Word} {s : State} (h : pd1Up s = true) :
    Gives (.iclkWrite n v) s fun t => OnlyIsland n s t ∧
      let i := s.ckp.icl n
      let j : Iclk := { i with cfg := applyWrite iclkFields i.cfg v }
      t.ckp.icl n =
        if i.sw.isSome then { j with held := some (i.held.getD i.cfg) }
        else if (!coreStarted s) = true ∨ i.act = 3 then j
        else j.start i.cfg (s.ckp.srcLive n j.src) :=
  gives_modIclk (exec_iclkWrite h)

/-- Settles O21: a write by what it stores and starts (`start_switch`, `start_ramp`, `start_atOnce`), the steps by the
equations of a switch. -/
theorem islandSwitchesInSteps : Obligations.IslandSwitchesInSteps := by
  refine ⟨fun n v s => ⟨fun h => ?down, fun h => ?write⟩, fun n s h => ⟨?engageIdle, ?disengageIdle, ?rampIdle⟩,
    fun n w s hsw => ⟨?disengage, fun h => ?engageWaits, fun hstop heng => ?engage, ?ramp⟩⟩
  case down => exact congrArg Host.Outcome.next (if_neg (by simp [h]))
  case write =>
    refine (gives_iclkWrite h).mono fun t ⟨honly, hicl⟩ => ⟨honly, fun hsw => ?_, fun hsw hstill => ?_, fun hsw hcore hact => ?_⟩
    · rw [hicl, if_pos (Option.isSome_iff_ne_none.2 hsw)]
    · rw [hicl, if_neg (by simp [hsw]), if_pos (by simpa using hstill)]
    · dsimp only at hicl
      rw [if_neg (by simp [hsw]), if_neg (not_or.2 ⟨by simp [hcore], hact⟩)] at hicl
      refine ⟨fun hchanged => hicl.trans (start_switch hchanged), fun hw hs => ⟨fun hd => ?_, fun hd hlt => ?_, fun hd hle => ?_⟩⟩
      · exact hicl.trans (start_same hw hs hd)
      · exact hicl.trans (start_ramp hw hs hd hlt)
      · exact hicl.trans (start_atOnce hw hs hd hle)
  case engageIdle => exact congrArg Host.Outcome.next (if_neg (by simp [h]))
  case disengageIdle =>
    exact (gives_modIclk rfl).mono fun t ⟨honly, hicl⟩ => ⟨honly, hicl.trans (steps_idle h true).1⟩
  case rampIdle =>
    exact (gives_modIclk rfl).mono fun t ⟨honly, hicl⟩ => ⟨honly, hicl.trans (steps_idle h _).2⟩
  case disengage =>
    exact (gives_modIclk rfl).mono fun t ⟨honly, hicl⟩ => ⟨honly, hicl.trans (disengage_switch hsw)⟩
  case engageWaits => exact congrArg Host.Outcome.next (if_neg (by rcases h with h | h <;> simp [hsw, h]))
  case engage =>
    refine (gives_modIclk (exec_clockEngage (by simp [hsw, hstop, heng]))).mono
      fun t ⟨honly, hicl⟩ => ⟨honly, fun hlt => ?_, fun hle => ⟨?_, ?_, fun hheld hwait => ?_⟩⟩
    · exact hicl.trans (engage_ramps hsw heng _ hlt)
    · rw [hicl]; exact (engage_act hsw heng _).1
    · rw [hicl]; exact (engage_act hsw heng _).2
    · exact hicl.trans (engage_ends hsw heng _ hle hheld hwait)
  case ramp =>
    refine (gives_modIclk rfl).mono fun t ⟨honly, hicl⟩ =>
      ⟨honly, fun h => ?_, fun heng hlt => ?_, fun heng hlast => ⟨?_, ?_, fun hheld hwait => ?_⟩⟩
    · exact hicl.trans (ramp_stays hsw _ h)
    · exact hicl.trans (ramp_halves hsw heng _ hlt)
    · rw [hicl, ramp_ends hsw heng _ hlast]; exact (finish_keeps _ _ _).2
    · rw [hicl, ramp_ends hsw heng _ hlast]; exact (finish_keeps _ _ _).1
    · rw [hicl, ramp_ends hsw heng _ hlast]; exact finish_idle (by exact hheld) (by exact hwait) _ _

/-! ## Forced and reference switches (R75, R79-R81) -/

theorem exec_clockForced_mux (n : Fin 7) (s : State) :
    exec (.clockForced (n.castLE (by decide))) s = .next (
      if (s.ckp.icl n).sw.any (fun w => !w.engaged && !w.stopped) then
        setCkp { s.ckp.modIclk n (fun i => i.engage (s.ckp.srcLive n i.src)) with
          forced := true, fmux := BitVec.ofNat 3 n.val } true s
      else s) :=
  congrArg Host.Outcome.next (if_neg (by simp [Fin.ext_iff]; omega))

theorem engageRef_waiting {c : Ckp} {r : BitVec 2} (h : c.refNext = some r) (forced : Bool) :
    c.engageRef forced = ({ c with
      refNow := r, refNext := none, holdover := false, refsw := true, forced := c.forced || forced
      fmux := if forced then 7 else c.fmux }, true) := by
  simp [Ckp.engageRef, h]

theorem exec_refSwitchEngage (forced : Bool) (s : State) :
    exec (.refSwitchEngage forced) s = .next (setCkp (s.ckp.engageRef forced).1 (s.ckp.engageRef forced).2 s) := rfl

/-- A force of the reference mux is its switch, forced (R80). -/
theorem exec_clockForced_ref (s : State) : exec (.clockForced 7) s = exec (.refSwitchEngage true) s := rfl

theorem exec_refSwitchEngage_idle {s : State} (h : s.ckp.refNext = none) (forced : Bool) :
    exec (.refSwitchEngage forced) s = .next s := by
  simp [exec_refSwitchEngage, Ckp.engageRef, h, setCkp_quiet]

theorem gives_refSwitchEngage {s : State} {r : BitVec 2} (h : s.ckp.refNext = some r) (forced : Bool) :
    Gives (.refSwitchEngage forced) s fun t =>
      t.ckp = { s.ckp with
        refNow := r, refNext := none, holdover := false, refsw := true, forced := s.ckp.forced || forced
        fmux := if forced then 7 else s.ckp.fmux } ∧
      raised .clk t = true ∧ t = { s with ckp := t.ckp, host := t.host, mgt := t.mgt, kst := t.kst } := by
  refine ⟨_, exec_refSwitchEngage forced s, ?_⟩
  rw [engageRef_waiting h]
  exact ⟨ckp_setCkp _ _ _, raised_setCkp _ rfl s, setCkp_rest _ _ _⟩

/-- Until the CLOCK step ends the reference stays (R65). -/
theorem decideRef_before {s : State} {c : Ckp} (h : (c.icl 0).act = 3) : c.decideRef s = (c, false) :=
  if_pos (beq_iff_eq.2 h)

section

variable {s : State} {c : Ckp} (hstarted : (c.icl 0).act ≠ 3)

include hstarted

theorem decideRef_wanted {r : BitVec 2} (h : refWanted s c = some r) :
    (c.decideRef s).1.refNext = if r = c.refNow then none else some r := by
  rw [Ckp.decideRef, if_neg (mt beq_iff_eq.1 hstarted), h]
  dsimp only
  split <;> rfl

theorem decideRef_holdover (h : refWanted s c = none) :
    (c.decideRef s).1.refNow = 3 ∧ (c.decideRef s).1.holdover = true := by
  rw [Ckp.decideRef, if_neg (mt beq_iff_eq.1 hstarted), h]
  exact ⟨rfl, rfl⟩

end

theorem exec_refSelect {s : State} (h : pd1Up s = true) (sel : BitVec 2) :
    exec (.refSelect sel) s = .next (redecideRef { s with ckp := { s.ckp with refSel := sel } }) :=
  congrArg Host.Outcome.next (if_pos h)

/-- Settles O22: a force engages the island as its switch would (`engage_act`), and the reference mux by `engageRef_waiting`;
a write of SEL decides the reference again. -/
theorem forcedAndReferenceSwitches : Obligations.ForcedAndReferenceSwitches := by
  refine ⟨⟨fun n w s hsw hstop heng => ?forced, fun n s h => ?idle, fun s h => ?refIdle, fun r s h => ?ref⟩,
    fun sel s => ⟨fun h => ?down, fun h hcore => ?early, fun h hcore => ?select⟩, fun forced s h => ?engageIdle,
    fun forced r s h => gives_refSwitchEngage h forced⟩
  case forced =>
    refine ⟨_, (exec_clockForced_mux n s).trans (congrArg Host.Outcome.next (if_pos (by simp [hsw, hstop, heng]))), ?_, ?_, ?_,
      raised_setCkp _ rfl s, setCkp_rest _ _ _, fun m hm => ?_⟩
    · rw [ckp_setCkp]
      refine (congrArg Iclk.act ((icl_modIclk s.ckp n n _).trans (if_pos rfl))).trans (engage_act hsw heng _).1
    · rw [ckp_setCkp]
    · rw [ckp_setCkp]
      exact Nat.mod_eq_of_lt (by omega)
    · rw [ckp_setCkp]
      exact (icl_modIclk s.ckp n m _).trans (if_neg hm)
  case idle =>
    refine (exec_clockForced_mux n s).trans (congrArg Host.Outcome.next (if_neg ?_))
    obtain h | ⟨w, hsw, hw⟩ := h
    · simp [h]
    · cases hstop : w.stopped <;> simp_all
  case refIdle => exact (exec_clockForced_ref s).trans (exec_refSwitchEngage_idle h true)
  case ref =>
    rw [Gives, exec_clockForced_ref]
    refine (gives_refSwitchEngage h true).mono fun t ⟨hckp, hraised, _⟩ => ?_
    rw [hckp]
    exact ⟨rfl, Bool.or_true _, rfl, rfl, hraised⟩
  case down => exact congrArg Host.Outcome.next (if_neg (by simp [h]))
  case early =>
    have hstill : (s.ckp.icl 0).act = 3 := by simpa [coreStarted] using hcore
    rw [exec_refSelect h, redecideRef, decideRef_before (by exact hstill)]
    rfl
  case select =>
    have hstarted : (s.ckp.icl 0).act ≠ 3 := by simpa [coreStarted] using hcore
    refine ⟨_, exec_refSelect h sel, ?_, ?_, fun r hr => ?_, fun hr => ?_⟩
    · rw [redecideRef_frame, decideRef_frame]
    · rw [redecideRef_frame]
    · rw [redecideRef_frame]
      exact decideRef_wanted (by exact hstarted) hr
    · rw [redecideRef_frame]
      exact decideRef_holdover (by exact hstarted) hr
  case engageIdle => exact exec_refSwitchEngage_idle h forced

end Sys2Proof.Machine

/-! SUPPORT. Clocks that die and come back (R61-R63, R74, R77, R78), and the enables (R68, R83, R84): each acts on every
island alone. -/

namespace Sys2Proof.Machine

/-! ## The monitor's view (R63) -/

theorem clkIdx_inj {c d : Clk} (h : clkIdx c = clkIdx d) : c = d := by
  have hplace (k : Clk) :
      [Clk.xo, .crw, .cre, .sdw, .sde, .core, .core500, .pwm, .pwm12, .aud][clkIdx k]? = some k := by cases k <;> rfl
  exact Option.some.inj ((hplace c).symm.trans (h ▸ hplace d))

theorem isLive_setLive (c : Ckp) (k d : Clk) (b : Bool) : (c.setLive k b).isLive d = if d = k then b else c.isLive d := by
  have hk : clkIdx k < 10 := by cases k <;> decide
  by_cases hd : d = k
  · subst hd
    simp [Ckp.isLive, Ckp.setLive, vget, hk]
  · have hne : clkIdx k ≠ clkIdx d := fun h => hd (clkIdx_inj h).symm
    simp [Ckp.isLive, Ckp.setLive, vget, hd, hne]

theorem isLive_setLive_self (c : Ckp) (k : Clk) (b : Bool) : (c.setLive k b).isLive k = b :=
  (isLive_setLive c k k b).trans (if_pos rfl)

theorem isLive_setLive_other {c : Ckp} {k d : Clk} (h : d ≠ k) (b : Bool) : (c.setLive k b).isLive d = c.isLive d :=
  (isLive_setLive c k d b).trans (if_neg h)

/-- Every island changed by `f`. -/
theorem icl_mapIdx (c : Ckp) (f : Nat → Iclk → Iclk) (n : Fin 7) :
    ({ c with iclk := c.iclk.mapIdx f } : Ckp).icl n = f n (c.icl n) := by
  simp [Ckp.icl, vget]

/-! ## A source dies (R77, R78) -/

/-- Island `n` runs on clock `k`, or its switch to it has left the old source. -/
def Iclk.dependsOn (n : Nat) (k : Clk) (i : Iclk) : Prop :=
  match i.sw with
  | none => sourceClk n i.act.toNat = some k
  | some w => w.stopped = true ∧ sourceClk n w.dst.toNat = some k

/-- Island `n` neither runs on clock `k` nor switches to it. -/
def Iclk.sparedBy (n : Nat) (k : Clk) (i : Iclk) : Prop :=
  match i.sw with
  | none => sourceClk n i.act.toNat ≠ some k
  | some w => sourceClk n w.dst.toNat ≠ some k

section

variable {i : Iclk} {n : Nat} {k : Clk}

theorem failover_of_dependsOn (h : i.dependsOn n k) (c : Ckp) : i.failover c n k = (i.toRco, true) := by
  unfold Iclk.dependsOn at h
  unfold Iclk.failover
  split
  · next hsw =>
    rw [hsw] at h
    exact if_pos h
  · next w hsw =>
    rw [hsw] at h
    obtain ⟨hstopped, hdst⟩ := h
    rw [if_neg (not_not.2 hdst), if_pos hstopped]

theorem failover_of_sparedBy (h : i.sparedBy n k) (c : Ckp) : i.failover c n k = (i, false) := by
  unfold Iclk.sparedBy at h
  unfold Iclk.failover
  split
  · next hsw =>
    rw [hsw] at h
    exact if_neg h
  · next w hsw =>
    rw [hsw] at h
    exact if_pos h

end

theorem failover_cfg (c : Ckp) (n : Nat) (k : Clk) (i : Iclk) : (i.failover c n k).1.cfg = i.cfg := by
  unfold Iclk.failover
  split
  · split <;> rfl
  · split
    · rfl
    · split
      · rfl
      · split
        · exact (start_keeps _ _ _).1
        · rfl

/-- A failover is a switch to the RCO that has yet to engage, with the divider as it stands. -/
theorem toRco_spec (i : Iclk) :
    i.toRco.act = 2 ∧ i.toRco.failed = true ∧ i.toRco.step = i.step ∧
      i.toRco.sw.any (fun w => w.dst == 2 && !w.engaged && w.failover) = true := by
  refine ⟨rfl, rfl, rfl, ?_⟩
  cases h : i.sw <;> simp [Iclk.toRco, h]

/-- CKP when clock `k` has died, before its islands fail over (R63, R66). -/
def Ckp.silence (k : Clk) (c : Ckp) : Ckp :=
  { c with
    live := (c.setLive k false).live
    xoq := if k = .xo then false else c.xoq
    xolost := if k = .xo then true else c.xolost
    run := if k = .xo then 0 else c.run
    fails := if k = .xo then 0 else c.fails
    runRef := if k = .xo then (c.setLive k false).chooseRun else c.runRef }

/-- CKP when clock `k` has died, before the reference is decided again (R63, R66, R77, R78). -/
def Ckp.afterDeath (k : Clk) (c : Ckp) : Ckp :=
  let d := c.silence k
  { d with
    iclk := (d.failAll k).1.iclk, failover := c.failover || (d.failAll k).2.2, hood := c.hood || (d.failAll k).2.1 }

/-- The death of clock `k` raises CLK by itself. -/
def Ckp.deathRaises (k : Clk) (c : Ckp) : Bool := k == .xo || ((c.silence k).failAll k).2.2

section

variable {k : Clk} {s : State} (hlive : s.ckp.isLive k = true)

include hlive

theorem clockDies_down (h : pd1Up s = false) : clockDies k s = { s with ckp := s.ckp.setLive k false } := by
  simp [clockDies, hlive, h]

theorem clockDies_up (h : pd1Up s = true) :
    clockDies k s = setCkp ((s.ckp.afterDeath k).decideRef s).1
      (s.ckp.deathRaises k || ((s.ckp.afterDeath k).decideRef s).2) s := by
  by_cases hk : k = .xo
  · subst hk
    simp only [clockDies, hlive, h, Bool.not_true, Bool.false_eq_true, if_false]
    rfl
  · have hxo : (k == Clk.xo) = false := by simp [hk]
    have hsilence : s.ckp.silence k = s.ckp.setLive k false := by simp [Ckp.silence, hk, Ckp.setLive]
    simp only [clockDies, hlive, h, Bool.not_true, Bool.false_eq_true, if_false, hxo, Ckp.afterDeath, Ckp.deathRaises, hsilence]
    rfl

end

theorem icl_afterDeath (k : Clk) (c : Ckp) (n : Fin 7) :
    (c.afterDeath k).icl n = ((c.icl n).failover (c.silence k) n k).1 :=
  icl_mapIdx (c.silence k) (fun n i => (i.failover (c.silence k) n k).1) n

/-- A failover of any island is recorded, and one of VOX, MEWS or PWM hoods the outputs (R78). -/
theorem failAll_of_dependsOn {c : Ckp} {n : Fin 7} {k : Clk} (h : (c.icl n).dependsOn n k) :
    (c.failAll k).2.2 = true ∧ (n = 0 ∨ n = 2 ∨ n = 4 → (c.failAll k).2.1 = true) := by
  have hhit : ((c.icl n).failover c n k).2 = true := by rw [failover_of_dependsOn h]
  refine ⟨List.any_eq_true.2 ⟨n, List.mem_range.2 n.isLt, hhit⟩, fun hn => ?_⟩
  simp only [Ckp.failAll, Bool.or_eq_true]
  rcases hn with rfl | rfl | rfl
  · exact .inl (.inl hhit)
  · exact .inl (.inr hhit)
  · exact .inr hhit

/-! ## A clock comes back (R61, R63, R74) -/

/-- CKP when clock `k` has come back, before the reference is decided again: the switches that waited for it begin. -/
def Ckp.afterReturn (k : Clk) (c : Ckp) : Ckp :=
  { c.setLive k true with
    iclk := c.iclk.mapIdx fun n i => if i.waitsrc && sourceClk n i.src == some k && i.sw.isNone then i.begin else i }

section

variable {k : Clk} {s : State} (hlive : s.ckp.isLive k = false)

include hlive

theorem clockLives_down (h : pd1Up s = false) : clockLives k s = { s with ckp := s.ckp.setLive k true } := by
  simp [clockLives, hlive, h]

theorem clockLives_up (h : pd1Up s = true) :
    clockLives k s = setCkp ((s.ckp.afterReturn k).decideRef s).1 ((s.ckp.afterReturn k).decideRef s).2 s := by
  simp only [clockLives, hlive, h, Bool.not_true, Bool.false_eq_true, if_false]
  rfl

end

theorem icl_afterReturn (k : Clk) (c : Ckp) (n : Fin 7) :
    (c.afterReturn k).icl n =
      if (c.icl n).waitsrc = true ∧ sourceClk n (c.icl n).src = some k ∧ (c.icl n).sw = none then (c.icl n).begin
      else c.icl n := by
  refine (icl_mapIdx c _ n).trans (if_congr ?_ rfl rfl)
  simp [and_assoc]

/-! ## A PLL locks (R62, R68) -/

theorem locks_frame (c : Ckp) (p : Pll) :
    c.locks p = { c with lock := setBit c.lock (pllIdx p) true, iclk := (c.locks p).iclk } ∧
      (p ≠ .aud → (c.locks p).iclk = c.iclk) := by
  unfold Ckp.locks
  split
  · next h => exact ⟨rfl, fun hp => absurd h hp⟩
  · exact ⟨rfl, fun _ => rfl⟩

theorem icl_locks_aud (c : Ckp) (n : Fin 7) :
    (c.locks .aud).icl n = if n = 6 ∧ (bit c.en 4 && (c.icl n).act == 3) = true then (c.icl n).run else c.icl n := by
  refine (icl_modIclk _ 6 n _).trans ?_
  by_cases h : n = 6
  · subst h
    simp only [true_and, if_true]
    rfl
  · simp only [h, false_and, if_false]
    rfl

theorem icl_locks_stays {c : Ckp} {p : Pll} {n : Fin 7} (h : n ≠ 6 ∨ (c.icl n).act ≠ 3) : (c.locks p).icl n = c.icl n := by
  by_cases hp : p = .aud
  · subst hp
    refine (icl_locks_aud c n).trans (if_neg fun ⟨hn, ha⟩ => ?_)
    rw [Bool.and_eq_true, beq_iff_eq] at ha
    exact h.elim (· hn) (· ha.2)
  · rw [Ckp.icl, (locks_frame c p).2 hp]
    rfl

theorem exec_pllLock {p : Pll} {s : State} (h : (pd1Up s && pllStarted p s) = true) :
    exec (.pllLock p) s = .next { s with ckp := s.ckp.locks p } := congrArg Host.Outcome.next (if_pos h)

/-! ## The statements -/

theorem exec_clockDead (k : Clk) (s : State) : exec (.clockDead k) s = .next (clockDies k s) := rfl

theorem exec_clockLive {k : Clk} {s : State} (h : recoveredLocked k s = true) :
    exec (.clockLive k) s = .next (clockLives k s) := congrArg Host.Outcome.next (if_pos h)

/-- Settles O20: a death is `Ckp.afterDeath` and a return `Ckp.afterReturn`, island by island; a lock is `Ckp.locks`. -/
theorem clocksDieAndComeBack : Obligations.ClocksDieAndComeBack := by
  refine ⟨fun k s => ⟨fun h => ?dead, fun hlive => ?dies⟩, fun k s => ⟨fun h => ?noReturn, fun hlock hlive => ?returns⟩,
    fun p s => ⟨fun h => ?noLock, fun hpd hstart => ?locks⟩⟩
  case dead =>
    rw [exec_clockDead]
    exact congrArg Host.Outcome.next (if_pos (by simp [h]))
  case dies =>
    rw [Gives, exec_clockDead]
    cases hpd : pd1Up s
    · rw [clockDies_down hlive hpd]
      exact ⟨_, rfl, isLive_setLive_self _ _ _, fun d hd => isLive_setLive_other hd _, rfl, fun _ => rfl, nofun⟩
    · have hframe := decided_frame s (s.ckp.afterDeath k) (s.ckp.deathRaises k || ((s.ckp.afterDeath k).decideRef s).2)
      rw [← clockDies_up hlive hpd] at hframe
      have hclk (hr : s.ckp.deathRaises k = true) : raised .clk (clockDies k s) = true := by
        rw [clockDies_up hlive hpd]
        exact raised_setCkp _ (Bool.or_eq_true_iff.2 (.inl hr)) s
      refine ⟨_, rfl, ?_, fun d hd => ?_, ?_, nofun, fun _ => ⟨?_, ?_, fun n => ⟨?_, fun hdep => ?_, fun hspare => ?_⟩⟩⟩
      · rw [hframe]; exact isLive_setLive_self _ _ _
      · rw [hframe]; exact isLive_setLive_other hd _
      · rw [hframe]
      · split
        · next hk =>
          subst hk
          refine ⟨?_, ?_, hclk rfl, ?_, ?_⟩ <;> rw [hframe] <;> rfl
        · next hk =>
          refine ⟨?_, ?_, ?_, ?_⟩ <;> rw [hframe] <;> exact if_neg hk
      · rw [hframe]; rfl
      · rw [hframe]
        exact (congrArg Iclk.cfg (icl_afterDeath k s.ckp n)).trans (failover_cfg _ _ _ _)
      · have hicl : (clockDies k s).ckp.icl n = (s.ckp.icl n).toRco := by
          rw [hframe]
          exact (icl_afterDeath k s.ckp n).trans (congrArg Prod.fst (failover_of_dependsOn hdep _))
        obtain ⟨hact, hfailed, hstep, hsw⟩ := toRco_spec (s.ckp.icl n)
        obtain ⟨hany, hhood⟩ := failAll_of_dependsOn (c := s.ckp.silence k) (n := n) (k := k) hdep
        rw [hicl]
        refine ⟨hact, hfailed, hstep, hsw, ?_, hclk (Bool.or_eq_true_iff.2 (.inr hany)), fun hn => ?_⟩
        · rw [hframe]; exact Bool.or_eq_true_iff.2 (.inr hany)
        · rw [hframe]; exact Bool.or_eq_true_iff.2 (.inr (hhood hn))
      · rw [hframe]
        exact (icl_afterDeath k s.ckp n).trans (congrArg Prod.fst (failover_of_sparedBy hspare _))
  case noReturn =>
    cases hlock : recoveredLocked k s
    · exact congrArg Host.Outcome.next (if_neg (by simp [hlock]))
    · have hlive : s.ckp.isLive k = true := h.resolve_left (by simp [hlock])
      rw [exec_clockLive hlock]
      exact congrArg Host.Outcome.next (if_pos hlive)
  case returns =>
    rw [Gives, exec_clockLive hlock]
    cases hpd : pd1Up s
    · rw [clockLives_down hlive hpd]
      exact ⟨_, rfl, isLive_setLive_self _ _ _, fun d hd => isLive_setLive_other hd _, rfl, fun _ => rfl, nofun⟩
    · have hframe := decided_frame s (s.ckp.afterReturn k) ((s.ckp.afterReturn k).decideRef s).2
      rw [← clockLives_up hlive hpd] at hframe
      refine ⟨_, rfl, ?_, fun d hd => ?_, ?_, nofun, fun _ => ⟨?_, fun n => ?_⟩⟩
      · rw [hframe]; exact isLive_setLive_self _ _ _
      · rw [hframe]; exact isLive_setLive_other hd _
      · rw [hframe]
      · rw [hframe]; rfl
      · rw [hframe]; exact icl_afterReturn k s.ckp n
  case noLock => exact congrArg Host.Outcome.next (if_neg (by rcases h with h | h <;> simp [h]))
  case locks =>
    have hframe := locks_frame s.ckp p
    refine ⟨_, exec_pllLock (by simp [hpd, hstart]), ?_, ?_, hframe.2, fun n => ⟨icl_locks_stays, fun hp hn hact => ?_⟩⟩
    · rw [hframe.1]
    · rw [hframe.1]
    · subst hp hn
      have hrun : (s.ckp.locks .aud).icl (6 : Fin 7) = (s.ckp.icl (6 : Fin 7)).run :=
        (icl_locks_aud s.ckp 6).trans (if_pos ⟨rfl, by rw [hact]; simpa [pllStarted, enabled] using hstart⟩)
      obtain ⟨hsrc, hdiv⟩ := run_source (s.ckp.icl (6 : Fin 7))
      exact ⟨(congrArg Iclk.cfg hrun :), (congrArg (·.act.toNat) hrun).trans hsrc, (congrArg (·.step.toNat) hrun).trans hdiv⟩

/-! ## The enables (R68, R83, R84) -/

theorem icl_writeEn (c : Ckp) (v : BitVec 6) (started : Bool) (n : Fin 7) :
    (c.writeEn v started).icl n =
      if n.val = 5 then (if !bit v 3 then (c.icl n).stop else if (c.icl n).act = 3 && started then (c.icl n).run else c.icl n)
      else if n.val = 6 then (if !bit v 4 then (c.icl n).stop else if (c.icl n).act = 3 && bit c.lock 4 then (c.icl n).run
        else c.icl n)
      else c.icl n :=
  icl_mapIdx c _ n

theorem exec_peripheralEnable {v : BitVec 6} {s : State} (h : hostUp s = true) :
    exec (.peripheralEnable v) s = .next (enableWrite v s) := congrArg Host.Outcome.next (if_pos h)

/-- Settles O23: CKP as `icl_writeEn` says, and the outputs that a cleared enable stops, whose registers stay. -/
theorem peripheralEnableKeepsRegisters : Obligations.PeripheralEnableKeepsRegisters := by
  refine fun v s => ⟨fun h => congrArg Host.Outcome.next (if_neg (by simp [h])), fun h => ?_⟩
  have hicl := icl_writeEn s.ckp v (coreStarted s)
  refine ⟨_, exec_peripheralEnable h, rfl, rfl, rfl, rfl, rfl, rfl, fun p => ?pix, fun p => ?dmx, rfl, fun hv => if_pos hv,
    fun hv => if_pos hv, fun n hn => ?others, fun hv => ?anaStops, fun hv => ?audStops, fun hv hcore hact => ?anaStarts,
    fun hv hact => ?anaStays⟩
  case pix =>
    cases hv : bit v 2 <;> simp [enableWrite, hv, Pix.cutOff]
  case dmx =>
    cases hv : bit v 5 <;> simp [enableWrite, hv]
  case others =>
    exact (hicl n).trans (by rw [if_neg (by omega), if_neg (by omega)])
  case anaStops =>
    refine congrArg Iclk.act ((hicl 5).trans ?_ : _ = (s.ckp.icl 5).stop)
    simp [hv]
  case audStops =>
    refine congrArg Iclk.act ((hicl 6).trans ?_ : _ = (s.ckp.icl 6).stop)
    simp [hv]
  case anaStarts =>
    refine (congrArg (·.act.toNat) ((hicl 5).trans ?_ : _ = (s.ckp.icl 5).run)).trans (run_source _).1
    simp [hv, hcore, hact]
  case anaStays =>
    refine (hicl 5).trans ?_
    have hruns : ¬(s.ckp.icl 5).act = 3#2 := hact
    simp [hv, hruns]

end Sys2Proof.Machine

/-! SUPPORT. The ports of the chain (R149-R164): one port and one lane in the state, a move, a defect, and the clocks that a
lane's lock and loss start and stop. -/

namespace Sys2Proof.Machine

/-! ## The place of a port and of a lane -/

theorem otherPort_ne (p : PortIdx) : otherPort p ≠ p := by
  revert p
  decide

@[simp] theorem lport_modPort_self (p : PortIdx) (f : LanePort → LanePort) (s : State) :
    lport (modPort p f s) p = f (lport s p) := by
  simp [lport, modPort]

theorem lport_modPort_other {p q : PortIdx} (h : q ≠ p) (f : LanePort → LanePort) (s : State) :
    lport (modPort p f s) q = lport s q := by
  have hne : p.val ≠ q.val := fun he => h (Fin.ext he).symm
  simp [lport, modPort, Vector.getElem_set_ne _ _ hne]

/-- What a change of one port keeps, it keeps of every port. -/
theorem modPort_keeps {α : Type} (g : LanePort → α) {f : LanePort → LanePort} (hf : ∀ x, g (f x) = g x) (p q : PortIdx)
    (s : State) : g (lport (modPort p f s) q) = g (lport s q) := by
  by_cases h : q = p
  · subst h
    rw [lport_modPort_self, hf]
  · rw [lport_modPort_other h]

theorem modPort_of_fixed {p : PortIdx} {f : LanePort → LanePort} {s : State} (h : f (lport s p) = lport s p) :
    modPort p f s = s := by
  have hset : s.lanes.port.set p (f (lport s p)) = s.lanes.port := by
    rw [h]
    exact Vector.set_getElem_self _
  simp only [modPort, hset]

theorem lane_of_rx {x y : LanePort} (h : x.rx = y.rx) (l : Fin 2) : x.lane l = y.lane l := by
  rw [LanePort.lane, LanePort.lane, h]

@[simp] theorem lane_modLane_self (x : LanePort) (l : Fin 2) (f : RxLane → RxLane) : (x.modLane l f).lane l = f (x.lane l) := by
  simp [LanePort.lane, LanePort.modLane]

@[simp] theorem lane_modLane_other (x : LanePort) (l : Fin 2) (f : RxLane → RxLane) :
    (x.modLane l f).lane (1 - l) = x.lane (1 - l) := by
  have hne : ∀ l : Fin 2, l.val ≠ (1 - l : Fin 2).val := by decide
  simp [LanePort.lane, LanePort.modLane, Vector.getElem_set_ne _ _ (hne l)]

theorem modLane_of_fixed {x : LanePort} {l : Fin 2} {f : RxLane → RxLane} (h : f (x.lane l) = x.lane l) :
    x.modLane l f = x := by
  have hset : x.rx.set l (f (x.lane l)) = x.rx := by
    rw [h]
    exact Vector.set_getElem_self _
  simp only [LanePort.modLane, hset]

/-- What both lanes of a port have, one lane and the other have. -/
theorem rx_all (x : LanePort) (l : Fin 2) (g : RxLane → Bool) : x.rx.all g = (g (x.lane l) && g (x.lane (1 - l))) := by
  rw [Bool.eq_iff_iff, Vector.all_eq_true, Bool.and_eq_true]
  constructor
  · exact fun h => ⟨h _ l.isLt, h _ (1 - l : Fin 2).isLt⟩
  · rintro ⟨hl, ho⟩ i hi
    obtain h | h := (by decide : ∀ l i : Fin 2, i = l ∨ i = 1 - l) l ⟨i, hi⟩
    · exact (congrArg (fun j => g (x.lane j)) h).trans hl
    · exact (congrArg (fun j => g (x.lane j)) h).trans ho

/-! ## Changes of the ports alone -/

/-- From `s` to `t` ports changed and causes were raised, of which none is lost. -/
structure PortsChange (s t : State) : Prop where
  frame : t = { s with lanes := { s.lanes with port := t.lanes.port }, host := t.host, mgt := t.mgt, kst := t.kst }
  raised : KeepsRaised s t

theorem PortsChange.refl (s : State) : PortsChange s s := ⟨rfl, fun _ h => h⟩

theorem PortsChange.trans {s u t : State} (h : PortsChange s u) (g : PortsChange u t) : PortsChange s t :=
  ⟨by rw [g.frame, h.frame], h.raised.trans g.raised⟩

theorem modPort_change (p : PortIdx) (f : LanePort → LanePort) (s : State) : PortsChange s (modPort p f s) :=
  ⟨rfl, fun _ h => h⟩

theorem raiseD_change (c : Cause) (n : Nat) (s : State) : PortsChange s (raiseD c n s) := ⟨rfl, (raiseD_raises c n s).1.2⟩

/-! ## A move of a port (R161, R163, R164) -/

/-- A port beside its state, cause, count of moves and turn. -/
def LanePort.rest (x : LanePort) : LanePort := { x with state := .wrapped, cause := 0, wrapcnt := 0, turned := false }

/-- State, cause and count of moves of a port (Table 6.10). -/
def LanePort.course (x : LanePort) : PortState × BitVec 3 × Half := (x.state, x.cause, x.wrapcnt)

/-- The port takes its new state, and the move counts. -/
def countMove (p : PortIdx) (st : PortState) (s : State) : State :=
  modPort p (fun x => { x with state := st, wrapcnt := satInc x.wrapcnt }) s

/-- The turns at both ports end (R161). -/
def endTurns (p : PortIdx) (s : State) : State :=
  modPort p (fun x => { x with turned := false }) (modPort (otherPort p) (fun x => { x with turned := false }) s)

theorem endTurns_keeps {α : Type} (g : LanePort → α) (hg : ∀ x : LanePort, g { x with turned := false } = g x)
    (p q : PortIdx) (s : State) : g (lport (endTurns p s) q) = g (lport s q) :=
  (modPort_keeps g hg p q _).trans (modPort_keeps g hg (otherPort p) q s)

/-- The states that a defect takes a port to. -/
def PortState.broken (st : PortState) : Prop := st = .wrapped ∨ st = .isolated

/-- A port that a defect moves: the move counts and raises WRAP. -/
theorem moveTo_broken {p : PortIdx} {st : PortState} {s : State} (hst : st.broken) (h : (lport s p).state ≠ st) :
    ∃ u, moveTo p st s = raiseD .wrap p.val u ∧ PortsChange s u ∧
      ∀ q, (lport u q).rest = (lport (countMove p st s) q).rest ∧ (lport u q).course = (lport (countMove p st s) q).course := by
  rcases hst with rfl | rfl
  · exact ⟨countMove p .wrapped s, if_neg h, modPort_change _ _ _, fun q => ⟨rfl, rfl⟩⟩
  · exact ⟨endTurns p (countMove p .isolated s), if_neg h,
      (modPort_change _ _ _).trans ((modPort_change _ _ _).trans (modPort_change _ _ _)),
      fun q => ⟨endTurns_keeps _ (fun _ => rfl) p q _, endTurns_keeps _ (fun _ => rfl) p q _⟩⟩

theorem moveTo_spec (p : PortIdx) {st : PortState} (s : State) (hst : st.broken) :
    PortsChange s (moveTo p st s) ∧ (∀ q, (lport (moveTo p st s) q).rest = (lport s q).rest) ∧
      (lport (moveTo p st s) p).state = st ∧ (lport (moveTo p st s) p).cause = (lport s p).cause ∧
      (∀ q, q ≠ p → (lport (moveTo p st s) q).course = (lport s q).course) ∧
      ((lport s p).state ≠ st →
        (lport (moveTo p st s) p).wrapcnt = satInc (lport s p).wrapcnt ∧ raised .wrap (moveTo p st s) = true) := by
  by_cases h : (lport s p).state = st
  · rw [show moveTo p st s = s from if_pos h]
    exact ⟨.refl s, fun q => rfl, h, rfl, fun q hq => rfl, fun hne => absurd h hne⟩
  · obtain ⟨u, hmove, hchange, hports⟩ := moveTo_broken hst h
    rw [hmove]
    have hcourse : (lport u p).course = (st, (lport s p).cause, satInc (lport s p).wrapcnt) := by
      rw [(hports p).2, countMove, lport_modPort_self]
      rfl
    refine ⟨hchange.trans (raiseD_change _ _ _), fun q => ?_, congrArg (·.1) hcourse, congrArg (·.2.1) hcourse,
      fun q hq => ?_, fun _ => ⟨congrArg (·.2.2) hcourse, (raiseD_raises _ _ _).2⟩⟩
    · refine (hports q).1.trans ?_
      rw [countMove]
      refine modPort_keeps LanePort.rest (fun x => ?_) p q s
      rfl
    · refine (hports q).2.trans ?_
      rw [countMove, lport_modPort_other hq]

/-! ## A defect of a port (R160, R161, Table 6.7) -/

theorem hasDefect_modPort {p q : PortIdx} (h : q ≠ p) (f : LanePort → LanePort) (s : State) :
    hasDefect (modPort p f s) q = hasDefect s q := by
  simp only [hasDefect, hardDefect, lport_modPort_other h]
  rfl

/-- The condition is the one that the port records (Table 6.7). -/
def recordsDefect (p : PortIdx) (cause : BitVec 3) (s : State) : Bool :=
  ((lport s p).state == .up || (lport s p).state == .armed || !hasDefect s p || (lport s p).cause == 0)
    && !((lport s p).state == .armed && cause == 4)

/-- Where a condition that is recorded takes its port. -/
def defectDest (p : PortIdx) (cause : BitVec 3) (s : State) : PortState :=
  if cause = 7 then defectState .wrapped (hasDefect s (otherPort p))
  else defectState (lport s p).state (hasDefect s (otherPort p))

theorem defectState_broken (st : PortState) (b : Bool) : (defectState st b).broken := by
  unfold defectState
  split
  · exact .inr rfl
  · split
    · exact .inr rfl
    · exact .inl rfl

theorem defectDest_broken (p : PortIdx) (cause : BitVec 3) (s : State) : (defectDest p cause s).broken := by
  unfold defectDest
  split <;> exact defectState_broken _ _

/-- A WRAPPED or ARMED other port becomes ISOLATED. -/
def isolateOther (q : PortIdx) (s : State) : State :=
  match (lport s q).state with
  | .wrapped | .armed => moveTo q .isolated s
  | _ => s

theorem isolateOther_spec {p q : PortIdx} (h : p ≠ q) (s : State) :
    PortsChange s (isolateOther q s) ∧ (lport (isolateOther q s) p).rest = (lport s p).rest ∧
      (lport (isolateOther q s) p).course = (lport s p).course := by
  obtain ⟨hchange, hrest, -, -, hcourse, -⟩ := moveTo_spec q s (.inr rfl : PortState.isolated.broken)
  unfold isolateOther
  split
  · exact ⟨hchange, hrest p, hcourse p h⟩
  · exact ⟨hchange, hrest p, hcourse p h⟩
  · exact ⟨.refl s, rfl, rfl⟩

section

variable {p : PortIdx} {cause : BitVec 3} {f : LanePort → LanePort} {s : State}

theorem portDefect_recorded (h : recordsDefect p cause s = true) :
    portDefect p cause f s = isolateOther (otherPort p)
      (moveTo p (defectDest p cause s) (modPort p (fun x => { x with cause := cause }) (modPort p f s))) := by
  have hdefect : hasDefect (modPort p (fun x => { x with cause := cause }) (modPort p f s)) (otherPort p) =
      hasDefect s (otherPort p) := by
    rw [hasDefect_modPort (otherPort_ne p), hasDefect_modPort (otherPort_ne p)]
  rw [defectDest, ← hdefect]
  exact if_neg (by rw [Bool.not_eq_true', Bool.not_eq_false]; exact h)

theorem portDefect_further (h : recordsDefect p cause s = false) :
    portDefect p cause f s =
      if cause = 7 then moveTo p (if hasDefect s (otherPort p) then .isolated else .wrapped) (modPort p f s)
      else modPort p f s := by
  rw [← hasDefect_modPort (otherPort_ne p) f s]
  exact if_pos (by rw [Bool.not_eq_true']; exact h)

/-- A condition that is recorded: its cause, and a move to WRAPPED or ISOLATED. -/
theorem portDefect_records (hf : ∀ x, (f x).course = x.course) (h : recordsDefect p cause s = true) :
    (lport (portDefect p cause f s) p).cause = cause ∧ (lport (portDefect p cause f s) p).state = defectDest p cause s ∧
      ((lport s p).state ≠ defectDest p cause s →
        (lport (portDefect p cause f s) p).wrapcnt = satInc (lport s p).wrapcnt ∧
          raised .wrap (portDefect p cause f s) = true) := by
  rw [portDefect_recorded h]
  generalize hu : modPort p (fun x => { x with cause := cause }) (modPort p f s) = u
  have hcourse : (lport u p).course = ((lport s p).state, cause, (lport s p).wrapcnt) := by
    have hfs := hf (lport s p)
    simp only [LanePort.course, Prod.mk.injEq] at hfs
    rw [← hu, lport_modPort_self, lport_modPort_self]
    simp only [LanePort.course, hfs]
  simp only [LanePort.course, Prod.mk.injEq] at hcourse
  obtain ⟨hstate, hcause, hcnt⟩ := hcourse
  obtain ⟨-, -, hdest, hkeep, -, hmove⟩ := moveTo_spec p u (defectDest_broken p cause s)
  obtain ⟨hchange, -, hother⟩ := isolateOther_spec (otherPort_ne p).symm (moveTo p (defectDest p cause s) u)
  simp only [LanePort.course, Prod.mk.injEq] at hother
  obtain ⟨hostate, hocause, hocnt⟩ := hother
  rw [hstate, hcnt] at hmove
  refine ⟨?_, ?_, fun hne => ⟨?_, hchange.raised _ (hmove hne).2⟩⟩
  · rw [hocause, hkeep, hcause]
  · rw [hostate, hdest]
  · rw [hocnt, (hmove hne).1]

/-- Whatever a condition moves, the port beside its course is as the condition left it. -/
theorem portDefect_rest : PortsChange s (portDefect p cause f s) ∧
    (lport (portDefect p cause f s) p).rest = (f (lport s p)).rest := by
  have hchange := modPort_change p f s
  have hport := lport_modPort_self p f s
  cases h : recordsDefect p cause s
  · rw [portDefect_further h]
    split
    · obtain ⟨hmove, hrest, -⟩ := moveTo_spec p (modPort p f s)
        (by split; exacts [.inr rfl, .inl rfl] :
          (if hasDefect s (otherPort p) then PortState.isolated else .wrapped).broken)
      exact ⟨hchange.trans hmove, (hrest p).trans (congrArg _ hport)⟩
    · exact ⟨hchange, congrArg _ hport⟩
  · rw [portDefect_recorded h]
    generalize hu : modPort p (fun x => { x with cause := cause }) (modPort p f s) = u
    have hchange' : PortsChange s u := hu ▸ hchange.trans (modPort_change _ _ _)
    have hport' : (lport u p).rest = (f (lport s p)).rest := by
      rw [← hu, lport_modPort_self, hport]
      rfl
    obtain ⟨hmove, hrest, -⟩ := moveTo_spec p u (defectDest_broken p cause s)
    obtain ⟨hiso, hirest, -⟩ := isolateOther_spec (otherPort_ne p).symm (moveTo p (defectDest p cause s) u)
    exact ⟨hchange'.trans (hmove.trans hiso), hirest.trans ((hrest p).trans hport')⟩

theorem recordsDefect_up (h : (lport s p).state = .up) : recordsDefect p cause s = true := by
  simp [recordsDefect, h]

/-- Of a port that is UP every defect is recorded, and the move counts (R160, R161). -/
theorem portDefect_up (hf : ∀ x, (f x).course = x.course) (h : (lport s p).state = .up) :
    (lport (portDefect p cause f s) p).state = (if hasDefect s (otherPort p) then .isolated else .wrapped) ∧
      (lport (portDefect p cause f s) p).cause = cause ∧
      (lport (portDefect p cause f s) p).wrapcnt = satInc (lport s p).wrapcnt ∧
      raised .wrap (portDefect p cause f s) = true := by
  have hdest : defectDest p cause s = if hasDefect s (otherPort p) then .isolated else .wrapped := by
    simp [defectDest, defectState, h]
  obtain ⟨hcause, hstate, hmove⟩ := portDefect_records hf (recordsDefect_up (cause := cause) h)
  have hne : (lport s p).state ≠ defectDest p cause s := by
    rw [h]
    rcases defectDest_broken p cause s with hb | hb <;> rw [hb] <;> decide
  exact ⟨hstate.trans hdest, hcause, hmove hne⟩

end

end Sys2Proof.Machine

/-! SUPPORT. The recovered clock of a port, and the statements about lanes that train and ports that break (R61, R149-R164). -/

namespace Sys2Proof.Machine

/-! ## The clocks that a lane starts and stops (R61, R63) -/

/-- From `s` to `t` CKP changed and causes were raised, of which none is lost. -/
structure ClocksChange (s t : State) : Prop where
  frame : t = { s with ckp := t.ckp, host := t.host, mgt := t.mgt, kst := t.kst }
  raised : KeepsRaised s t

theorem setCkp_change (c : Ckp) (r : Bool) (s : State) : ClocksChange s (setCkp c r s) :=
  ⟨setCkp_rest c r s, (setCkp_carries (.refl s) c r).raised⟩

theorem clockDies_spec (k : Clk) (s : State) : ClocksChange s (clockDies k s) ∧ (clockDies k s).ckp.isLive k = false := by
  cases hlive : s.ckp.isLive k
  · rw [show clockDies k s = s from if_pos (by simp [hlive])]
    exact ⟨⟨rfl, fun _ h => h⟩, hlive⟩
  · cases hpd : pd1Up s
    · rw [clockDies_down hlive hpd]
      exact ⟨⟨rfl, fun _ h => h⟩, isLive_setLive_self _ _ _⟩
    · rw [clockDies_up hlive hpd]
      refine ⟨setCkp_change _ _ _, ?_⟩
      rw [ckp_setCkp, decideRef_frame]
      exact isLive_setLive_self s.ckp k false

theorem clockLives_spec (k : Clk) (s : State) : ClocksChange s (clockLives k s) ∧ (clockLives k s).ckp.isLive k = true := by
  cases hlive : s.ckp.isLive k
  · cases hpd : pd1Up s
    · rw [clockLives_down hlive hpd]
      exact ⟨⟨rfl, fun _ h => h⟩, isLive_setLive_self _ _ _⟩
    · rw [clockLives_up hlive hpd]
      refine ⟨setCkp_change _ _ _, ?_⟩
      rw [ckp_setCkp, decideRef_frame]
      exact isLive_setLive_self s.ckp k true
  · rw [show clockLives k s = s from if_pos hlive]
    exact ⟨⟨rfl, fun _ h => h⟩, hlive⟩

theorem lport_clockDies (k : Clk) (s : State) (p : PortIdx) : lport (clockDies k s) p = lport s p := by
  rw [(clockDies_spec k s).1.frame]
  rfl

theorem lport_clockLives (k : Clk) (s : State) (p : PortIdx) : lport (clockLives k s) p = lport s p := by
  rw [(clockLives_spec k s).1.frame]
  rfl

/-! ## The commands of a lane -/

theorem exec_laneCdrLock (p : PortIdx) (l : Fin 2) (rate : BitVec 2) (d : Half) (s : State) :
    exec (.laneCdrLock p l rate d) s = .next (if laneOn s (rxDomain p l) && (lport s p).mayLock l rate then
      clockLives (recovered p) (modPort p (fun x => x.lock l rate d) s) else s) := rfl

theorem mayLock_iff (x : LanePort) (l : Fin 2) (rate : BitVec 2) :
    x.mayLock l rate = true ↔ (x.lane l).st = .hunt ∧ rate = (x.lane l).rate ∧ rate ≠ 3 ∧
      ((x.lane (1 - l)).locked? = true → (x.lane (1 - l)).rate = rate) := by
  simp only [LanePort.mayLock, Bool.and_eq_true, beq_iff_eq, bne_iff_ne, Bool.or_eq_true, Bool.not_eq_true', and_assoc]
  refine and_congr_right' (and_congr_right' (and_congr_right' ?_))
  cases (x.lane (1 - l)).locked? <;> simp

theorem lock_lane (x : LanePort) (l : Fin 2) (rate : BitVec 2) (d : Half) :
    (x.lock l rate d).lane l = { x.lane l with st := .adapt, los := false, rate := rate, locked := true } ∧
      (x.lock l rate d).lane (1 - l) = x.lane (1 - l) :=
  ⟨lane_modLane_self x l fun r => { r with los := false, st := .adapt, rate := rate, locked := true },
    lane_modLane_other x l fun r => { r with los := false, st := .adapt, rate := rate, locked := true }⟩

/-- The lane of a port that has converged (R149). -/
def readyLane (p : PortIdx) (l : Fin 2) (s : State) : State := modPort p (fun x => x.modLane l fun r => { r with st := .ready }) s

theorem exec_laneConverged {p : PortIdx} {l : Fin 2} {s : State}
    (h : ((lport s p).lane l).st = .adapt ∨ (((lport s p).lane l).st = .ready ∧ (lport s p).aligned = false)) (d : Bool) :
    exec (.laneConverged p l d) s = .next (
      if (lport (readyLane p l s) p).rx.all (fun r => r.st == .ready) then
        if d then modPort p (fun x => { x with aligned := true, alignDef := false, rate := (x.lane l).rate }) (readyLane p l s)
        else portDefect p 3 (fun x => { x.unaligned with alignDef := true }) (readyLane p l s)
      else readyLane p l s) :=
  congrArg Host.Outcome.next (if_pos (by
    rcases h with h | ⟨h, ha⟩
    · simp [h]
    · simp [h, ha]))

theorem lane_readyLane (p : PortIdx) (l : Fin 2) (s : State) :
    (lport (readyLane p l s) p).lane l = { (lport s p).lane l with st := .ready } ∧
      (lport (readyLane p l s) p).aligned = (lport s p).aligned ∧
      (lport (readyLane p l s) p).rx.all (fun r => r.st == .ready) = (((lport s p).lane (1 - l)).st == .ready) := by
  rw [readyLane, lport_modPort_self]
  refine ⟨lane_modLane_self _ _ _, rfl, ?_⟩
  rw [rx_all _ l, lane_modLane_self, lane_modLane_other]
  rfl

/-- Settles O36: a lock is `LanePort.lock` and a live clock, a timeout the next rate, and a convergence aligns the port or
breaks it. -/
theorem lanesTrain : Obligations.LanesTrain := by
  refine ⟨⟨fun p l rate d s => ⟨fun hst hrate hmax hother hon => ?lock, fun h => ?noLock⟩, fun p l s => ?timeout⟩,
    fun p l s => ⟨fun h => ⟨fun ho => ?aligns, fun ho => ?skewed, fun ho d => ?waits⟩, fun hst haligned d => ?idle⟩⟩
  case lock =>
    have hmay := (mayLock_iff _ _ _).2 ⟨hst, hrate, hmax, hother⟩
    rw [Gives, exec_laneCdrLock, if_pos (by simp [hon, hmay])]
    obtain ⟨⟨hframe, -⟩, hlive⟩ := clockLives_spec (recovered p) (modPort p (fun x => x.lock l rate d) s)
    have hport (q : PortIdx) := lport_clockLives (recovered p) (modPort p (fun x => x.lock l rate d) s) q
    have hself := (hport p).trans (lport_modPort_self p _ s)
    refine ⟨_, rfl, ?_, ?_, ?_, hlive, ?_, ?_⟩
    · rw [hself]; exact (lock_lane _ _ _ _).1
    · rw [hself]; exact (lock_lane _ _ _ _).2
    · rw [hself]; rfl
    · rw [hport, lport_modPort_other (otherPort_ne p)]
    · rw [hframe]; rfl
  case noLock =>
    rw [exec_laneCdrLock, if_neg]
    rw [Bool.and_eq_true, mayLock_iff]
    rintro ⟨hon, hst, hrate, hmax, hother⟩
    rcases h with h | h | h | h | h
    · exact h hst
    · exact h hrate
    · exact hmax h
    · exact h.2 (hother h.1)
    · exact absurd hon (by simp [h])
  case timeout =>
    refine ⟨_, rfl, fun hst => modPort_of_fixed (modLane_of_fixed (if_neg hst)), fun hst => ?_, ?_,
      lport_modPort_other (otherPort_ne p) _ s, rfl⟩
    · rw [lport_modPort_self, lane_modLane_self, if_pos hst]
      rfl
    · rw [lport_modPort_self, lane_modLane_other]
  case aligns =>
    obtain ⟨hlane, -, hall⟩ := lane_readyLane p l s
    rw [Gives, exec_laneConverged h, if_pos (by rw [hall, ho]; rfl), if_pos rfl]
    refine ⟨_, rfl, ?_, ?_, ?_, ?_, rfl⟩ <;> rw [lport_modPort_self]
    · exact hlane
    · exact (congrArg RxLane.rate hlane :)
  case skewed =>
    obtain ⟨hlane, -, hall⟩ := lane_readyLane p l s
    rw [Gives, exec_laneConverged h, if_pos (by rw [hall, ho]; rfl), if_neg (by simp)]
    obtain ⟨⟨hframe, -⟩, hrest⟩ := portDefect_rest (p := p) (cause := 3)
      (f := fun x => { x.unaligned with alignDef := true }) (s := readyLane p l s)
    refine ⟨_, rfl, (lane_of_rx (congrArg LanePort.rx hrest) l).trans hlane, congrArg LanePort.aligned hrest,
      congrArg LanePort.alignDef hrest, ?_⟩
    rw [hframe]
    rfl
  case waits =>
    obtain ⟨hlane, haligned, hall⟩ := lane_readyLane p l s
    rw [Gives, exec_laneConverged h, if_neg (by rw [hall]; simpa using ho)]
    exact ⟨_, rfl, hlane, haligned, rfl⟩
  case idle =>
    refine congrArg Host.Outcome.next (if_neg ?_)
    simp only [Bool.or_eq_true, Bool.and_eq_true, beq_iff_eq, Bool.not_eq_true', not_or, not_and, Bool.not_eq_false]
    exact ⟨hst, haligned⟩

/-! ## The losses of a lane (R149, R160) -/

/-- The lane of a port hunts again from RATEMAX, and the port is no longer aligned (R149, R150). -/
def LanePort.hunts (x : LanePort) (l : Fin 2) (los : Bool) : LanePort :=
  (x.modLane l fun r => { r with los := r.los || los, st := .hunt, rate := x.ratemax }).unaligned

theorem hunts_lane (x : LanePort) (l : Fin 2) (los : Bool) :
    ((x.hunts l los).lane l).st = .hunt ∧ ((x.hunts l los).lane l).rate = x.ratemax ∧
      ((x.hunts l los).lane l).los = ((x.lane l).los || los) := by
  have hlane := lane_modLane_self x l fun r => { r with los := r.los || los, st := .hunt, rate := x.ratemax }
  exact ⟨congrArg RxLane.st hlane, congrArg RxLane.rate hlane, congrArg RxLane.los hlane⟩

/-- What a loss of signal makes of its port. -/
def LanePort.losesSignal (x : LanePort) (l : Fin 2) : LanePort := { x.hunts l true with loscnt := satInc x.loscnt }

theorem exec_laneLos_first {p : PortIdx} {l : Fin 2} {s : State} (hlos : ((lport s p).lane l).los = false)
    (hst : ((lport s p).lane l).st ≠ .off) :
    exec (.laneLos p l) s =
      .next (clockDies (recovered p) (portDefect p 1 (fun x => x.losesSignal l) (raiseD .los p.val s))) := by
  have hf : (fun x : LanePort => ({ (x.modLane l fun r => { r with los := true, st := .hunt, rate := x.ratemax }).unaligned with
      loscnt := satInc x.loscnt } : LanePort)) = fun x => x.losesSignal l := by
    simp [LanePort.losesSignal, LanePort.hunts]
  rw [← hf]
  exact congrArg Host.Outcome.next ((if_neg (by simpa using hst)).trans (if_neg (by simp [hlos])))

theorem exec_laneLos_dark {p : PortIdx} {l : Fin 2} {s : State} (hlos : ((lport s p).lane l).los = true)
    (hst : ((lport s p).lane l).st ≠ .off) : exec (.laneLos p l) s = .next (portDefect p 1 id s) :=
  congrArg Host.Outcome.next ((if_neg (by simpa using hst)).trans (if_pos hlos))

theorem exec_laneLockLoss {p : PortIdx} {l : Fin 2} {s : State} (h : ((lport s p).lane l).locked? = true) :
    exec (.laneLockLoss p l) s = .next (portDefect p 2 (fun x => x.hunts l false) s) := by
  have hf : (fun x : LanePort => (x.modLane l fun r => { r with st := .hunt, rate := x.ratemax }).unaligned) =
      fun x => x.hunts l false := by
    simp [LanePort.hunts]
  rw [← hf]
  exact congrArg Host.Outcome.next (if_pos h)

/-- A defect of an UP port as a loss of a lane shows it. -/
theorem portDefect_wraps {p : PortIdx} {cause : BitVec 3} {f : LanePort → LanePort} {s : State}
    (hf : ∀ x, (f x).course = x.course) (h : (lport s p).state = .up) :
    (lport (portDefect p cause f s) p).cause = cause ∧ raised .wrap (portDefect p cause f s) = true ∧
      (lport (portDefect p cause f s) p).state.broken := by
  obtain ⟨hcause, hstate, -⟩ := portDefect_records hf (recordsDefect_up (cause := cause) h)
  exact ⟨hcause, (portDefect_up hf h).2.2.2, hstate ▸ defectDest_broken p cause s⟩

/-- FORCEWRAP takes its port to WRAPPED or ISOLATED whatever the port has recorded (R160, R161). -/
theorem portDefect_forced {p : PortIdx} {f : LanePort → LanePort} {s : State} (hf : ∀ x, (f x).course = x.course) :
    (lport (portDefect p 7 f s) p).state.broken := by
  cases h : recordsDefect p 7 s
  · have hdest : (if hasDefect s (otherPort p) then PortState.isolated else .wrapped).broken := by
      split
      · exact .inr rfl
      · exact .inl rfl
    obtain ⟨-, -, hstate, -⟩ := moveTo_spec p (modPort p f s) hdest
    rw [portDefect_further h, if_pos rfl, hstate]
    exact hdest
  · rw [(portDefect_records hf h).2.1]
    exact defectDest_broken p 7 s

/-- What the condition of a CAUSE code leaves of its port, for the conditions that are no loss of a lane (Table 6.7). -/
def LanePort.marked (cause : BitVec 3) (x : LanePort) : LanePort :=
  match cause.toNat with
  | 3 => { x.unaligned with alignDef := true }
  | 4 => { x with trainDef := true }
  | 5 => { x with prs := false, moduleDef := true }
  | _ => { x with wrapcfg := setBit x.wrapcfg 0 true }

theorem marked_course (cause : BitVec 3) (x : LanePort) : (x.marked cause).course = x.course := by
  unfold LanePort.marked
  split <;> rfl

/-- The mark stays whatever the port then moves. -/
theorem marks_of_rest {cause : BitVec 3} {x z : LanePort} (hz : z.rest = (x.marked cause).rest) :
    (cause = 5 → z.moduleDef = true ∧ z.prs = false) ∧ (cause = 4 → z.trainDef = true) ∧
      (cause = 3 → z.alignDef = true ∧ z.aligned = false ∧ z.tap = false) ∧ (cause = 7 → bit z.wrapcfg 0 = true) := by
  refine ⟨?_, ?_, ?_, ?_⟩ <;> rintro rfl
  · exact ⟨congrArg LanePort.moduleDef hz, congrArg LanePort.prs hz⟩
  · exact congrArg LanePort.trainDef hz
  · exact ⟨congrArg LanePort.alignDef hz, congrArg LanePort.aligned hz, congrArg LanePort.tap hz⟩
  · have hcfg : z.wrapcfg = setBit x.wrapcfg 0 true := (congrArg LanePort.wrapcfg hz :)
    rw [hcfg, bit_setBit _ _ _ _ (by decide), if_pos rfl]

theorem exec_trainReceived (p : PortIdx) (s : State) :
    exec (.trainReceived p) s = .next (if (lport s p).state == .up then
      portDefect p 4 (fun x => { x with trainDef := true }) s else s) := rfl

theorem exec_forceWrap (p : PortIdx) (on : Bool) (s : State) :
    exec (.forceWrap p on) s = .next (if pdOn s (2 + p.val) then forceWrap p on s else s) := rfl

/-- FORCEWRAP written 0 moves nothing. -/
theorem forceWrap_lifts (p : PortIdx) (s : State) :
    forceWrap p false s = modPort p (fun x => { x with wrapcfg := setBit x.wrapcfg 0 false }) s := rfl

/-- The four conditions are defects with their marks. -/
theorem exec_condition {p : PortIdx} {s : State} {x : Instr × BitVec 3}
    (hx : x ∈ [(Instr.moduleRemoved p, (5 : BitVec 3)), (.trainReceived p, 4), (.alignmentLoss p, 3), (.forceWrap p true, 7)])
    (h7 : x.2 = 7 → pdOn s (2 + p.val) = true) (h4 : x.2 = 4 → (lport s p).state = .up) :
    exec x.1 s = .next (portDefect p x.2 (LanePort.marked x.2) s) := by
  simp only [List.mem_cons, List.not_mem_nil, or_false] at hx
  rcases hx with rfl | rfl | rfl | rfl
  · rfl
  · exact (exec_trainReceived p s).trans (congrArg Host.Outcome.next (if_pos (by simp [h4 rfl])))
  · rfl
  · exact (exec_forceWrap p true s).trans (congrArg Host.Outcome.next (if_pos (h7 rfl)))

/-- Settles O37: every condition is a `portDefect`, whose port beside its course is as the condition left it. -/
theorem defectsWrapPorts : Obligations.DefectsWrapPorts := by
  refine ⟨fun p l s => ⟨fun h => ?off, fun hlos hst hcause => ?dark, fun hlos hst => ?los, fun h => ?noLock, fun h => ?lockLoss⟩,
    fun p s x hx h7 h4 => ?condition, fun p s => ⟨fun h => ?noTrain, fun h on => ?noPower, fun h => ?unforced⟩⟩
  case off => exact congrArg Host.Outcome.next (if_pos (by simp [h]))
  case dark =>
    obtain ⟨⟨hframe, -⟩, hrest⟩ := portDefect_rest (p := p) (cause := 1) (f := id) (s := s)
    have hfirst : recordsDefect p 1 s = true := by simp [recordsDefect, hcause]
    obtain ⟨hrecorded, hstate, -⟩ := portDefect_records (p := p) (f := id) (fun _ => rfl) hfirst
    exact ⟨_, exec_laneLos_dark hlos hst, hrecorded, (congrArg LanePort.rx hrest :),
      (congrArg LanePort.loscnt hrest :),
      hstate ▸ defectDest_broken p 1 s, hframe⟩
  case los =>
    obtain ⟨⟨hframe, hkeep⟩, hrest⟩ := portDefect_rest (p := p) (cause := 1) (f := fun x => x.losesSignal l)
      (s := raiseD .los p.val s)
    have hraised := hkeep _ (raiseD_raises .los p.val s).2
    have hup := portDefect_wraps (p := p) (cause := 1) (f := fun x => x.losesSignal l) (s := raiseD .los p.val s) (fun _ => rfl)
    have hexec := exec_laneLos_first hlos hst
    generalize portDefect p 1 (fun x => x.losesSignal l) (raiseD .los p.val s) = u at *
    obtain ⟨⟨hclocks, hcauses⟩, hdead⟩ := clockDies_spec (recovered p) u
    have hlane := lane_of_rx (congrArg LanePort.rx hrest) l
    obtain ⟨hhunt, hrate, hloss⟩ := hunts_lane (lport s p) l true
    refine ⟨_, hexec, ?_⟩
    dsimp only
    rw [lport_clockDies (recovered p) u p]
    refine ⟨(congrArg RxLane.st hlane).trans hhunt, (congrArg RxLane.los hlane).trans (hloss.trans (Bool.or_true _)),
      (congrArg RxLane.rate hlane).trans hrate, (congrArg LanePort.aligned hrest :), (congrArg LanePort.loscnt hrest :),
      hcauses _ hraised, hdead, ?_, fun h => ?_⟩
    · rw [hclocks, hframe]
      rfl
    · obtain ⟨hcause, hwrap, hbroken⟩ := hup h
      exact ⟨hcause, hcauses _ hwrap, hbroken⟩
  case noLock => exact congrArg Host.Outcome.next (if_neg (by simp [h]))
  case lockLoss =>
    obtain ⟨⟨hframe, -⟩, hrest⟩ := portDefect_rest (p := p) (cause := 2) (f := fun x => x.hunts l false) (s := s)
    have hlane := lane_of_rx (congrArg LanePort.rx hrest) l
    obtain ⟨hst, hrate, -⟩ := hunts_lane (lport s p) l false
    exact ⟨_, exec_laneLockLoss h, (congrArg RxLane.st hlane).trans hst, (congrArg RxLane.rate hlane).trans hrate,
      congrArg LanePort.aligned hrest, hframe, portDefect_wraps fun _ => rfl⟩
  case condition =>
    obtain ⟨⟨hframe, -⟩, hrest⟩ := portDefect_rest (p := p) (cause := x.2) (f := LanePort.marked x.2) (s := s)
    obtain ⟨hmodule, htrain, halign, hforce⟩ := marks_of_rest hrest
    refine ⟨_, exec_condition hx h7 h4, hmodule, htrain, halign, fun h => ⟨hforce h, ?_⟩, hframe,
      portDefect_up (marked_course x.2)⟩
    rw [h]
    exact portDefect_forced (marked_course 7)
  case noTrain => exact (exec_trainReceived p s).trans (congrArg Host.Outcome.next (if_neg (by simpa using h)))
  case noPower => exact (exec_forceWrap p on s).trans (congrArg Host.Outcome.next (if_neg (by simp [h])))
  case unforced =>
    rw [Gives, exec_forceWrap, if_pos h, forceWrap_lifts]
    exact ⟨_, rfl, lport_modPort_self p (fun x => { x with wrapcfg := setBit x.wrapcfg 0 false }) s,
      lport_modPort_other (otherPort_ne p) _ s, rfl⟩

end Sys2Proof.Machine

/-! SUPPORT. What an access does to the memories (R298-R305), and the debug port (R166, R432, R433). -/

namespace Sys2Proof.Machine

/-! ## Poisoned words (R303, R304) -/

theorem codeData_code (d : Quad) (c : Byte) : codeData (code d c) = d := by
  change ((c ++ d : BitVec (8 + 64))).setWidth 64 = d
  rw [BitVec.setWidth_append]
  simp

theorem codeCheck_code (d : Quad) (c : Byte) : codeCheck (code d c) = c := by
  change ((c ++ d : BitVec (8 + 64)) >>> 64).setWidth 8 = c
  ext i hi
  rw [BitVec.getElem_setWidth, BitVec.getLsbD_ushiftRight, BitVec.getLsbD_append]
  simp [BitVec.getLsbD_eq_getElem hi]

theorem syndrome_poisonCode (d : Quad) : syndrome (poisonCode d) = 0xFF := by
  rw [syndrome, poisonCode, codeCheck_code, codeData_code, BitVec.xor_comm (check d), BitVec.xor_assoc, BitVec.xor_self,
    BitVec.xor_zero]

theorem eccClass_poisonCode (d : Quad) : eccClass (poisonCode d) = .poison := by
  rw [eccClass, syndrome_poisonCode]
  rfl

theorem eccData_of_uncorrectable {c : Code} (h : eccClass c = .uncorrectable) : eccData c = codeData c := by
  have hcol : columnBit (syndrome c) = none := by
    by_contra hne
    rw [← ne_eq, ← Option.isSome_iff_ne_none] at hne
    unfold eccClass at h
    dsimp only at h
    rw [if_pos hne] at h
    split at h
    · cases h
    · split at h <;> cases h
  rw [eccData, hcol]

theorem eccData_poisonCode (d : Quad) : eccData (poisonCode d) = d := by
  have hcol : columnBit 0xFF = none := by decide
  rw [eccData, syndrome_poisonCode, hcol]
  exact codeData_code d _

/-- A word that reads left, or rewrote as poison, delivers what it delivered. -/
theorem SameWord.delivers {s t : State} {b : Nat} (h : SameWord s t b) :
    eccData (rawWord t.mem b) = eccData (rawWord s.mem b) ∧ eccMarker (rawWord t.mem b) = eccMarker (rawWord s.mem b) := by
  rcases h with h | ⟨hclass, hpoison⟩
  · rw [h]
    exact ⟨rfl, rfl⟩
  · rw [hpoison, eccData_poisonCode, eccData_of_uncorrectable hclass, eccMarker, eccMarker, eccClass_poisonCode, hclass]
    exact ⟨rfl, rfl⟩

theorem SameWord.trans {s u t : State} {b : Nat} (h : SameWord s u b) (g : SameWord u t b) : SameWord s t b := by
  rcases g with g | ⟨gclass, gpoison⟩
  · rcases h with h | ⟨hclass, hpoison⟩
    · exact .inl (g.trans h)
    · exact .inr ⟨hclass, g.trans hpoison⟩
  · rcases h with h | ⟨-, hpoison⟩
    · rw [h] at gclass gpoison
      exact .inr ⟨gclass, gpoison⟩
    · rw [hpoison, eccClass_poisonCode] at gclass
      cases gclass

/-! ## Reads of memory (R301-R303) -/

/-- From `s` to `t` words were read: the form and the flip mask stay, and a word differs only as poison. -/
structure ReadsMem (s t : State) : Prop where
  wf : t.mem.wf = true
  flip : ∀ m, flipMask t.ecc m = flipMask s.ecc m
  word : ∀ b, SameWord s t b

theorem ReadsMem.refl {s : State} (h : s.mem.wf = true) : ReadsMem s s := ⟨h, fun _ => rfl, fun _ => .inl rfl⟩

theorem ReadsMem.trans {s u t : State} (h : ReadsMem s u) (g : ReadsMem u t) : ReadsMem s t :=
  ⟨g.wf, fun m => (g.flip m).trans (h.flip m), fun b => (h.word b).trans (g.word b)⟩

/-- A change outside the memories and the ECC block. -/
theorem ReadsMem.of_eq {s t : State} (h : s.mem.wf = true) (hmem : t.mem = s.mem) (hecc : t.ecc = s.ecc) : ReadsMem s t := by
  refine ⟨hmem ▸ h, fun m => by rw [hecc], fun b => .inl (by rw [hmem])⟩

theorem eccCorrected_flip (e : Ecc) (t a : Nat) (w : Code) (src : BitVec 4) (m : Nat) :
    flipMask (eccCorrected e t a w src) m = flipMask e m := by
  unfold eccCorrected
  dsimp only
  split <;> rfl

theorem eccUncorrectable_flip (e : Ecc) (t a : Nat) (w : Code) (src : BitVec 4) (m : Nat) :
    flipMask (eccUncorrectable e t a w src) m = flipMask e m := by
  unfold eccUncorrectable
  dsimp only
  split <;> rfl

/-- A read of one word, and the other words, which it leaves. -/
theorem memReadEffect_reads (src : BitVec 4) (a : Nat) {s : State} (h : s.mem.wf = true) :
    ReadsMem s (memReadEffect src a s) ∧
      ∀ b, b / 8 ≠ a / 8 → rawWord (memReadEffect src a s).mem b = rawWord s.mem b := by
  unfold memReadEffect
  split
  · exact ⟨.refl h, fun _ _ => rfl⟩
  · next t _ =>
    dsimp only
    split
    · exact ⟨.refl h, fun _ _ => rfl⟩
    · exact ⟨.refl h, fun _ _ => rfl⟩
    · unfold when
      split <;> exact ⟨⟨h, eccCorrected_flip _ _ _ _ _, fun _ => .inl rfl⟩, fun _ _ => rfl⟩
    · next hclass =>
      have hword (b : Nat) := rawWord_putRaw s.mem a b (poisonCode (codeData (rawWord s.mem a))) h
      refine ⟨⟨putRaw_wf _ _ _ h, eccUncorrectable_flip _ _ _ _ _, fun b => ?_⟩, fun b hb => (hword b).trans (if_neg hb)⟩
      by_cases hb : b / 8 = a / 8
      · have hsame : rawWord s.mem b = rawWord s.mem a := by rw [rawWord, rawWord, hb]
        exact .inr ⟨hsame ▸ hclass, (hword b).trans ((if_pos hb).trans (by rw [hsame]))⟩
      · exact .inl ((hword b).trans (if_neg hb))

theorem readWordsEffect_reads (src : BitVec 4) (a n : Nat) {s : State} (h : s.mem.wf = true) :
    ReadsMem s (readWordsEffect src a n s) := by
  induction n generalizing a s with
  | zero => exact .refl h
  | succ n ih =>
    obtain ⟨hread, -⟩ := memReadEffect_reads src a h
    exact hread.trans (ih (a + 8) hread.wf)

theorem PatchRead.advanceEffect_reads (k : Nat) (r : PatchRead) {s : State} (h : s.mem.wf = true) :
    ReadsMem s (r.advanceEffect k s) := by
  unfold PatchRead.advanceEffect
  split
  · exact readWordsEffect_reads _ _ _ h
  · exact .refl h

/-- One outstanding read takes the words that it takes before a store (R282). -/
def slideOne (s : State) (r : PatchRead) : State :=
  let k := (Config.freeWord s.free).toNat % (r.left + 1)
  let t := r.advanceEffect k s
  { t with free := s.free + 1, dis := { t.dis with reads := t.dis.reads ++ [r.advance k s] } }

theorem slideReads_eq (s : State) :
    slideReads s = s.dis.reads.foldl slideOne { s with dis := { s.dis with reads := [] } } := rfl

theorem slideReads_reads {s : State} (h : s.mem.wf = true) : ReadsMem s (slideReads s) := by
  rw [slideReads_eq]
  have hstart : ReadsMem s { s with dis := { s.dis with reads := [] } } := .of_eq h rfl rfl
  generalize ({ s with dis := { s.dis with reads := [] } } : State) = u at hstart
  induction s.dis.reads generalizing u with
  | nil => exact hstart
  | cons r rs ih =>
    have hread := PatchRead.advanceEffect_reads ((Config.freeWord u.free).toNat % (r.left + 1)) r hstart.wf
    exact ih (slideOne u r) (hstart.trans (hread.trans (.of_eq hread.wf rfl rfl)))

/-! ## A merged write (R298, R305, R313) -/

theorem mergedWord_congr {s t : State} {a : Nat} (h : ReadsMem s t) (m n : Nat) (v : Word) (p : Bool) :
    mergedWord t m a n v p = mergedWord s m a n v p := by
  obtain ⟨hdata, hmarker⟩ := (h.word a).delivers
  rw [mergedWord, mergedWord, hdata, hmarker, h.flip]

theorem mergedWrite_spec {s : State} (h : s.mem.wf = true) {a m : Nat} (hm : memOf a = some m) (src : BitVec 4) (n : Nat)
    (v : Word) (p : Bool) :
    rawWord (mergedWrite src a n v p s).mem a = mergedWord s m a n v p ∧
      ∀ b, b / 8 ≠ a / 8 → rawWord (mergedWrite src a n v p s).mem b = rawWord s.mem b := by
  obtain ⟨hread, hother⟩ := memReadEffect_reads src a h
  have hmem : (mergedWrite src a n v p s).mem = putRaw (memReadEffect src a s).mem a (mergedWord s m a n v p) := by
    rw [mergedWord, ← hread.flip, mergedWrite, writeCode, hm]
    cases p || eccMarker (rawWord s.mem a) <;> rfl
  constructor
  · rw [hmem, rawWord_putRaw _ _ _ _ hread.wf, if_pos rfl]
  · intro b hb
    rw [hmem, rawWord_putRaw _ _ _ _ hread.wf, if_neg hb, hother b hb]

/-- A write of a memory by an access: its word merged, the others as the outstanding patch reads leave them (R282). -/
theorem mapWrite_memory {s : State} (h : s.mem.wf = true) {a m : Nat} (hm : memOf a = some m) (r : Requester) (src : BitVec 4)
    (n : Nat) (v : Word) (p : Bool) :
    rawWord (mapWrite r src a n v p s).mem a = mergedWord s m a n v p ∧ OtherWords s (mapWrite r src a n v p s) a := by
  have hslide := slideReads_reads h
  obtain ⟨hself, hother⟩ := mergedWrite_spec hslide.wf hm src n v p
  rw [mapWrite, hm, Option.isSome_some, if_pos rfl]
  refine ⟨hself.trans (mergedWord_congr hslide _ _ _ _), fun b hb => ?_, fun hreads b hb => ?_⟩
  · have hsame := hslide.word b
    rw [SameWord, ← hother b hb] at hsame
    exact hsame
  · rw [hother b hb, slideReads_eq, hreads]
    rfl

/-! ## One access by its ending (R12, R23-R25) -/

section

variable {s : State} {adm : Ending} {a : Nat} {q : Ask}

theorem replyOf_of_not_data (h : endingOf s adm a q ≠ .data) : replyOf adm a q s = { ending := endingOf s adm a q } := by
  unfold replyOf
  split
  · next hd => exact absurd hd h
  · rfl

theorem effectOf_of_not_data (h : endingOf s adm a q ≠ .data) (r : Requester) : effectOf adm r a q s = s := if_neg h

theorem replyOf_read (h : endingOf s adm a .read = .data) :
    replyOf adm a .read s = { ending := .data, data := (mapRead s a).1, poison := (mapRead s a).2 } := by
  rw [replyOf, h]

theorem replyOf_ending : (replyOf adm a q s).ending = endingOf s adm a q := by
  by_cases h : endingOf s adm a q = .data
  · unfold replyOf
    rw [h]
    cases q <;> rfl
  · rw [replyOf_of_not_data h]

end

/-! ## The debug port (R166, R432, R433) -/

theorem exec_kdebugUpdate (dr : BitVec 65) (s : State) :
    exec (.kdebugUpdate dr) s = .next (if s.jtag.ir = .kdebug ∧ s.jtag.acc.isNone then
      let write : Option Word := if bit dr 64 then some (dr.setWidth 32) else none
      { s with jtag := { s.jtag with
          acc := some { addr := (dr >>> 32).setWidth 32, data := write
                        adm := admission s .jtag (((dr >>> 32).setWidth 32 : Word).toNat / 4 * 4) write.isSome } } }
    else s) := rfl

section

variable {x : Access} {s : State} (hacc : s.jtag.acc = some x)

include hacc

theorem kdebugEnd_fused (hfuse : Config.jtagdbg = false) : kdebugEnd s = kdebugDone 0 true s := by
  simp [kdebugEnd, hacc, hfuse]

variable (hfuse : Config.jtagdbg = true)

include hfuse

theorem kdebugEnd_waits (hw : accessWaits s (x.addr.toNat / 4 * 4) x.data.isSome = true) : kdebugEnd s = s := by
  simp [kdebugEnd, hacc, hfuse, hw]

theorem kdebugEnd_ends (hw : accessWaits s (x.addr.toNat / 4 * 4) x.data.isSome = false) :
    kdebugEnd s =
      kdebugDone (replyOf x.adm (x.addr.toNat / 4 * 4) (winAsk x.data) s).data
        (endingOf s x.adm (x.addr.toNat / 4 * 4) (winAsk x.data) != .data)
        (effectOf x.adm .jtag (x.addr.toNat / 4 * 4) (winAsk x.data) s) := by
  simp [kdebugEnd, hacc, hfuse, hw, replyOf_ending]

end

/-- A write of a memory by the debug port, which draws the requester code of its read (log entry 87). -/
theorem effectOf_jtag_memory {s : State} (h : s.mem.wf = true) {adm : Ending} {a m : Nat} (hm : memOf a = some m) {v : Word}
    (hdata : endingOf s adm a (.write 4 v false) = .data) :
    rawWord (effectOf adm .jtag a (.write 4 v false) s).mem a = mergedWord s m a 4 v false ∧
      OtherWords s (effectOf adm .jtag a (.write 4 v false) s) a := by
  rw [effectOf, if_pos hdata]
  exact mapWrite_memory (s := { s with free := s.free + 1 }) h hm .jtag (eccSrc .jtag s.free) 4 v false

/-- Settles O60: the access by its ending (`kdebugEnd_fused`, `kdebugEnd_waits`, `kdebugEnd_ends`), and a write of a memory by
`mapWrite_memory`. -/
theorem jtagSelectsAndDebugs : Obligations.JtagSelectsAndDebugs := by
  refine ⟨fun s x hx => ?select, fun dr s => ⟨fun h => ?busy, fun hir hacc => ?start⟩, fun s hacc => ?idle,
    fun x s hacc => ⟨fun hfuse => ?fused, fun hfuse hw => ?waits, fun hfuse hw => ?ends⟩⟩
  case select =>
    simp only [List.mem_cons, List.not_mem_nil, or_false] at hx
    rcases hx with rfl | rfl | rfl | rfl | rfl | rfl | rfl | rfl | rfl <;> rfl
  case busy =>
    rw [exec_kdebugUpdate, if_neg]
    rintro ⟨hir, hacc⟩
    rcases h with h | h
    · exact h hir
    · rw [Option.isNone_iff_eq_none] at hacc
      simp [hacc] at h
  case start =>
    rw [exec_kdebugUpdate, if_pos ⟨hir, by simp [hacc]⟩]
    cases bit dr 64 <;> rfl
  case idle => simp [exec_kdebugAccessEnd, kdebugEnd, hacc]
  case fused => rw [exec_kdebugAccessEnd, kdebugEnd_fused hacc hfuse, kdebugDone]
  case waits => rw [exec_kdebugAccessEnd, kdebugEnd_waits hacc hfuse hw]
  case ends =>
    rw [Gives, exec_kdebugAccessEnd, kdebugEnd_ends hacc hfuse hw]
    refine ⟨_, rfl, rfl, fun hne => ?_, fun hdata => ⟨?_, fun hread => ?_, fun v m hv hwf hm => ?_⟩⟩
    · rw [replyOf_of_not_data hne, effectOf_of_not_data hne, kdebugDone, bne_iff_ne.2 hne]
    · rw [kdebugDone, hdata]
      rfl
    · rw [hread] at hdata ⊢
      exact congrArg Reply.data (replyOf_read hdata)
    · rw [hv] at hdata ⊢
      exact effectOf_jtag_memory hwf hm hdata

end Sys2Proof.Machine

/-! SUPPORT. The window accesses of the host (R120-R128): how they issue, what their reply leaves, and the timeout. -/

namespace Sys2Proof.Machine

/-! ## The data registers of a window (R121, R122, R125) -/

theorem windowIdx_cases (w : WIdx) : w = 0 ∨ w = 1 := by
  revert w
  decide

/-- The half-word index of DATA_LO and of DATA_HI of window `w` (Table 5.3). -/
def dataLoIdx (w : WIdx) : Fin 64 := if w = 0 then 0x12 else 0x1A
def dataHiIdx (w : WIdx) : Fin 64 := if w = 0 then 0x13 else 0x1B

theorem hostWrite_dataLo (w : WIdx) (d : Half) (s : State) : hostWrite (dataLoIdx w).val d s = dataLoWrite w d s := by
  obtain rfl | rfl := windowIdx_cases w <;> rfl

theorem hostWrite_dataHi (w : WIdx) (d : Half) (s : State) : hostWrite (dataHiIdx w).val d s = dataHiWrite w d s := by
  obtain rfl | rfl := windowIdx_cases w <;> rfl

theorem hostReadEffect_dataLo (w : WIdx) (s : State) : hostReadEffect (dataLoIdx w).val s = dataLoRead w s := by
  obtain rfl | rfl := windowIdx_cases w <;> rfl

/-- A window data access is no kick when it is issued (R135, log entry 86). -/
theorem owlSees_dataAccess {a : HostAccess} (hkick : isKickWrite a = false) (hdata : isDataAccess a = true) (o : Owl)
    (s : State) : owlSees o a s = s.setOwl { s.owl with lastKick := false } := by
  simp [owlSees, hkick, hdata, State.setOwl]

section

variable {s : State} (h : HostServed s) (w : WIdx)

include h

theorem exec_windowDataLoWrite (d : Half) :
    ∃ o, exec (.windowDataLoWrite w d) s = .next ((dataLoWrite w d (lateTime s)).setOwl o) := by
  obtain ⟨o, ho⟩ := hostPut_of_served h (dataLoIdx w) d
  exact ⟨o, congrArg Host.Outcome.next (ho.trans (by rw [hostWrite_dataLo]))⟩

theorem exec_windowDataHiWrite (d : Half) :
    exec (.windowDataHiWrite w d) s =
      .next ((dataHiWrite w d (lateTime s)).setOwl { (dataHiWrite w d (lateTime s)).owl with lastKick := false }) := by
  have haccess : isKickWrite (.write (dataHiIdx w) d) = false ∧ isDataAccess (.write (dataHiIdx w) d) = true := by
    obtain rfl | rfl := windowIdx_cases w <;> exact ⟨rfl, rfl⟩
  refine congrArg Host.Outcome.next ((hostAccess_of_served h (.write (dataHiIdx w) d)).trans ?_)
  rw [owlSees_dataAccess haccess.1 haccess.2, hostServe, hostWrite_dataHi]

theorem exec_windowDataLoRead :
    exec (.windowDataLoRead w) s =
      .next ((dataLoRead w (lateTime s)).setOwl { (dataLoRead w (lateTime s)).owl with lastKick := false }) := by
  have haccess : isKickWrite (.read (dataLoIdx w)) = false ∧ isDataAccess (.read (dataLoIdx w)) = true := by
    obtain rfl | rfl := windowIdx_cases w <;> exact ⟨rfl, rfl⟩
  refine congrArg Host.Outcome.next ((hostAccess_of_served h (.read (dataLoIdx w))).trans ?_)
  rw [owlSees_dataAccess haccess.1 haccess.2, hostServe, hostReadEffect_dataLo]

end

theorem windowBlocked_busy {s : State} {w : WIdx} (h : (win s w).acc ≠ none) : windowBlocked s w = true := by
  rw [windowBlocked, Option.isSome_iff_ne_none.2 h, Bool.true_or]

theorem windowBlocked_free {s : State} {w : WIdx} (hacc : (win s w).acc = none) (hroost : s.mode.code ≠ .roost) :
    windowBlocked s w = false := by
  simp [windowBlocked, hacc, hroost]

theorem dataLoWrite_spec (w : WIdx) (d : Half) (s : State) :
    win (dataLoWrite w d s) w = { win s w with staging := d, staged := true } ∧
      win (dataLoWrite w d s) (1 - w) = win s (1 - w) ∧
      dataLoWrite w d s = { s with host := { s.host with win := (dataLoWrite w d s).host.win } } := by
  unfold dataLoWrite
  exact ⟨win_modWin_self w _ s, win_modWin_other w _ s, rfl⟩

section

variable {w : WIdx} {s : State} (h : windowBlocked s w = false)

include h

theorem dataHiWrite_issues (d : Half) :
    win (dataHiWrite w d s) w = { win s w with
      staged := false
      acc := some { addr := (win s w).addr, data := some (d ++ (win s w).staging)
                    adm := admission s (.window w) (win s w).addr.toNat true } } ∧
      win (dataHiWrite w d s) (1 - w) = win s (1 - w) ∧
      dataHiWrite w d s = { s with host := { s.host with win := (dataHiWrite w d s).host.win } } := by
  rw [dataHiWrite, if_neg (by simp [h])]
  exact ⟨win_modWin_self w _ s, win_modWin_other w _ s, rfl⟩

theorem dataLoRead_issues :
    win (dataLoRead w s) w = { win s w with
      acc := some { addr := (win s w).addr, data := none
                    adm := admission s (.window w) (win s w).addr.toNat false } } ∧
      win (dataLoRead w s) (1 - w) = win s (1 - w) ∧
      dataLoRead w s = { s with host := { s.host with win := (dataLoRead w s).host.win } } := by
  rw [dataLoRead, if_neg (by simp [h])]
  exact ⟨win_modWin_self w _ s, win_modWin_other w _ s, rfl⟩

end

/-- A data access that finds one in progress sets ABS and is counted (R26, R125). -/
theorem windowRefused_spec (w : WIdx) (s : State) :
    win (windowRefused w s) w = { win s w with abs := true } ∧
      windowRefused w s = { s with
        host := { s.host with win := (windowRefused w s).host.win }
        sys := { s.sys with absCount := satInc s.sys.absCount, lastAbs := (win s w).addr } } :=
  ⟨win_modWin_self w (fun x => { x with abs := true }) s, rfl⟩

/-! ## A reply (R122, R123, R126, R127) -/

/-- A window beside the marks of its endings. -/
def Window.unmarked (x : Window) : Window := { x with abs := false, berr := false }

/-- From `s` to `t` an ending was marked: the pins, and window `w` beside its marks, are as they were. -/
structure Marked (w : WIdx) (s t : State) : Prop where
  frame : t = { s with host := t.host, sys := t.sys, owl := t.owl, mgt := t.mgt, kst := t.kst }
  hd : t.host.hd = s.host.hd
  win : (Machine.win t w).unmarked = (Machine.win s w).unmarked

theorem Marked.refl (w : WIdx) (s : State) : Marked w s s := ⟨rfl, rfl, rfl⟩

theorem Marked.trans {w : WIdx} {s u t : State} (h : Marked w s u) (g : Marked w u t) : Marked w s t :=
  ⟨by rw [g.frame, h.frame], g.hd.trans h.hd, g.win.trans h.win⟩

theorem raise_marked (w : WIdx) (c : Cause) (s : State) : Marked w s (raise c s) := by
  refine ⟨rfl, ?_, by rw [win_raise]⟩
  rw [raise_host]

theorem winPoison_marked (w : WIdx) (s : State) : Marked w s (winPoison w s) :=
  have hflag : Marked w s { s with host := { s.host with poison := true, pwin := w = 1 } } := ⟨rfl, rfl, rfl⟩
  hflag.trans (raise_marked w .poison _)

theorem owlDone_marked (w : WIdx) (s : State) : Marked w s (owlDone s) := by
  unfold owlDone
  split <;> exact ⟨rfl, rfl, rfl⟩

theorem when_marked {w : WIdx} {f : State → State} (hf : ∀ s, Marked w s (f s)) (b : Bool) (s : State) :
    Marked w s (when b f s) := by
  cases b
  · exact .refl w s
  · exact hf s

theorem windowMark_marked (w : WIdx) (a : Word) (e : Ending) (s : State) : Marked w s (windowMark w a e s) := by
  have hmark (f : Window → Window) (hf : ∀ x, (f x).unmarked = x.unmarked) : Marked w s (countAbsent a (modWin w f s)) := by
    refine ⟨rfl, rfl, ?_⟩
    rw [win_countAbsent, win_modWin_self, hf]
  cases e
  · exact .refl w s
  · exact hmark (fun x => { x with abs := true }) fun _ => rfl
  · exact (hmark (fun x => { x with abs := true, berr := true }) fun _ => rfl).trans (raise_marked w .berr _)

/-- Window `w` steps on after an access, and a read delivers its data (R122, R126). -/
def stepWindow (w : WIdx) (read : Bool) (data : Word) (s : State) : State :=
  if read then winData w data (modWin w Window.step s) else modWin w Window.step s

theorem stepWindow_spec (w : WIdx) (read : Bool) (data : Word) (s : State) :
    stepWindow w read data s = { s with host := (stepWindow w read data s).host } ∧
      (win (stepWindow w read data s) w).acc = none ∧ (win (stepWindow w read data s) w).inc = (win s w).inc ∧
      (win (stepWindow w read data s) w).addr = (if (win s w).inc then (win s w).addr + 4 else (win s w).addr) ∧
      (read = true → (stepWindow w read data s).host.hd = data.setWidth 16 ∧
        (win (stepWindow w read data s) w).latch = (data >>> 16).setWidth 16) := by
  have hstep := win_modWin_self w Window.step s
  cases read
  · exact ⟨rfl, congrArg Window.acc hstep, (congrArg Window.inc hstep :), congrArg Window.addr hstep, nofun⟩
  · have hdata := win_winData w data (modWin w Window.step s)
    rw [hstep] at hdata
    exact ⟨rfl, congrArg Window.acc hdata, (congrArg Window.inc hdata :), congrArg Window.addr hdata,
      fun _ => ⟨rfl, congrArg Window.latch hdata⟩⟩

/-- The state in which the ending of access `x` is marked: its effect done and its window stepped on; `s` is the state that
the access is performed in. -/
def atReply (w : WIdx) (x : Access) (s : State) : State :=
  stepWindow w x.data.isNone (replyOf x.adm x.addr.toNat (winAsk x.data) s).data
    (effectOf x.adm (.window w) x.addr.toNat (winAsk x.data) s)

/-- The end of an access by its ending. -/
theorem windowEnd_eq (w : WIdx) (x : Access) (s : State) :
    windowEnd w x s =
      let v := lateSettle x.addr.toNat s
      let r := replyOf x.adm x.addr.toNat (winAsk x.data) v
      windowMark w x.addr r.ending (when (r.ending == .data) owlDone
        (when (r.ending == .data && x.data.isNone && r.poison) (winPoison w) (atReply w x v))) := rfl

theorem windowEnd_marked (w : WIdx) (x : Access) (s : State) :
    Marked w (atReply w x (lateSettle x.addr.toNat s)) (windowEnd w x s) := by
  rw [windowEnd_eq]
  exact (when_marked (winPoison_marked w) _ _).trans ((when_marked (owlDone_marked w) _ _).trans (windowMark_marked w _ _ _))

/-- A reply leaves its effect at the target beside the host bus, what ABSENT counts, the owl and the causes. -/
theorem windowEnd_frame {w : WIdx} {x : Access} {s v : State} (hv : lateSettle x.addr.toNat s = v) :
    windowEnd w x s = { effectOf x.adm (.window w) x.addr.toNat (winAsk x.data) v with
      host := (windowEnd w x s).host, sys := (windowEnd w x s).sys, owl := (windowEnd w x s).owl
      mgt := (windowEnd w x s).mgt, kst := (windowEnd w x s).kst } := by
  have hframe := (windowEnd_marked w x s).frame
  generalize windowEnd w x s = t at hframe ⊢
  rw [hv, atReply, (stepWindow_spec w _ _ _).1] at hframe
  exact hframe

/-- The reply of a window read that ends with DATA. -/
theorem reply_of_read {x : Access} {v : State} (hread : x.data = none)
    (h : (replyOf x.adm x.addr.toNat (winAsk x.data) v).ending = .data) :
    replyOf x.adm x.addr.toNat (winAsk x.data) v =
      { ending := .data, data := (mapRead v x.addr.toNat).1, poison := (mapRead v x.addr.toNat).2 } := by
  rw [hread] at h ⊢
  exact replyOf_read (replyOf_ending.symm.trans h)

section

variable {w : WIdx} {x : Access} {s v : State} {e : Ending} (hv : lateSettle x.addr.toNat s = v)

include hv

/-- An access that does not end with DATA has no effect at its target, and its ending is marked (R25, R26). -/
theorem windowEnd_refused (h : (replyOf x.adm x.addr.toNat (winAsk x.data) v).ending = e) (hne : e ≠ .data) :
    effectOf x.adm (.window w) x.addr.toNat (winAsk x.data) v = v ∧ (atReply w x v).sys = v.sys ∧
      windowEnd w x s = windowMark w x.addr e (atReply w x v) := by
  have heffect := effectOf_of_not_data (r := .window w) (by rw [← replyOf_ending, h]; exact hne)
  refine ⟨heffect, ?_, ?_⟩
  · rw [atReply, (stepWindow_spec w _ _ _).1]
    exact (congrArg State.sys heffect :)
  · have hmark : (e == Ending.data) = false := by simp [hne]
    rw [windowEnd_eq, hv]
    dsimp only
    rw [h, hmark]
    rfl

theorem windowEnd_absent (h : (replyOf x.adm x.addr.toNat (winAsk x.data) v).ending = .absent) :
    effectOf x.adm (.window w) x.addr.toNat (winAsk x.data) v = v ∧ (win (windowEnd w x s) w).abs = true ∧
      (windowEnd w x s).sys = { v.sys with absCount := satInc v.sys.absCount, lastAbs := x.addr } := by
  obtain ⟨heffect, hsys, hend⟩ := windowEnd_refused (w := w) hv h (by decide)
  obtain ⟨hframe, hself, -⟩ := windowMark_absent w x.addr (atReply w x v)
  rw [hend]
  exact ⟨heffect, congrArg Window.abs hself, by rw [hframe, ← hsys]; rfl⟩

theorem windowEnd_berr (h : (replyOf x.adm x.addr.toNat (winAsk x.data) v).ending = .berr) :
    effectOf x.adm (.window w) x.addr.toNat (winAsk x.data) v = v ∧ (win (windowEnd w x s) w).abs = true ∧
      (win (windowEnd w x s) w).berr = true ∧ raised .berr (windowEnd w x s) = true ∧
      (windowEnd w x s).sys = { v.sys with absCount := satInc v.sys.absCount, lastAbs := x.addr } := by
  obtain ⟨heffect, hsys, hend⟩ := windowEnd_refused (w := w) hv h (by decide)
  obtain ⟨hframe, hself, hraised⟩ := windowMark_berr w x.addr (atReply w x v)
  rw [hend]
  exact ⟨heffect, congrArg Window.abs hself, congrArg Window.berr hself, hraised, by rw [hframe, ← hsys]; rfl⟩

end

/-- A read that delivers poisoned data says so in HB_STATUS (R127). -/
theorem windowEnd_poisoned {w : WIdx} {x : Access} {s v : State} (hv : lateSettle x.addr.toNat s = v)
    (h : (replyOf x.adm x.addr.toNat (winAsk x.data) v).ending = .data) (hread : x.data = none)
    (hpoison : (replyOf x.adm x.addr.toNat (winAsk x.data) v).poison = true) :
    (windowEnd w x s).host.poison = true ∧ (windowEnd w x s).host.pwin = (w == 1) ∧
      raised .poison (windowEnd w x s) = true := by
  have hend : windowEnd w x s = owlDone (winPoison w (atReply w x v)) := by
    rw [windowEnd_eq, hv]
    dsimp only
    rw [h, hpoison, hread]
    rfl
  have hhost : (owlDone (winPoison w (atReply w x v))).host = (winPoison w (atReply w x v)).host := by
    unfold owlDone
    split <;> rfl
  rw [hend, raised, hhost]
  refine ⟨?_, ?_, raised_raise _ _⟩ <;> rw [winPoison, raise_host]
  rfl

/-- An access that ends with DATA counts nothing (R26). -/
theorem windowEnd_data {w : WIdx} {x : Access} {s v : State} (hv : lateSettle x.addr.toNat s = v)
    (h : (replyOf x.adm x.addr.toNat (winAsk x.data) v).ending = .data) :
    (windowEnd w x s).sys = (effectOf x.adm (.window w) x.addr.toNat (winAsk x.data) v).sys := by
  have hwhen (b : Bool) (f : State → State) (hf : ∀ s, (f s).sys = s.sys) (s : State) : (when b f s).sys = s.sys := by
    cases b
    · rfl
    · exact hf s
  have howl (s : State) : (owlDone s).sys = s.sys := by
    unfold owlDone
    split <;> rfl
  rw [windowEnd_eq, hv]
  dsimp only
  rw [h, windowMark, hwhen _ _ howl, hwhen _ (winPoison w) fun _ => rfl, atReply, (stepWindow_spec w _ _ _).1]

/-! ## A timeout (R124, R128) -/

/-- The state in which the timeout of access `x` is marked: a read's data is 0, and a write that its target has accepted may
still be performed (R128). -/
def atTimeout (w : WIdx) (x : Access) (s : State) : State :=
  match x.data with
  | none => winData w 0 s
  | some v =>
    if x.adm = .data then
      let t : State := { s with free := s.free + 1 }
      if Config.lateWritePerformed s.free then modWin w (fun y => { y with late := y.late ++ [(x.addr, v)] }) t else t
    else s

theorem windowTimeout_eq {w : WIdx} {x : Access} {s : State} (hacc : (win s w).acc = some x) :
    windowTimeout w s = raise .berr (countAbsent x.addr
      (modWin w (fun x => { x.step with abs := true, tmo := true }) (atTimeout w x s))) := by
  rw [windowTimeout, hacc]
  rfl

theorem atTimeout_spec (w : WIdx) (x : Access) (s : State) :
    atTimeout w x s = { s with host := (atTimeout w x s).host, free := (atTimeout w x s).free } ∧
      (win (atTimeout w x s) w).addr = (win s w).addr ∧ (win (atTimeout w x s) w).inc = (win s w).inc ∧
      (x.data = none → (atTimeout w x s).host.hd = 0 ∧ (win (atTimeout w x s) w).late = (win s w).late) ∧
      (x.adm ≠ .data → (win (atTimeout w x s) w).late = (win s w).late) ∧
      ∀ v, x.data = some v →
        (win (atTimeout w x s) w).late = (win s w).late ∨ (win (atTimeout w x s) w).late = (win s w).late ++ [(x.addr, v)] := by
  unfold atTimeout
  split
  · next hread =>
    have hdata := win_winData w 0 s
    refine ⟨rfl, (congrArg Window.addr hdata :), (congrArg Window.inc hdata :), fun _ => ⟨rfl, (congrArg Window.late hdata :)⟩,
      fun _ => (congrArg Window.late hdata :), fun v hv => ?_⟩
    rw [hread] at hv
    cases hv
  · next v hwrite =>
    have hnone : x.data ≠ none := by simp [hwrite]
    split
    · next hadm =>
      dsimp only
      split
      · have hlate := win_modWin_self w (fun y => { y with late := y.late ++ [(x.addr, v)] }) { s with free := s.free + 1 }
        refine ⟨rfl, (congrArg Window.addr hlate :), (congrArg Window.inc hlate :), fun h => absurd h hnone,
          fun h => absurd hadm h, fun u hu => .inr ?_⟩
        obtain rfl : v = u := Option.some.inj (hwrite.symm.trans hu)
        exact (congrArg Window.late hlate :)
      · exact ⟨rfl, rfl, rfl, fun h => absurd h hnone, fun h => absurd hadm h, fun _ _ => .inl rfl⟩
    · exact ⟨rfl, rfl, rfl, fun h => absurd h hnone, fun _ => rfl, fun _ _ => .inl rfl⟩

/-- What the marks of a timeout leave. -/
theorem windowTimeout_spec {w : WIdx} {x : Access} {s : State} (hacc : (win s w).acc = some x) :
    win (windowTimeout w s) w = { (win (atTimeout w x s) w).step with abs := true, tmo := true } ∧
      (windowTimeout w s).host.hd = (atTimeout w x s).host.hd ∧ raised .berr (windowTimeout w s) = true ∧
      windowTimeout w s = { s with
        host := (windowTimeout w s).host, mgt := (windowTimeout w s).mgt, kst := (windowTimeout w s).kst
        free := (windowTimeout w s).free, sys := { s.sys with absCount := satInc s.sys.absCount, lastAbs := x.addr } } := by
  rw [windowTimeout_eq hacc]
  refine ⟨?_, ?_, raised_raise _ _, ?_⟩
  · rw [win_raise, win_countAbsent, win_modWin_self]
  · rw [raise_host]
    rfl
  · rw [raise_of_unlogged rfl rfl, (atTimeout_spec w x s).1]
    rfl

/-! ## The statement -/

theorem exec_windowTimeout (w : WIdx) (s : State) : exec (.windowTimeout w) s = .next (windowTimeout w s) := rfl

/-- Settles O32: the issues by `exec_windowDataHiWrite` and its like, a reply by what `atReply` leaves and by its ending, and
the timeout by what `atTimeout` leaves. -/
theorem windowAccesses : Obligations.WindowAccesses := by
  refine ⟨fun w d s hserved => ⟨?stage, fun hacc => ⟨?write, ?read⟩, fun hacc c hc => ?busy⟩,
    ⟨fun w s hacc => ⟨?noReply, ?noTimeout⟩, fun w x s hacc hw => ?waits, fun w x s hacc hw => ?reply⟩,
    fun w x s hacc => ?timeout, fun s h => late_of_none h⟩
  case stage =>
    obtain ⟨o, hexec⟩ := exec_windowDataLoWrite hserved w d
    generalize lateTime s = u at hexec ⊢
    obtain ⟨hself, hother, hframe⟩ := dataLoWrite_spec w d u
    exact ⟨_, hexec, hself, hother, by rw [hframe]; rfl⟩
  case write =>
    have hexec := exec_windowDataHiWrite hserved w d
    have hfree := windowBlocked_free hacc hserved.2.2
    generalize lateTime s = u at hexec hfree ⊢
    obtain ⟨hself, hother, hframe⟩ := dataHiWrite_issues hfree d
    exact ⟨_, hexec, hself, hother, by rw [hframe]; rfl⟩
  case read =>
    have hexec := exec_windowDataLoRead hserved w
    have hfree := windowBlocked_free hacc hserved.2.2
    generalize lateTime s = u at hexec hfree ⊢
    obtain ⟨hself, hother, hframe⟩ := dataLoRead_issues hfree
    exact ⟨_, hexec, hself, hother, by rw [hframe]; rfl⟩
  case busy =>
    have hwrite := exec_windowDataHiWrite hserved w d
    have hread := exec_windowDataLoRead hserved w
    generalize lateTime s = u at hwrite hread hacc hc ⊢
    obtain ⟨hself, -⟩ := windowRefused_spec w u
    simp only [List.mem_cons, List.not_mem_nil, or_false] at hc
    rcases hc with rfl | rfl
    · rw [show dataHiWrite w d u = windowRefused w u from if_pos (windowBlocked_busy hacc)] at hwrite
      exact ⟨_, hwrite, (congrArg Window.abs hself :), (congrArg Window.acc hself :), rfl, rfl, rfl⟩
    · rw [show dataLoRead w u = setHd 0 (windowRefused w u) from if_pos (windowBlocked_busy hacc)] at hread
      exact ⟨_, hread, (congrArg Window.abs hself :), (congrArg Window.acc hself :), rfl, rfl, rfl⟩
  case noReply => rw [exec_windowReply, windowReply, hacc]
  case noTimeout => rw [exec_windowTimeout, windowTimeout, hacc]
  case waits =>
    rw [exec_windowReply, windowReply, hacc]
    exact congrArg Host.Outcome.next (if_pos hw)
  case reply =>
    intro v e r
    have hreply : windowReply w s = windowEnd w x (lateTime s) := by
      rw [windowReply, hacc]
      exact if_neg (by simp [hw])
    obtain ⟨-, hhd, hwin⟩ := windowEnd_marked w x (lateTime s)
    obtain ⟨-, hdone, hinc, haddr, hdata⟩ := stepWindow_spec w x.data.isNone r.data e
    rw [Gives, exec_windowReply, hreply]
    refine ⟨_, rfl, windowEnd_frame rfl, (congrArg Window.acc hwin :).trans hdone, (congrArg Window.inc hwin :).trans hinc,
      (congrArg Window.addr hwin :).trans haddr, fun hread => ?_, fun h => windowEnd_absent rfl h,
      fun h => windowEnd_berr rfl h, fun h => ⟨windowEnd_data rfl h, fun hread => ⟨?_, fun hpoison => ?_⟩⟩⟩
    · obtain ⟨hpins, hlatch⟩ := hdata (by simp [hread])
      exact ⟨hhd.trans hpins, (congrArg Window.latch hwin :).trans hlatch⟩
    · exact congrArg Reply.data (reply_of_read hread h)
    · exact windowEnd_poisoned rfl h hread ((congrArg Reply.poison (reply_of_read hread h)).trans hpoison)
  case timeout =>
    obtain ⟨hself, hhd, hraised, hframe⟩ := windowTimeout_spec hacc
    obtain ⟨-, haddr, hinc, hread, hother, hwrite⟩ := atTimeout_spec w x s
    rw [Gives, exec_windowTimeout]
    refine ⟨_, rfl, congrArg Window.acc hself, congrArg Window.tmo hself, congrArg Window.abs hself, hraised, ?_, hframe,
      fun h => ⟨hhd.trans (hread h).1, (congrArg Window.late hself).trans (hread h).2⟩,
      fun h => (congrArg Window.late hself).trans (hother h), fun v hv => ?_⟩
    · rw [← haddr, ← hinc]
      exact congrArg Window.addr hself
    · rw [congrArg Window.late hself]
      exact hwrite v hv

end Sys2Proof.Machine

/-! SUPPORT. What every command upholds, each part apart from the others: the queue, the canonical form of the memories, and
PD0 ON (R87). `State.Kept` of Laws/Keep.lean joins the three, so that it says nothing of a state that lacks one of them;
`Upholds` says of each alone that it goes from one state to a later one. -/

namespace Sys2Proof.Machine

/-- What is upheld from `s₀` on, of the three parts that it is about. -/
def UpholdsParts (s₀ : State) (p : List Instr) (m : Mem) (g : Gate) : Prop :=
  p = s₀.pending ∧ (s₀.mem.wf = true → m.wf = true) ∧ (s₀.gate.aonOn = true → g.aonOn = true)

/-- From `s₀` to `s` the queue is the same, memories in their canonical form stay so, and PD0 stays ON with no command in
progress that names it. -/
@[simp] abbrev Upholds (s₀ s : State) : Prop := UpholdsParts s₀ s.pending s.mem s.gate

theorem Upholds.refl (s : State) : Upholds s s := ⟨rfl, id, id⟩

section

variable {s₀ s : State}

/-- A change of the memories that keeps their form. -/
theorem UpholdsParts.remem {p : List Instr} {m m' : Mem} {g : Gate} (h : UpholdsParts s₀ p m g)
    (hm : m.wf = true → m'.wf = true) : UpholdsParts s₀ p m' g := ⟨h.1, fun h₀ => hm (h.2.1 h₀), h.2.2⟩

/-- A change of the gate controller that keeps PD0 ON. -/
theorem UpholdsParts.regate {p : List Instr} {m : Mem} {g g' : Gate} (h : UpholdsParts s₀ p m g)
    (hg : g.aonOn = true → g'.aonOn = true) : UpholdsParts s₀ p m g' := ⟨h.1, h.2.1, fun h₀ => hg (h.2.2 h₀)⟩

@[simp] theorem ite_upholds {c : Prop} [Decidable c] (t u : State) :
    Upholds s₀ (if c then t else u) ↔ if c then Upholds s₀ t else Upholds s₀ u := by split <;> rfl

variable (h : Upholds s₀ s)

include h

/-- An operation taken at the members of a list, one after the other. -/
theorem foldl_upholds {α : Type} {f : State → α → State} {l : List α}
    (hf : ∀ s, ∀ a ∈ l, Upholds s₀ s → Upholds s₀ (f s a)) : Upholds s₀ (l.foldl f s) := by
  induction l generalizing s with
  | nil => exact h
  | cons a l ih => exact ih (hf s a (by simp) h) fun t b hb => hf t b (by simp [hb])

/-! ## Blocks, causes and memory -/

@[simp] theorem setChn_upholds (x : Chn) : Upholds s₀ (s.setChn x) := h
@[simp] theorem setHead_upholds (x : Head) : Upholds s₀ (s.setHead x) := h
@[simp] theorem setFree_upholds (x : Nat) : Upholds s₀ (s.setFree x) := h
@[simp] theorem setEcc_upholds (x : Ecc) : Upholds s₀ (s.setEcc x) := h
@[simp] theorem setMrg_upholds (x : Mrg) : Upholds s₀ (s.setMrg x) := h
@[simp] theorem setVox_upholds (x : Vox) : Upholds s₀ (s.setVox x) := h
@[simp] theorem setMgt_upholds (x : Mgt) : Upholds s₀ (s.setMgt x) := h
@[simp] theorem raiseWith_upholds (c : Cause) (detail : Word) (pb : Option Nat) : Upholds s₀ (raiseWith c detail pb s) := h
@[simp] theorem raise_upholds (c : Cause) : Upholds s₀ (raise c s) := h
@[simp] theorem raiseD_upholds (c : Cause) (detail : Nat) : Upholds s₀ (raiseD c detail s) := h
@[simp] theorem raiseGpt_upholds (n : Nat) : Upholds s₀ (raiseGpt n s) := h

@[simp] theorem when_upholds {b : Bool} {f : State → State} (hf : Upholds s₀ (f s)) : Upholds s₀ (when b f s) := by
  unfold when
  split
  · exact hf
  · exact h

@[simp] theorem memReadEffect_upholds (src : BitVec 4) (a : Nat) : Upholds s₀ (memReadEffect src a s) := by
  unfold memReadEffect
  split
  · exact h
  · extract_lets d
    split
    · exact h
    · exact h
    · refine when_upholds ?_ (raise_upholds ?_ _) <;> exact h
    · refine raiseD_upholds ?_ _ _
      exact h.remem (putRaw_wf _ _ _)

@[simp] theorem writeCode_upholds (a : Nat) (w : Code) : Upholds s₀ (writeCode a w s) := by
  unfold writeCode
  split
  · exact h
  · exact UpholdsParts.remem h (putRaw_wf _ _ _)

@[simp] theorem write64_upholds (a : Nat) (d : Quad) : Upholds s₀ (write64 a d s) := by simp [write64, h]

@[simp] theorem mergedWrite_upholds (src : BitVec 4) (a size : Nat) (v : Word) (poison : Bool) :
    Upholds s₀ (mergedWrite src a size v poison s) := by simp [mergedWrite, h]

@[simp] theorem writeWords_upholds (a : Nat) (l : List Quad) : Upholds s₀ (writeWords a l s) := by
  induction l generalizing a s with
  | nil => exact h
  | cons d ds ih => exact ih (write64_upholds h _ _) _

@[simp] theorem readWordsEffect_upholds (src : BitVec 4) (a n : Nat) : Upholds s₀ (readWordsEffect src a n s) := by
  induction n generalizing a s with
  | zero => exact h
  | succ n ih => exact ih (memReadEffect_upholds h _ _) _

/-! ## Domains and resets (R88, R98, Table 2.5) -/

@[simp] theorem abandonAll_upholds : Upholds s₀ (abandonAll s) := h
@[simp] theorem resetPd1_upholds : Upholds s₀ (resetPd1 s) := h
@[simp] theorem resetDomain_upholds (n : Nat) : Upholds s₀ (resetDomain n s) := by simp [resetDomain, h]

@[simp] theorem powerUpDomain_upholds (n : Nat) : Upholds s₀ (powerUpDomain n s) := by
  unfold powerUpDomain
  extract_lets t g u
  have hu : Upholds s₀ u := by
    unfold u
    split <;> exact resetDomain_upholds h n
  clear_value u
  repeat' split
  · exact UpholdsParts.remem hu (zeroDomain_wf _ _)
  · exact UpholdsParts.remem hu (zeroDomain_wf _ _)
  · exact hu
  · exact hu

@[simp] theorem pd1Off_upholds : Upholds s₀ (pd1Off s) := h

@[simp] theorem powerOffDomain_upholds (n : Nat) : Upholds s₀ (powerOffDomain n s) := by
  unfold powerOffDomain
  repeat' split
  · exact pd1Off_upholds h
  · exact h
  · exact UpholdsParts.remem h (zeroDomain_wf _ _)
  · exact UpholdsParts.remem h (zeroDomain_wf _ _)
  · exact resetDomain_upholds h n

@[simp] theorem reachOn_upholds (n : Nat) : Upholds s₀ (reachOn n s) := by simp [reachOn, h]

@[simp] theorem powerUpAll_upholds (p : Nat → Bool) : Upholds s₀ (powerUpAll p s) := by
  refine foldl_upholds h fun s n _ h => ?_
  split
  · obtain ⟨hq, hm, -⟩ := reachOn_upholds (powerUpDomain_upholds h n) n
    exact ⟨hq, hm, fun h₀ => setPd_updater_aonOn _ _ _ _ (h.2.2 h₀) (.inr rfl)⟩
  · exact h

@[simp] theorem powerDownAll_upholds (p : Nat → Bool) : Upholds s₀ (powerDownAll p s) := by
  refine foldl_upholds h fun s n _ h => ?_
  split
  · next hn =>
    have hn0 : n ≠ 0 := by simp at hn; exact hn.2
    obtain ⟨hq, hm, -⟩ := powerOffDomain_upholds h n
    exact ⟨hq, hm, fun h₀ => setPd_updater_aonOn _ _ _ _ (h.2.2 h₀) (.inl hn0)⟩
  · exact h

@[simp] theorem resetState_upholds (k : ResetKind) (b : BitVec 3) (c : Nat) : Upholds s₀ (resetState k b c s) := by
  refine ⟨h.1, fun h₀ => ?_, fun _ => by rfl⟩
  unfold resetState
  split
  · rfl
  · exact h.2.1 h₀

/-! ## Clocks (R63-R86) -/

@[simp] theorem setCkp_upholds (c : Ckp) (r : Bool) : Upholds s₀ (setCkp c r s) := by
  refine when_upholds ?_ (raiseD_upholds ?_ _ _) <;> exact h

@[simp] theorem redecideRef_upholds : Upholds s₀ (redecideRef s) := by simp [redecideRef, h]
@[simp] theorem clockDies_upholds (k : Clk) : Upholds s₀ (clockDies k s) := by simp [clockDies, h]
@[simp] theorem clockLives_upholds (k : Clk) : Upholds s₀ (clockLives k s) := by simp [clockLives, h]
@[simp] theorem requal_upholds : Upholds s₀ (requal s) := by simp [requal, h]
@[simp] theorem writeIclk_upholds (n : Nat) (v : Word) : Upholds s₀ (writeIclk n v s) := h
@[simp] theorem refSelect_upholds (sel : BitVec 2) : Upholds s₀ (refSelect sel s) := by simp [refSelect, h]

/-! ## Epochs and sessions -/

@[simp] theorem acceptHeld_upholds : Upholds s₀ (acceptHeld s) := by simp [acceptHeld, h]
@[simp] theorem commit_upholds : Upholds s₀ (commit s) := by simp [commit, h]

@[simp] theorem migrationTick_upholds : Upholds s₀ (migrationTick s) := by
  unfold migrationTick
  repeat' split
  all_goals exact h

@[simp] theorem modSess_upholds (n : Nat) (f : Session → Session) : Upholds s₀ (modSess n f s) := h
@[simp] theorem countDrop_upholds (n : Nat) : Upholds s₀ (countDrop n s) := h
@[simp] theorem countOutrange_upholds (n : Nat) : Upholds s₀ (countOutrange n s) := h
@[simp] theorem touch_upholds (n : Nat) : Upholds s₀ (touch n s) := h

@[simp] theorem acceptFor_upholds (n : Nat) (ok : Bool) (e : EvBytes) : Upholds s₀ (acceptFor n ok e s) := by
  have hq (d : Dis) (f : Session → Session) : Upholds s₀ (touch n (modSess n f { s with dis := d })) := by
    refine touch_upholds (modSess_upholds ?_ n f) n
    exact h
  unfold acceptFor
  dsimp only
  repeat' split
  · exact h
  · exact countDrop_upholds h n
  · exact raise_upholds (modSess_upholds h n _) _
  · exact raise_upholds (modSess_upholds (hq _ _) n _) _
  · exact hq _ _

@[simp] theorem acceptEvent_upholds (src : EvSource) (e : EvBytes) : Upholds s₀ (acceptEvent src e s) := by
  simp [acceptEvent, h]

@[simp] theorem sessionOpen_upholds (n : Nat) : Upholds s₀ (sessionOpen n s) := h
@[simp] theorem sessionFree_upholds (n : Nat) : Upholds s₀ (sessionFree n s) := by simp [sessionFree, h]
@[simp] theorem writeKey_upholds (n w : Nat) (v : Word) : Upholds s₀ (writeKey n w v s) := h
@[simp] theorem setKey_upholds (n : Nat) (k : BitVec 128) : Upholds s₀ (setKey n k s) := h

@[simp] theorem evalClaim_upholds (c : CellBytes) : Upholds s₀ (evalClaim c s) := by
  have ht (d : Dis) (n : Nat) (f : Session → Session) : Upholds s₀ (touch n (modSess n f { s with dis := d })) := by
    refine touch_upholds (modSess_upholds ?_ n f) n
    exact h
  unfold evalClaim
  dsimp only
  refine raise_upholds ?_ _
  repeat' split
  · exact h
  · exact sessionFree_upholds (ht _ _ _) _
  · exact modSess_upholds (ht _ _ _) _ _

@[simp] theorem acceptParams_upholds (n : SIdx) (c : CellBytes) : Upholds s₀ (acceptParams n c s) := by simp [acceptParams, h]

/-! ## Voices and allocation -/

@[simp] theorem wtRead_upholds (i o : Nat) : Upholds s₀ (wtRead i o s) := by simp [wtRead, h]
@[simp] theorem setRes_upholds : Upholds s₀ (setRes s) := h
@[simp] theorem countNovoice_upholds (n : Nat) : Upholds s₀ (countNovoice n s) := h
@[simp] theorem countSteal_upholds (n : Nat) : Upholds s₀ (countSteal n s) := h
@[simp] theorem modVoice_upholds (i : Nat) (f : Voice → Voice) : Upholds s₀ (modVoice i f s) := h

@[simp] theorem readRecordEffect_upholds (a : Nat) : Upholds s₀ (readRecordEffect a s) := by
  unfold readRecordEffect
  split <;> simp [h]

@[simp] theorem PatchRead.advanceEffect_upholds (k : Nat) (r : PatchRead) : Upholds s₀ (PatchRead.advanceEffect k r s) := by
  simp [PatchRead.advanceEffect, h]

@[simp] theorem slideReads_upholds : Upholds s₀ (slideReads s) := by
  refine foldl_upholds ?_ fun s r _ h => ?_
  · exact h
  · exact PatchRead.advanceEffect_upholds h _ r

@[simp] theorem completeRead_upholds (r : PatchRead) : Upholds s₀ (completeRead r s) := by
  have hr := PatchRead.advanceEffect_upholds h r.left r
  unfold completeRead
  dsimp only
  repeat' split
  all_goals simp [hr]

@[simp] theorem completeOldest_upholds : Upholds s₀ (completeOldest s) := by
  unfold completeOldest
  split <;> simp [h]

@[simp] theorem completeAll_upholds : Upholds s₀ (completeAll s) := by
  refine foldl_upholds ?_ fun _ r _ h => completeRead_upholds h r
  exact h

@[simp] theorem installPending_upholds (p : Pending) (t i : Nat) : Upholds s₀ (installPending p t i s) := h

@[simp] theorem endStoop_upholds (t i : Nat) : Upholds s₀ (endStoop t i s) := by
  unfold endStoop
  split <;> exact h

@[simp] theorem stealVoice_upholds (p : Pending) (t i : Nat) : Upholds s₀ (stealVoice p t i s) := by
  unfold stealVoice
  extract_lets v again s1 s2 len
  have h1 : Upholds s₀ s1 := by
    unfold s1
    split
    · split
      · exact countNovoice_upholds h _
      · exact h
    · exact h
  have h2 : Upholds s₀ s2 := countSteal_upholds h1 _
  clear_value len s2
  split
  · exact modVoice_upholds (installPending_upholds h2 _ _ _) _ _
  · exact modVoice_upholds h2 _ _

@[simp] theorem strike_upholds (t : Nat) (n : SIdx) (e : EvBytes) (play : Nat) (copy : Option Patch) :
    Upholds s₀ (strike t n e play copy s) := by
  unfold strike
  extract_lets rg s1 a r s2
  have h1 : Upholds s₀ s1 := when_upholds h (countOutrange_upholds h _)
  have h2 : Upholds s₀ s2 := when_upholds h1 (readRecordEffect_upholds h1 _)
  clear_value r s2
  split
  · exact countDrop_upholds h2 _
  · split
    · simp [h2]
    · exact stealVoice_upholds h2 _ _ _
    · exact countNovoice_upholds h2 _

@[simp] theorem killAll_upholds (n t : Nat) : Upholds s₀ (killAll n t s) := h

@[simp] theorem applyEvent_upholds (t : Nat) (n : SIdx) (e : EvBytes) (play : Nat) (copy : Option Patch) :
    Upholds s₀ (applyEvent t n e play copy s) := by
  unfold applyEvent
  split <;> simp [h]

@[simp] theorem handOver_upholds (b t : Nat) : Upholds s₀ (handOver b t s) := by
  refine foldl_upholds ?_ fun _ q _ h => applyEvent_upholds h _ _ _ _ _
  exact h

@[simp] theorem applyParams_upholds : Upholds s₀ (applyParams s) := by
  refine foldl_upholds ?_ fun s p _ h => ?_
  · exact h
  · exact h

@[simp] theorem issuePrefetch_upholds (b : Nat) : Upholds s₀ (issuePrefetch b s) := h

@[simp] theorem applyVoxKill_upholds (b : Nat) : Upholds s₀ (applyVoxKill b s) := by
  have hkill : Upholds s₀ ((List.range 16).foldl (fun t n => if bit s.vox.kill n then killAll n b t else t) s) :=
    foldl_upholds h fun _ _ _ h => by simp [h]
  exact hkill

@[simp] theorem endStoops_upholds (b : Nat) : Upholds s₀ (endStoops b s) :=
  foldl_upholds h fun _ _ _ h => by simp [h]

@[simp] theorem turnSessions_upholds : Upholds s₀ (turnSessions s) := h
@[simp] theorem voxKill_upholds (m : Half) : Upholds s₀ (voxKill m s) := h

/-! ## The vacate of an eyrie (R101, R102) -/

@[simp] theorem vacateReserve_upholds (e : Nat) : Upholds s₀ (vacateReserve e s) := by
  unfold vacateReserve
  dsimp only
  generalize List.zip _ _ = l
  exact UpholdsParts.regate h id

@[simp] theorem vacateMove_upholds (e : Nat) : Upholds s₀ (vacateMove e s) := by
  unfold vacateMove
  extract_lets moves moved lost x0 x v m s1
  have h1 : Upholds s₀ s1 := UpholdsParts.regate h id
  clear_value s1
  refine foldl_upholds h1 fun s n _ h => ?_
  split
  · exact countNovoice_upholds h _
  · exact h

@[simp] theorem vacateTick_upholds : Upholds s₀ (vacateTick s) := by
  unfold vacateTick
  split <;> simp [h]

@[simp] theorem beginVacate_upholds (e : Nat) : Upholds s₀ (beginVacate e s) := by
  unfold beginVacate
  split
  · exact UpholdsParts.regate h id
  · refine vacateMove_upholds ?_ e
    exact UpholdsParts.regate h id

@[simp] theorem leaveEpochWait_upholds : Upholds s₀ (leaveEpochWait s) := by
  unfold leaveEpochWait
  split <;> simp [h]

@[simp] theorem migrationDone_upholds : Upholds s₀ (migrationDone s) := by
  unfold migrationDone
  split
  · refine acceptHeld_upholds (leaveEpochWait_upholds (raise_upholds ?_ _))
    exact h
  · exact h

/-! ## Levels and outputs -/

@[simp] theorem acceptLevel_upholds (n : SIdx) (target level : Nat) (key : Option CellKey) (tick : Nat) :
    Upholds s₀ (acceptLevel n target level key tick s) := by simp [acceptLevel, h]

@[simp] theorem applyLevels_upholds (b t : Nat) : Upholds s₀ (applyLevels b t s) := h
@[simp] theorem timeOut_upholds (n : Nat) : Upholds s₀ (timeOut n s) := h
@[simp] theorem missTick_upholds (b : Nat) : Upholds s₀ (missTick b s) := h

@[simp] theorem presentBlocks_upholds (em ao : List MrgOut) (px : List (Nat × MrgOut)) :
    Upholds s₀ (presentBlocks em ao px s) := h

@[simp] theorem present_upholds (j : Nat) : Upholds s₀ (present j s) := by simp [present, h]
@[simp] theorem writeLevel_upholds (r : Requester) (v : Word) : Upholds s₀ (writeLevel r v s) := by simp [writeLevel, h]
@[simp] theorem mirror_upholds : Upholds s₀ (mirror s) := h
@[simp] theorem emtWrap_upholds (f : Nat) : Upholds s₀ (emtWrap f s) := h
@[simp] theorem emtFrame_upholds : Upholds s₀ (emtFrame s) := by simp [emtFrame, h]

@[simp] theorem raiseReport_upholds (r : DrvReport) : Upholds s₀ (raiseReport r s) := by
  unfold raiseReport
  split <;> exact h

@[simp] theorem deliver_upholds : Upholds s₀ (deliver s) := by
  refine mirror_upholds (foldl_upholds ?_ fun _ r _ h => raiseReport_upholds h r)
  exact h

@[simp] theorem linkTraffic_upholds : Upholds s₀ (linkTraffic s) := by simp [linkTraffic, h]
@[simp] theorem linkHoodRelease_upholds : Upholds s₀ (linkHoodRelease s) := by simp [linkHoodRelease, h]
@[simp] theorem modEm_upholds (n : Nat) (f : DrvEm → DrvEm) : Upholds s₀ (modEm n f s) := h
@[simp] theorem report_upholds (r : DrvReport) : Upholds s₀ (report r s) := h
@[simp] theorem shortTrip_upholds (n : Fin 64) : Upholds s₀ (shortTrip n s) := h
@[simp] theorem shortClear_upholds (n : Nat) : Upholds s₀ (shortClear n s) := h
@[simp] theorem openClear_upholds (n : Nat) : Upholds s₀ (openClear n s) := h
@[simp] theorem tieAck_upholds (hi : Bool) (m : Word) : Upholds s₀ (tieAck hi m s) := h
@[simp] theorem beginScan_upholds : Upholds s₀ (beginScan s) := by simp [beginScan, h]
@[simp] theorem scanStart_upholds : Upholds s₀ (scanStart s) := by simp [scanStart, h]
@[simp] theorem scanComplete_upholds : Upholds s₀ (scanComplete s) := h
@[simp] theorem queueFire_upholds (b : Nat) : Upholds s₀ (queueFire b s) := by simp [queueFire, h]
@[simp] theorem timerStrobe_upholds (n : Nat) : Upholds s₀ (timerStrobe n s) := by simp [timerStrobe, h]
@[simp] theorem reachTime_upholds (t : Quad) : Upholds s₀ (reachTime t s) := by simp [reachTime, h]
@[simp] theorem modAo_upholds (n : Nat) (f : DrvAo → DrvAo) : Upholds s₀ (modAo n f s) := h
@[simp] theorem stageChange_upholds (n : Nat) (mode range : Bool) : Upholds s₀ (stageChange n mode range s) := h
@[simp] theorem overvoltage_upholds (n : Fin 16) : Upholds s₀ (overvoltage n s) := h
@[simp] theorem pixFrame_upholds : Upholds s₀ (pixFrame s) := by simp [pixFrame, h]
@[simp] theorem pixSnapshot_upholds : Upholds s₀ (pixSnapshot s) := h

/-! ## Sense, timers and audio -/

@[simp] theorem snsTrigger_upholds (k : Nat) : Upholds s₀ (snsTrigger k s) := by simp [snsTrigger, h]
@[simp] theorem snsTimerTrigger_upholds (n : Nat) : Upholds s₀ (snsTimerTrigger n s) := by simp [snsTimerTrigger, h]
@[simp] theorem modGpt_upholds (n : Nat) (f : Gpt → Gpt) : Upholds s₀ (modGpt n f s) := h

@[simp] theorem gptMatch_upholds (n : Nat) : Upholds s₀ (gptMatch n s) := by
  have hm (f : Gpt → Gpt) := snsTimerTrigger_upholds (timerStrobe_upholds (modGpt_upholds h n f) n) n
  unfold gptMatch
  dsimp only
  split
  · exact when_upholds (hm _) (raiseGpt_upholds (hm _) n)
  · exact h

@[simp] theorem gptOverflow_upholds (n : Nat) : Upholds s₀ (gptOverflow n s) := by
  have hm (f : Gpt → Gpt) := modGpt_upholds h n f
  exact when_upholds (hm _) (raiseGpt_upholds (hm _) n)

@[simp] theorem gptCapture_upholds (n : Nat) (c : Word) : Upholds s₀ (gptCapture n c s) := by
  have hm (f : Gpt → Gpt) := modGpt_upholds h n f
  exact when_upholds (hm _) (raiseGpt_upholds (hm _) n)

@[simp] theorem gptWrap_upholds (n : Nat) : Upholds s₀ (gptWrap n s) := by
  unfold gptWrap
  extract_lets s1
  have h1 : Upholds s₀ s1 := modGpt_upholds h n _
  clear_value s1
  refine gptOverflow_upholds ?_ n
  split
  · exact gptMatch_upholds h1 n
  · exact h1

@[simp] theorem countEdge_upholds (n : Nat) : Upholds s₀ (countEdge n s) := by
  have hm (f : Gpt → Gpt) := modGpt_upholds h n f
  unfold countEdge
  dsimp only
  repeat' split
  · exact hm _
  · exact gptWrap_upholds (hm _) n
  · exact gptMatch_upholds (modGpt_upholds (hm _) n _) n
  · exact modGpt_upholds (hm _) n _

@[simp] theorem chainCount_upholds (sel : Bool) (n : Nat) : Upholds s₀ (chainCount sel n s) := by simp [chainCount, h]
@[simp] theorem pinCount_upholds (rising : Bool) (n : Nat) : Upholds s₀ (pinCount rising n s) := by simp [pinCount, h]

@[simp] theorem chainTick_upholds (sel : Bool) : Upholds s₀ (chainTick sel s) :=
  foldl_upholds h fun _ n _ h => chainCount_upholds h sel n

@[simp] theorem freeCount_upholds (n : Nat) : Upholds s₀ (freeCount n s) := h
@[simp] theorem stopCount_upholds (n : Nat) : Upholds s₀ (stopCount n s) := by simp [stopCount, h]

@[simp] theorem freezeTimers_upholds (k : Nat) : Upholds s₀ (freezeTimers k s) :=
  foldl_upholds h fun _ _ _ h => by simp [h]

@[simp] theorem audUnlock_upholds : Upholds s₀ (audUnlock s) := by
  refine when_upholds ?_ (raise_upholds ?_ _) <;> exact h

@[simp] theorem silentFollow_upholds : Upholds s₀ (silentFollow s) := by simp [silentFollow, h]
@[simp] theorem beatTick_upholds : Upholds s₀ (beatTick s) := h

/-! ## Lanes -/

@[simp] theorem modPort_upholds (p : PortIdx) (f : LanePort → LanePort) : Upholds s₀ (modPort p f s) := h
@[simp] theorem retime_upholds : Upholds s₀ (retime s) := by simp [retime, h]
@[simp] theorem portSilent_upholds (p : PortIdx) : Upholds s₀ (portSilent p s) := by simp [portSilent, h]

@[simp] theorem moveTo_upholds (p : PortIdx) (st : PortState) : Upholds s₀ (moveTo p st s) := by
  unfold moveTo
  repeat' split
  all_goals exact h

@[simp] theorem portDefect_upholds (p : PortIdx) (cause : BitVec 3) (f : LanePort → LanePort) :
    Upholds s₀ (portDefect p cause f s) := by
  unfold portDefect
  extract_lets q st first s1 s2 dest s3
  have h1 : Upholds s₀ s1 := modPort_upholds h p f
  have h3 : Upholds s₀ s3 := moveTo_upholds (modPort_upholds h1 p _) p dest
  clear_value s3 s1
  split
  · split
    · exact moveTo_upholds h1 p _
    · exact h1
  · split
    · exact moveTo_upholds h3 q _
    · exact moveTo_upholds h3 q _
    · exact h3

@[simp] theorem forceWrap_upholds (p : PortIdx) (on : Bool) : Upholds s₀ (forceWrap p on s) := by simp [forceWrap, h]
@[simp] theorem wakeLane_upholds (n : Nat) : Upholds s₀ (wakeLane n s) := h

@[simp] theorem stopLane_upholds (n : Nat) : Upholds s₀ (stopLane n s) := by
  unfold stopLane
  split <;> simp [h]

@[simp] theorem stopTap_upholds (n : Nat) : Upholds s₀ (stopTap n s) := by simp [stopTap, h]

/-! ## Kestrels apart from their instructions -/

@[simp] theorem modK_upholds (k : Nat) (f : Kestrel → Kestrel) : Upholds s₀ (modK k f s) := h

@[simp] theorem debugHalt_upholds (k : Nat) (cause : BitVec 3) : Upholds s₀ (debugHalt k cause s) :=
  freezeTimers_upholds (raise_upholds (modK_upholds h k _) _) k

@[simp] theorem doubleFault_upholds (k : Nat) : Upholds s₀ (doubleFault k s) := by simp [doubleFault, h]

@[simp] theorem afterInstr_upholds (k : Nat) : Upholds s₀ (afterInstr k s) := by
  have hp (b : Bool) (f : Kestrel → Kestrel) : Upholds s₀ (when b (modK k f) s) := when_upholds h (modK_upholds h k f)
  unfold afterInstr
  dsimp only
  repeat' split
  all_goals simp [h, hp]

@[simp] theorem haltRequest_upholds (k : Nat) : Upholds s₀ (haltRequest k s) := by simp [haltRequest, h]
@[simp] theorem kResume_upholds (k : Nat) : Upholds s₀ (kResume k s) := by simp [kResume, h]
@[simp] theorem kStep_upholds (k : Nat) : Upholds s₀ (kStep k s) := by simp [kStep, h]
@[simp] theorem kStart_upholds (k : Nat) : Upholds s₀ (kStart k s) := h
@[simp] theorem writeKctrl_upholds (k : Nat) (v : Word) : Upholds s₀ (writeKctrl k v s) := by simp [writeKctrl, h]
@[simp] theorem parkAll_upholds : Upholds s₀ (parkAll s) := h
@[simp] theorem unparkAll_upholds : Upholds s₀ (unparkAll s) := h

/-! ## Gate commands and mode entries (R87-R98) -/

@[simp] theorem gateResult_upholds (res : BitVec 4) (c : GateCmd) (r : Requester) (n : Fin 67) :
    Upholds s₀ (gateResult res c r n s) := by
  refine raise_upholds ?_ _
  exact UpholdsParts.regate h id

@[simp] theorem gateCloses_upholds (c : GateCmd) (n : Nat) : Upholds s₀ (gateCloses c n s) := by simp [gateCloses, h]

theorem startClose_upholds (c : GateCmd) (r : Requester) (n : Fin 67) (hn : n.val ≠ 0) :
    Upholds s₀ (startClose c r n s) := by
  unfold startClose
  extract_lets g s1
  have h1 : Upholds s₀ s1 := UpholdsParts.regate h fun hg => setPd_run_aonOn c r n .transit 3 s.gate hg hn
  clear_value s1
  split
  · split
    · exact UpholdsParts.regate h1 id
    · exact beginVacate_upholds h1 _
  · exact gateCloses_upholds h1 _ _

@[simp] theorem gateOpens_upholds (n : Nat) : Upholds s₀ (gateOpens n s) := by simp [gateOpens, h]
@[simp] theorem dropUpdater_upholds (n : Nat) : Upholds s₀ (dropUpdater n s) := UpholdsParts.regate h id
@[simp] theorem assertReset_upholds (n : Nat) : Upholds s₀ (assertReset n s) := by simp [assertReset, h]

theorem startSwitch_upholds (c : GateCmd) (r : Requester) (n : Fin 67) (ph : BitVec 3) (hn : n.val ≠ 0) :
    Upholds s₀ (startSwitch c r n ph s) :=
  UpholdsParts.regate h fun hg => setPd_run_aonOn c r n .transit ph s.gate hg hn

theorem gateAct_upholds (c : GateCmd) (r : Requester) (n : Fin 67) (hn : n.val ≠ 0) : Upholds s₀ (gateAct c r n s) := by
  have hdrop := dropUpdater_upholds h n.val
  have hopen : Upholds s₀ (gateOpens n { dropUpdater n s with gate := setPd n .on (dropUpdater n s).gate }) := by
    refine gateOpens_upholds ?_ n
    exact UpholdsParts.regate hdrop fun hg => setPd_aonOn _ _ _ hg (.inl hn)
  unfold gateAct
  split
  · exact startClose_upholds h _ _ _ hn
  · exact startClose_upholds h _ _ _ hn
  · exact startClose_upholds h _ _ _ hn
  · exact gateResult_upholds h _ _ _ _
  · exact startSwitch_upholds h _ _ _ _ hn
  · exact startSwitch_upholds h _ _ _ _ hn
  · exact gateResult_upholds h _ _ _ _
  · exact startSwitch_upholds hdrop _ _ _ _ hn
  · exact startSwitch_upholds (assertReset_upholds hdrop _) _ _ _ _ hn
  · exact gateResult_upholds h _ _ _ _
  · exact gateResult_upholds hopen _ _ _ _
  · exact h

@[simp] theorem entryLast_upholds : Upholds s₀ (entryLast s) := by
  unfold entryLast
  dsimp only
  split <;> simp [h]

@[simp] theorem entryGoes_upholds : Upholds s₀ (entryGoes s) := by
  unfold entryGoes
  split
  · extract_lets t
    have ht : Upholds s₀ t := by
      refine foldl_upholds h fun u c hc hu => ?_
      split
      · exact hu
      · exact gateAct_upholds hu _ _ _ (entryTodo_ne_zero _ c hc)
    clear_value t
    split
    · exact entryLast_upholds ht
    · exact ht
  · exact h

@[simp] theorem gateFinish_upholds (st : PdState) : Upholds s₀ (gateFinish st s) := by
  unfold gateFinish
  split
  · next c n r hr =>
    refine entryGoes_upholds (gateResult_upholds ?_ _ _ _ _)
    refine UpholdsParts.regate h fun hg => ?_
    simp only [Gate.aonOn, hr, Bool.and_eq_true, bne_iff_ne, beq_iff_eq] at hg ⊢
    obtain ⟨h0, hn, -⟩ := hg
    exact ⟨by rw [setPd_zero, if_neg hn, h0], rfl⟩
  · exact h

/-! ## The roost -/

@[simp] theorem userBlockEffect_upholds : Upholds s₀ (userBlockEffect s) := by
  unfold userBlockEffect
  split <;> simp [h]

@[simp] theorem capturePart_upholds : Upholds s₀ (capturePart s) := by simp [capturePart, h]
@[simp] theorem tearSlot_upholds : Upholds s₀ (tearSlot s) := by simp [tearSlot, h]

@[simp] theorem restoreUser_upholds (k : Nat) : Upholds s₀ (restoreUser k s) := by
  unfold restoreUser
  dsimp only
  split <;> simp [h]

@[simp] theorem restoreRegs_upholds (k : Nat) : Upholds s₀ (restoreRegs k s) := h

@[simp] theorem restorePolicy_upholds (k : Nat) : Upholds s₀ (restorePolicy k s) := by
  have hu := restoreUser_upholds h k
  unfold restorePolicy
  dsimp only
  split
  · exact raise_upholds (restoreRegs_upholds hu k) _
  · exact hu

@[simp] theorem roostCheck_upholds : Upholds s₀ (roostCheck s) := by
  unfold roostCheck
  extract_lets f mode s1 s2
  have h2 : Upholds s₀ s2 := when_upholds (s := s1) h (raise_upholds (s := s1) h _)
  clear_value s2
  split
  · exact h2
  · dsimp only
    split
    · refine restorePolicy_upholds ?_ _
      exact h2
    · exact h2

@[simp] theorem endLook_upholds : Upholds s₀ (endLook s) := h

/-! ## Modes, triggers and BOOT -/

@[simp] theorem setResult_upholds (r : BitVec 2) : Upholds s₀ (setResult r s) := by
  refine when_upholds ?_ (raise_upholds ?_ _) <;> exact h

@[simp] theorem startCount_upholds : Upholds s₀ (startCount s) := h

@[simp] theorem takeRole_upholds (src : ModeSrc) : Upholds s₀ (takeRole src s) := by
  unfold takeRole
  split
  · refine when_upholds (startCount_upholds ?_) (raise_upholds (startCount_upholds ?_) _) <;> exact h
  · split
    · refine raise_upholds ?_ _
      exact h
    · exact h

@[simp] theorem hoodMode_upholds : Upholds s₀ (hoodMode s) := h
@[simp] theorem quiet_upholds : Upholds s₀ (quiet s) := h

@[simp] theorem entryActions_upholds (f m : Mode) (src : ModeSrc) : Upholds s₀ (entryActions f m src s) := by
  unfold entryActions
  split
  · refine takeRole_upholds ?_ src
    exact quiet_upholds (hoodMode_upholds h)
  · exact endLook_upholds (quiet_upholds (hoodMode_upholds h))
  · refine endLook_upholds ?_
    split
    · exact h
    · exact hoodMode_upholds h
  · refine hoodMode_upholds ?_
    exact h
  · exact h

@[simp] theorem enterMode_upholds (m : Mode) (src : ModeSrc) : Upholds s₀ (enterMode m src s) := by
  refine entryGoes_upholds (redecideRef_upholds (entryActions_upholds ?_ _ _ _))
  exact h

@[simp] theorem takeTrigger_upholds (t : Trigger) : Upholds s₀ (takeTrigger t s) := by
  unfold takeTrigger
  split <;> simp [h]

@[simp] theorem trigger_upholds (t : Trigger) : Upholds s₀ (trigger t s) := by simp [trigger, h]

@[simp] theorem heldTriggers_upholds : Upholds s₀ (heldTriggers s) := by
  refine foldl_upholds ?_ fun t x _ h => ?_
  · exact h
  · split
    · exact trigger_upholds h x
    · exact h

@[simp] theorem transitionDone_upholds : Upholds s₀ (transitionDone s) := by
  refine heldTriggers_upholds (acceptHeld_upholds (raise_upholds ?_ _))
  exact h

@[simp] theorem enterRoost_upholds (req : Bool) (src : ModeSrc) : Upholds s₀ (enterRoost req src s) := by
  have h1 := when_upholds (b := s.mode.pend || s.mode.mgmtReq.isSome) h (setResult_upholds h 2)
  refine redecideRef_upholds (leaveEpochWait_upholds ?_)
  exact h1

@[simp] theorem hostRequest_upholds (c : Mode) : Upholds s₀ (hostRequest c s) := by
  have h1 := when_upholds (b := s.mode.pend) h (setResult_upholds h 3)
  unfold hostRequest
  dsimp only
  repeat' split
  · exact h
  · refine setResult_upholds ?_ 2
    exact h1
  · exact h1

@[simp] theorem mgmtRequest_upholds (c : BitVec 3) : Upholds s₀ (mgmtRequest c s) := h
@[simp] theorem evalRequest_upholds (c : Mode) (src : ModeSrc) : Upholds s₀ (evalRequest c src s) := by simp [evalRequest, h]

@[simp] theorem evalPending_upholds : Upholds s₀ (evalPending s) := by
  have hclear : Upholds s₀ { s with mode := { s.mode with mgmtReq := none, pend := false } } := h
  unfold evalPending
  repeat' split
  · exact h
  · refine enterMode_upholds (setResult_upholds ?_ 1) _ _
    exact h
  · exact h
  · exact evalRequest_upholds (when_upholds hclear (setResult_upholds hclear 3)) _ _
  · refine evalRequest_upholds ?_ _ _
    exact h
  · exact h

@[simp] theorem ringTriggers_upholds : Upholds s₀ (ringTriggers s) := by simp [ringTriggers, h]
@[simp] theorem candidateTrigger_upholds : Upholds s₀ (candidateTrigger s) := by simp [candidateTrigger, h]
@[simp] theorem softReset_upholds (keep : Bool) : Upholds s₀ (softReset keep s) := by simp [softReset, h]
@[simp] theorem owlReset_upholds : Upholds s₀ (owlReset s) := by simp [owlReset, h]
@[simp] theorem wake_upholds : Upholds s₀ (wake s) := by simp [wake, h]
@[simp] theorem toStep_upholds (n : BitVec 4) : Upholds s₀ (toStep n s) := h

@[simp] theorem fuseDomains_upholds : Upholds s₀ (fuseDomains s) := by
  unfold fuseDomains
  dsimp only
  split
  · exact powerUpAll_upholds h _
  · refine UpholdsParts.regate h fun hg => ?_
    simp only [Gate.aonOn, mapPd, Vector.getElem_mapIdx] at hg ⊢
    simpa using hg

@[simp] theorem startLanes_upholds : Upholds s₀ (startLanes s) :=
  foldl_upholds h fun _ _ _ h => by simp [h]

@[simp] theorem startWirescan_upholds : Upholds s₀ (startWirescan s) := by simp [startWirescan, h]
@[simp] theorem leaveBoot_upholds : Upholds s₀ (leaveBoot s) := by simp [leaveBoot, h]

/-! ## Content -/

@[simp] theorem queueCommand_upholds (c : CellBytes) : Upholds s₀ (queueCommand c s) := by simp [queueCommand, h]

@[simp] theorem mewsWrite_upholds (a : Nat) (d : Quad) : Upholds s₀ (mewsWrite a d s) := by
  unfold mewsWrite
  split <;> simp [h]

@[simp] theorem mewsWrites_upholds (a : Nat) (l : List Quad) : Upholds s₀ (mewsWrites a l s) := by
  induction l generalizing a s with
  | nil => exact h
  | cons d ds ih => exact ih (mewsWrite_upholds h _ _) _

@[simp] theorem bulkChunk_upholds (c : CellBytes) : Upholds s₀ (bulkChunk c s) := by simp [bulkChunk, h]
@[simp] theorem checkEnd_upholds : Upholds s₀ (checkEnd s) := by simp [checkEnd, h]

@[simp] theorem tailWrites_upholds (src : BitVec 4) (a : Nat) (l : List Byte) : Upholds s₀ (tailWrites src a l s) := by
  induction l generalizing a s with
  | nil => exact h
  | cons d ds ih => exact ih (mergedWrite_upholds h _ _ _ _ _) _

@[simp] theorem copyBytes_upholds (a : Nat) (bs : List Byte) : Upholds s₀ (copyBytes a bs s) := by simp [copyBytes, h]

@[simp] theorem loadCue_upholds (k : Nat) (b : List Byte) : Upholds s₀ (loadCue k b s) := by
  unfold loadCue
  split
  · exact writeKctrl_upholds (modK_upholds (copyBytes_upholds (copyBytes_upholds (writeKctrl_upholds h _ _) _ _) _ _) _ _) _ _
  · exact h

@[simp] theorem loadCurve_upholds (c : Nat) (b : List Byte) : Upholds s₀ (loadCurve c b s) := by simp [loadCurve, h]

@[simp] theorem copySection_upholds (base : Nat) (x : Section) : Upholds s₀ (copySection base x s).1 := by
  unfold copySection
  repeat' split
  all_goals simp [h]

@[simp] theorem copySections_upholds (base : Nat) (l : List Section) : Upholds s₀ (copySections base l s).1 := by
  induction l generalizing s with
  | nil => exact h
  | cons x xs ih =>
    have hx := copySection_upholds h base x
    unfold copySections
    split <;> simp_all

@[simp] theorem activateFinish_upholds (flags : Nat) (xs : List Section) : Upholds s₀ (activateFinish flags xs s) := by
  unfold activateFinish
  split <;> simp [h]

@[simp] theorem activateEnd_upholds : Upholds s₀ (activateEnd s) := by
  have hc := copySections_upholds h s.mgt.cstage.toNat (sectionsOf (engineRead s s.mgt.cstage.toNat s.mgt.len).1)
  have hf (base : Nat) (l : List Section) := copySections_upholds (setFree_upholds h (s.free + 1)) base l
  unfold activateEnd
  dsimp only
  split
  · exact hf _ _
  · split
    · next ht =>
      rw [ht] at hc
      exact activateFinish_upholds hc _ _
    · next ht =>
      rw [ht] at hc
      exact hc

@[simp] theorem contentOp_upholds (sub : Nat) (cid : Word) (len : Nat) : Upholds s₀ (contentOp sub cid len s).1 := by
  unfold contentOp
  dsimp only
  repeat' split
  all_goals simp [h]

@[simp] theorem writeCcmd_upholds (v : Nat) : Upholds s₀ (writeCcmd v s) := by simp [writeCcmd, h]

/-! ## Frames and cells -/

@[simp] theorem endTurn_upholds (p : PortIdx) : Upholds s₀ (endTurn p s) := by simp [endTurn, h]
@[simp] theorem hopFrame_upholds (hd : Header) (f : FrameRx) : Upholds s₀ (hopFrame hd f s) := by simp [hopFrame, h]
@[simp] theorem tapFrame_upholds (f : FrameRx) : Upholds s₀ (tapFrame f s) := by simp [tapFrame, h]

@[simp] theorem runServo_upholds (f : FrameRx) (hd : Header) (acc : Option (BitVec 24)) (follows : Bool) :
    Upholds s₀ (runServo f hd acc follows s) := by
  unfold runServo
  split <;> exact h

@[simp] theorem takePosition_upholds (p : BitVec 10) (late : Bool) : Upholds s₀ (takePosition p late s) := h
@[simp] theorem releasePosition_upholds : Upholds s₀ (releasePosition s) := by simp [releasePosition, h]
@[simp] theorem remusterCmd_upholds (hd : Header) : Upholds s₀ (remusterCmd hd s) := by simp [remusterCmd, h]
@[simp] theorem adoptEpoch_upholds (hd : Header) : Upholds s₀ (adoptEpoch hd s) := by simp [adoptEpoch, h]

@[simp] theorem countFrame_upholds (f : FrameRx) (hd : Header) (acc : Option (BitVec 24)) :
    Upholds s₀ (countFrame f hd acc s) := by
  unfold countFrame
  split <;> simp [h]

@[simp] theorem endCmd_upholds (hd : Header) : Upholds s₀ (endCmd hd s) := by simp [endCmd, h]

@[simp] theorem adoptHead_upholds (uid : BitVec 48) : Upholds s₀ (adoptHead uid s).1 := by
  unfold adoptHead
  repeat' split
  all_goals exact h

@[simp] theorem framesReturn_upholds : Upholds s₀ (framesReturn s) := by simp [framesReturn, h]

@[simp] theorem validFrame_upholds (f : FrameRx) (hd : Header) : Upholds s₀ (validFrame f hd s) := by
  unfold validFrame
  extract_lets i acc prev was s1 c c1 c2 s2 s3
  have h2 : Upholds s₀ s2 := setChn_upholds (framesReturn_upholds h) _
  have h3 : Upholds s₀ s3 := by
    unfold s3
    clear_value s2
    split <;> simp [h2]
  exact ringTriggers_upholds (redecideRef_upholds (endCmd_upholds (countFrame_upholds (adoptEpoch_upholds
    (remusterCmd_upholds h3 _) _) _ _ _) _))

@[simp] theorem spoilFrame_upholds (f : FrameRx) : Upholds s₀ (spoilFrame f s) := by simp [spoilFrame, h]
@[simp] theorem frameMissing_upholds : Upholds s₀ (frameMissing s) := by simp [frameMissing, h]
@[simp] theorem recordCell_upholds (c : CellRx) : Upholds s₀ (recordCell c s) := h

@[simp] theorem streamCell_upholds (key : CellKey) (c : CellBytes) : Upholds s₀ (streamCell key c s) := by
  unfold streamCell
  extract_lets n count stride
  split
  · exact h
  · split
    · exact countDrop_upholds h _
    · exact foldl_upholds h fun _ _ _ h => by simp [h]

@[simp] theorem strikeCell_upholds (c : CellBytes) : Upholds s₀ (strikeCell c s) := by
  unfold strikeCell
  extract_lets n
  split
  · exact h
  · exact foldl_upholds h fun _ _ _ h => by simp [h]

@[simp] theorem paramCell_upholds (c : CellBytes) : Upholds s₀ (paramCell c s) := by simp [paramCell, h]
@[simp] theorem rangeCell_upholds (c : CellBytes) : Upholds s₀ (rangeCell c s) := by simp [rangeCell, h]
@[simp] theorem claimCell_upholds (c : CellBytes) : Upholds s₀ (claimCell c s) := by simp [claimCell, h]

@[simp] theorem consumeCell_upholds (key : CellKey) (c : CellBytes) : Upholds s₀ (consumeCell key c s) := by
  unfold consumeCell
  split <;> simp [h]

@[simp] theorem deliverCell_upholds (c : CellRx) : Upholds s₀ (deliverCell c s) := by simp [deliverCell, h]
@[simp] theorem tapCell_upholds (want : Nat) (c : CellRx) : Upholds s₀ (tapCell want c s) := by simp [tapCell, h]

/-! ## The head -/

@[simp] theorem loseElection_upholds (uid : BitVec 48) : Upholds s₀ (loseElection uid s) := by
  refine redecideRef_upholds (trigger_upholds (raise_upholds ?_ _) _)
  exact h

@[simp] theorem remuster_upholds : Upholds s₀ (remuster s) := by
  unfold remuster
  repeat' split
  all_goals simp [h]

@[simp] theorem measureLoop_upholds (f : FrameRx) (hd : Header) (a : BitVec 24) : Upholds s₀ (measureLoop f hd a s) := by
  unfold measureLoop
  dsimp only
  split
  · exact h
  · split <;> exact setHead_upholds h _

@[simp] theorem countEnd_upholds : Upholds s₀ (countEnd s) := by simp [countEnd, h]

@[simp] theorem countReturn_upholds (hd : Header) (a : Option (BitVec 24)) : Upholds s₀ (countReturn hd a s) := by
  unfold countReturn
  repeat' split
  all_goals simp [h]

@[simp] theorem probeFound_upholds (uid : BitVec 48) : Upholds s₀ (probeFound uid s) := by
  unfold probeFound
  split <;> simp [h]

@[simp] theorem probeReturn_upholds (hd : Header) (a : Option (BitVec 24)) : Upholds s₀ (probeReturn hd a s) := by
  unfold probeReturn
  split <;> simp [h]

@[simp] theorem ownPair_upholds (hd : Header) : Upholds s₀ (ownPair hd s) := by simp [ownPair, h]

@[simp] theorem ownReturn_upholds (f : FrameRx) (hd : Header) : Upholds s₀ (ownReturn f hd s) := by
  unfold ownReturn
  extract_lets i acc s1 c s2 s3 s4
  have h2 : Upholds s₀ s2 := framesReturn_upholds h
  clear_value s2 acc
  have h3 : Upholds s₀ s3 := by
    unfold s3
    split
    · exact measureLoop_upholds h2 f hd _
    · exact h2
  clear_value s3
  refine ringTriggers_upholds (ownPair_upholds ?_ hd)
  unfold s4
  split
  · exact h2
  · exact probeReturn_upholds (countReturn_upholds h3 hd acc) hd acc

@[simp] theorem headFrame_upholds (f : FrameRx) (hd : Header) : Upholds s₀ (headFrame f hd s) := by simp [headFrame, h]
@[simp] theorem frameAtChn_upholds (f : FrameRx) (hd : Header) : Upholds s₀ (frameAtChn f hd s) := by simp [frameAtChn, h]

@[simp] theorem ownDelivery_upholds (cells : List (List Byte × Bool × Nat)) : Upholds s₀ (ownDelivery cells s) :=
  foldl_upholds h fun _ _ _ h => deliverCell_upholds h _

@[simp] theorem launchFrame_upholds : Upholds s₀ (launchFrame s) := by simp [launchFrame, h]
@[simp] theorem writeHead_upholds (v : Word) : Upholds s₀ (writeHead v s) := by simp [writeHead, h]
@[simp] theorem writeCtset_upholds (hi : Byte) (go : Bool) : Upholds s₀ (writeCtset hi go s) := h

@[simp] theorem genlockCompare_upholds (t : Quad) : Upholds s₀ (genlockCompare t s) :=
  setHead_upholds (setFree_upholds h _) _

@[simp] theorem genlockEdge_upholds (t : Quad) : Upholds s₀ (genlockEdge t s) := by simp [genlockEdge, h]
@[simp] theorem uplinkPass_upholds (u : Nat) (c : CellBytes) : Upholds s₀ (uplinkPass u c s) := by simp [uplinkPass, h]

/-! ## DMX -/

@[simp] theorem modDmx_upholds (p : Fin 2) (f : DmxPort → DmxPort) : Upholds s₀ (modDmx p f s) := h

@[simp] theorem dmxLevels_upholds (p : Fin 2) (slots : List Byte) : Upholds s₀ (dmxLevels p slots s) := by
  unfold dmxLevels
  dsimp only
  split
  · exact h
  · refine setMrg_upholds (foldl_upholds h fun s k _ h => ?_) _
    repeat' split
    all_goals simp [h]

@[simp] theorem dmxPacket_upholds (p : Fin 2) (bytes : List Byte) (framingError : Bool) :
    Upholds s₀ (dmxPacket p bytes framingError s) := by
  unfold dmxPacket
  extract_lets s1
  have h1 : Upholds s₀ s1 := when_upholds h (modDmx_upholds h p _)
  clear_value s1
  repeat' split
  · exact h1
  · exact dmxLevels_upholds (modDmx_upholds h1 p _) p _
  · exact h1
  · exact modDmx_upholds h1 p _

@[simp] theorem dmxTrigger_upholds (f : Nat) (p : Fin 2) : Upholds s₀ (dmxTrigger f p s) := by simp [dmxTrigger, h]
@[simp] theorem dmxFrame_upholds : Upholds s₀ (dmxFrame s) := by simp [dmxFrame, h]
@[simp] theorem answer_upholds (q : RdmReq) (a : RdmAnswer) : Upholds s₀ (answer q a s) := h
@[simp] theorem storeLabel_upholds (label : List Byte) : Upholds s₀ (storeLabel label s) := h

/-! ## Ticks and frames -/

@[simp] theorem answerReads_upholds : Upholds s₀ (answerReads s) :=
  foldl_upholds h fun _ i _ h => wtRead_upholds (wtRead_upholds h i 0) i 1

@[simp] theorem renderVoices_upholds : Upholds s₀ (renderVoices s) := by
  unfold renderVoices
  refine foldl_upholds (setVox_upholds h _) fun s i _ h => ?_
  split
  · exact countNovoice_upholds h _
  · exact h

@[simp] theorem closeTick_upholds : Upholds s₀ (closeTick s) :=
  setVox_upholds (present_upholds (renderVoices_upholds (answerReads_upholds (completeAll_upholds h))) _) _

@[simp] theorem reachTick_upholds (b : Nat) : Upholds s₀ (reachTick b s) := setChn_upholds h _
@[simp] theorem beginVoices_upholds (b : Nat) : Upholds s₀ (beginVoices b s) := h

@[simp] theorem openTick_upholds (b : Nat) : Upholds s₀ (openTick b s) := by
  unfold openTick
  extract_lets t s1 s2 s3 s4
  have h1 : Upholds s₀ s1 := turnSessions_upholds (migrationTick_upholds (vacateTick_upholds (migrationDone_upholds h)))
  clear_value s1
  have h2 : Upholds s₀ s2 := foldl_upholds (applyLevels_upholds h1 b t) fun _ n _ h => timeOut_upholds h n
  clear_value s2
  have h3 : Upholds s₀ s3 := endStoops_upholds (setRes_upholds (applyVoxKill_upholds h2 t)) t
  clear_value s3
  have h4 : Upholds s₀ s4 := when_upholds h3 (issuePrefetch_upholds (applyParams_upholds (handOver_upholds h3 b t)) b)
  clear_value s4
  exact beginVoices_upholds h4 b

@[simp] theorem tickOthers_upholds (b : Nat) : Upholds s₀ (tickOthers b s) := by
  have ho := pixSnapshot_upholds (snsTrigger_upholds (chainTick_upholds (queueFire_upholds h b) false) 1)
  unfold tickOthers
  generalize pixSnapshot (snsTrigger 1 (chainTick false (queueFire b s))) = u at ho ⊢
  refine when_upholds ?_ (mirror_upholds ?_) <;> exact ho

@[simp] theorem endTick_upholds : Upholds s₀ (endTick s) := by simp [endTick, h]
@[simp] theorem beginTick_upholds (b : Nat) : Upholds s₀ (beginTick b s) := by simp [beginTick, h]

@[simp] theorem tickBoundary_upholds : Upholds s₀ (tickBoundary s) := by
  unfold tickBoundary
  extract_lets b
  split
  · exact vacateTick_upholds (reachTick_upholds h b)
  · exact tickOthers_upholds (beginTick_upholds (reachTick_upholds (endTick_upholds h) b) b) b

@[simp] theorem reachFrame_upholds (f : Nat) : Upholds s₀ (reachFrame f s) := h
@[simp] theorem composeUplink_upholds : Upholds s₀ (composeUplink s) := h
@[simp] theorem liftHoods_upholds : Upholds s₀ (liftHoods s) := by simp [liftHoods, h]

@[simp] theorem frameOutputs_upholds : Upholds s₀ (frameOutputs s) := by
  unfold frameOutputs
  split
  · exact h
  · exact dmxFrame_upholds (pixFrame_upholds (emtFrame_upholds h))

@[simp] theorem frameBoundary_upholds : Upholds s₀ (frameBoundary s) := by
  have hf := frameOutputs_upholds (liftHoods_upholds (composeUplink_upholds (reachFrame_upholds h (nextFrame s))))
  exact snsTrigger_upholds (chainTick_upholds hf true) 2

/-! ## The rows of the gate controller -/

@[simp] theorem gateCommand_upholds (r : Requester) (c : GateCmd) (pd : BitVec 7) : Upholds s₀ (gateCommand r c pd s) := by
  unfold gateCommand
  extract_lets n
  split
  · exact h
  · split
    · exact gateResult_upholds h _ _ _ _
    · next hr =>
      have hn : n.val ≠ 0 := fun h0 => hr (by simp [gateRule, h0])
      split
      · exact gateResult_upholds h _ _ _ _
      · split
        · exact gateResult_upholds h _ _ _ _
        · exact gateAct_upholds h _ _ _ hn

@[simp] theorem drainEnd_upholds : Upholds s₀ (drainEnd s) := by
  have ha := abandonAll_upholds h
  unfold drainEnd
  split
  · split
    · exact h
    · extract_lets t
      split
      · exact UpholdsParts.regate ha id
      · refine assertReset_upholds ?_ _
        exact UpholdsParts.regate ha id
      · refine gateFinish_upholds ?_ _
        exact UpholdsParts.regate ha id
  · exact h

/-! ## Registers -/

@[simp] theorem sysReadEffect_upholds (off : Nat) : Upholds s₀ (sysReadEffect off s) := by simp [sysReadEffect, h]

@[simp] theorem sysWrite_upholds (r : Requester) (off : Nat) (v : Word) : Upholds s₀ (sysWrite r off v s) := by
  unfold sysWrite
  split
  · exact gateCommand_upholds h _ _ _
  · split
    · exact UpholdsParts.regate h id
    · repeat' split
      all_goals exact h

@[simp] theorem enableWrite_upholds (v : BitVec 6) : Upholds s₀ (enableWrite v s) := h
@[simp] theorem ckpWrite_upholds (off : Nat) (v : Word) : Upholds s₀ (ckpWrite off v s) := by simp [ckpWrite, h]

@[simp] theorem chxReadEffect_upholds (p : PortIdx) (off : Nat) : Upholds s₀ (chxReadEffect p off s) := by
  simp [chxReadEffect, h]

@[simp] theorem chxWrite_upholds (p : PortIdx) (off : Nat) (v : Word) : Upholds s₀ (chxWrite p off v s) := by simp [chxWrite, h]
@[simp] theorem chnReadEffect_upholds (off : Nat) : Upholds s₀ (chnReadEffect off s) := by simp [chnReadEffect, h]
@[simp] theorem chnStatWrite_upholds (v : Word) : Upholds s₀ (chnStatWrite v s) := h
@[simp] theorem chnWrite_upholds (off : Nat) (v : Word) : Upholds s₀ (chnWrite off v s) := by simp [chnWrite, h]
@[simp] theorem sessReadEffect_upholds (n o : Nat) : Upholds s₀ (sessReadEffect n o s) := by simp [sessReadEffect, h]
@[simp] theorem modEntry_upholds (n : Nat) (f : SessEntry → SessEntry) : Upholds s₀ (modEntry n f s) := h
@[simp] theorem sessCmd_upholds (n : Nat) (v : Word) : Upholds s₀ (sessCmd n v s) := by simp [sessCmd, h]
@[simp] theorem sessWrite_upholds (n o : Nat) (v : Word) : Upholds s₀ (sessWrite n o v s) := by simp [sessWrite, h]
@[simp] theorem disReadEffect_upholds (off : Nat) : Upholds s₀ (disReadEffect off s) := by simp [disReadEffect, h]
@[simp] theorem disWrite_upholds (off : Nat) (v : Word) : Upholds s₀ (disWrite off v s) := by simp [disWrite, h]
@[simp] theorem voxReadEffect_upholds (off : Nat) : Upholds s₀ (voxReadEffect off s) := by simp [voxReadEffect, h]
@[simp] theorem voxWrite_upholds (off : Nat) (v : Word) : Upholds s₀ (voxWrite off v s) := by simp [voxWrite, h]
@[simp] theorem modWrite_upholds (off : Nat) (v : Word) : Upholds s₀ (modWrite off v s) := by simp [modWrite, h]

@[simp] theorem mrgWrite_upholds (r : Requester) (off : Nat) (v : Word) : Upholds s₀ (mrgWrite r off v s) := by
  simp [mrgWrite, h]

@[simp] theorem emtWrite_upholds (off : Nat) (v : Word) : Upholds s₀ (emtWrite off v s) := by simp [emtWrite, h]
@[simp] theorem timerConfig_upholds (n : Nat) (v : Word) : Upholds s₀ (timerConfig n v s) := by simp [timerConfig, h]
@[simp] theorem swcap_upholds (n : Nat) : Upholds s₀ (swcap n s) := by simp [swcap, h]
@[simp] theorem timerWrite_upholds (n o : Nat) (v : Word) : Upholds s₀ (timerWrite n o v s) := by simp [timerWrite, h]
@[simp] theorem gptReadEffect_upholds (off : Nat) : Upholds s₀ (gptReadEffect off s) := by simp [gptReadEffect, h]
@[simp] theorem gptWrite_upholds (off : Nat) (v : Word) : Upholds s₀ (gptWrite off v s) := by simp [gptWrite, h]
@[simp] theorem aouWrite_upholds (off : Nat) (v : Word) : Upholds s₀ (aouWrite off v s) := h
@[simp] theorem modPix_upholds (p : Nat) (f : PixPort → PixPort) : Upholds s₀ (modPix p f s) := h
@[simp] theorem pixReadEffect_upholds (off : Nat) : Upholds s₀ (pixReadEffect off s) := by simp [pixReadEffect, h]
@[simp] theorem pixWrite_upholds (off : Nat) (v : Word) : Upholds s₀ (pixWrite off v s) := by simp [pixWrite, h]
@[simp] theorem drvReadEffect_upholds (off : Nat) : Upholds s₀ (drvReadEffect off s) := by simp [drvReadEffect, h]

@[simp] theorem emStatWrite_upholds (n : Nat) (v : Word) : Upholds s₀ (emStatWrite n v s) := by
  unfold emStatWrite
  repeat' split
  all_goals exact h

@[simp] theorem drvWrite_upholds (off : Nat) (v : Word) : Upholds s₀ (drvWrite off v s) := by simp [drvWrite, h]
@[simp] theorem snsReadEffect_upholds (off : Nat) : Upholds s₀ (snsReadEffect off s) := by simp [snsReadEffect, h]
@[simp] theorem snsCtrlWrite_upholds (v : Word) : Upholds s₀ (snsCtrlWrite v s) := by simp [snsCtrlWrite, h]
@[simp] theorem snsWrite_upholds (off : Nat) (v : Word) : Upholds s₀ (snsWrite off v s) := by simp [snsWrite, h]
@[simp] theorem audWrite_upholds (off : Nat) (v : Word) : Upholds s₀ (audWrite off v s) := by simp [audWrite, h]
@[simp] theorem modDmxPort_upholds (p : Nat) (f : DmxPort → DmxPort) : Upholds s₀ (modDmxPort p f s) := h
@[simp] theorem dmxReadEffect_upholds (off : Nat) : Upholds s₀ (dmxReadEffect off s) := by simp [dmxReadEffect, h]
@[simp] theorem dmxWrite_upholds (off : Nat) (v : Word) : Upholds s₀ (dmxWrite off v s) := by simp [dmxWrite, h]
@[simp] theorem mgtReadEffect_upholds (off : Nat) : Upholds s₀ (mgtReadEffect off s) := by simp [mgtReadEffect, h]
@[simp] theorem mgtWrite_upholds (off : Nat) (v : Word) : Upholds s₀ (mgtWrite off v s) := by simp [mgtWrite, h]
@[simp] theorem rosWrite_upholds (off : Nat) (v : Word) : Upholds s₀ (rosWrite off v s) := by simp [rosWrite, h]
@[simp] theorem eccReadEffect_upholds (off : Nat) : Upholds s₀ (eccReadEffect off s) := by simp [eccReadEffect, h]
@[simp] theorem clearWord_upholds (a : Word) : Upholds s₀ (clearWord a s) := by simp [clearWord, h]
@[simp] theorem writeFlipctl_upholds (v : Word) : Upholds s₀ (writeFlipctl v s) := setEcc_upholds h _
@[simp] theorem eccWrite_upholds (off : Nat) (v : Word) : Upholds s₀ (eccWrite off v s) := by simp [eccWrite, h]
@[simp] theorem kstReadEffect_upholds (off : Nat) : Upholds s₀ (kstReadEffect off s) := by simp [kstReadEffect, h]
@[simp] theorem kstWrite_upholds (off : Nat) (v : Word) : Upholds s₀ (kstWrite off v s) := by simp [kstWrite, h]

@[simp] theorem blockReadEffect_upholds (a : Nat) : Upholds s₀ (blockReadEffect a s) := by
  unfold blockReadEffect
  split <;> simp [h]

@[simp] theorem mapReadEffect_upholds (src : BitVec 4) (a : Nat) : Upholds s₀ (mapReadEffect src a s) := by
  simp [mapReadEffect, h]

@[simp] theorem blockWrite_upholds (r : Requester) (a : Nat) (v : Word) : Upholds s₀ (blockWrite r a v s) := by
  unfold blockWrite
  split <;> simp [h]

@[simp] theorem mapWrite_upholds (r : Requester) (src : BitVec 4) (a size : Nat) (v : Word) (poison : Bool) :
    Upholds s₀ (mapWrite r src a size v poison s) := by simp [mapWrite, h]

@[simp] theorem effectOf_upholds (adm : Ending) (r : Requester) (a : Nat) (q : Ask) : Upholds s₀ (effectOf adm r a q s) := by
  unfold effectOf
  repeat' split
  all_goals simp [h]

@[simp] theorem accessEffect_upholds (r : Requester) (a : Nat) (q : Ask) : Upholds s₀ (accessEffect r a q s) := by
  simp [accessEffect, h]

/-! ## The host bus -/

@[simp] theorem countAbsent_upholds (a : Word) : Upholds s₀ (countAbsent a s) := h

@[simp] theorem owlExpire_upholds (hrdy : Bool) : Upholds s₀ (owlExpire hrdy s) := by
  unfold owlExpire
  dsimp only
  split <;> simp [h]

@[simp] theorem modWin_upholds (w : WIdx) (f : Window → Window) : Upholds s₀ (modWin w f s) := h
@[simp] theorem setHd_upholds (v : Half) : Upholds s₀ (setHd v s) := h
@[simp] theorem windowRefused_upholds (w : WIdx) : Upholds s₀ (windowRefused w s) := h
@[simp] theorem dataLoWrite_upholds (w : WIdx) (d : Half) : Upholds s₀ (dataLoWrite w d s) := h
@[simp] theorem dataHiWrite_upholds (w : WIdx) (d : Half) : Upholds s₀ (dataHiWrite w d s) := by simp [dataHiWrite, h]
@[simp] theorem dataLoRead_upholds (w : WIdx) : Upholds s₀ (dataLoRead w s) := by simp [dataLoRead, h]
@[simp] theorem winData_upholds (w : WIdx) (v : Word) : Upholds s₀ (winData w v s) := h
@[simp] theorem winPoison_upholds (w : WIdx) : Upholds s₀ (winPoison w s) := h

@[simp] theorem windowMark_upholds (w : WIdx) (addr : Word) (e : Ending) : Upholds s₀ (windowMark w addr e s) := by
  unfold windowMark
  split <;> exact h

@[simp] theorem latePerform_upholds (w : WIdx) (p : Word × Word) : Upholds s₀ (latePerform w p s) := by simp [latePerform, h]

@[simp] theorem latePick_upholds (q : Word → Bool) (w : WIdx) : Upholds s₀ (latePick q w s) :=
  foldl_upholds (modWin_upholds h _ _) fun _ p _ h => latePerform_upholds h _ p

@[simp] theorem lateSettle_upholds (a : Nat) : Upholds s₀ (lateSettle a s) := by simp [lateSettle, h]

@[simp] theorem lateChance_upholds (w : WIdx) : Upholds s₀ (lateChance w s) := by
  unfold lateChance
  split <;> simp [h]

@[simp] theorem lateTime_upholds : Upholds s₀ (lateTime s) := by simp [lateTime, h]
@[simp] theorem owlDone_upholds : Upholds s₀ (owlDone s) := by simp [owlDone, h]

@[simp] theorem windowEnd_upholds (w : WIdx) (x : Access) : Upholds s₀ (windowEnd w x s) := by
  unfold windowEnd
  extract_lets a s1 r s2 s3 s4
  have h2 : Upholds s₀ s2 := modWin_upholds (effectOf_upholds (lateSettle_upholds h _) _ _ _ _) _ _
  have h3 : Upholds s₀ s3 := by
    unfold s3
    clear_value s2
    split <;> simp [h2]
  have h4 : Upholds s₀ s4 := when_upholds h3 (winPoison_upholds h3 w)
  clear_value s4
  exact windowMark_upholds (when_upholds h4 (owlDone_upholds h4)) w _ _

@[simp] theorem windowReply_upholds (w : WIdx) : Upholds s₀ (windowReply w s) := by
  unfold windowReply
  split <;> simp [h]

@[simp] theorem windowTimeout_upholds (w : WIdx) : Upholds s₀ (windowTimeout w s) := by
  unfold windowTimeout
  repeat' split
  all_goals exact h

@[simp] theorem handover_upholds : Upholds s₀ (handover s) := by
  unfold handover
  split
  · exact h
  · extract_lets bus s1 bus' s2
    have h1 : Upholds s₀ s1 := h
    have h2 : Upholds s₀ s2 := by
      unfold s2
      split
      · exact acceptEvent_upholds h1 _ _
      · exact h1
    exact when_upholds h2 (raise_upholds h2 _)

@[simp] theorem writeHood_upholds (v : Half) : Upholds s₀ (writeHood v s) := h
@[simp] theorem hostReadEffect_upholds (i : Nat) : Upholds s₀ (hostReadEffect i s) := by simp [hostReadEffect, h]
@[simp] theorem isrClear_upholds (hi : Bool) (v : Half) : Upholds s₀ (isrClear hi v s) := h

@[simp] theorem aonWrite_upholds (i : Nat) (v : Half) : Upholds s₀ (aonWrite i v s) := by
  unfold aonWrite
  split <;> simp [h]

@[simp] theorem windowWrite_upholds (w : WIdx) (i : Nat) (v : Half) : Upholds s₀ (windowWrite w i v s) := by
  unfold windowWrite
  split <;> simp [h]

@[simp] theorem roostWrite_upholds (v : Half) : Upholds s₀ (roostWrite v s) := by simp [roostWrite, h]
@[simp] theorem epochWrite_upholds (v : Half) : Upholds s₀ (epochWrite v s) := by simp [epochWrite, h]

@[simp] theorem hostWrite_upholds (i : Nat) (v : Half) : Upholds s₀ (hostWrite i v s) := by
  unfold hostWrite
  repeat' split
  all_goals simp [h]

@[simp] theorem owlSees_upholds (o : Owl) (a : HostAccess) : Upholds s₀ (owlSees o a s) := by simp [owlSees, h]

@[simp] theorem hostServe_upholds (a : HostAccess) : Upholds s₀ (hostServe a s) := by
  unfold hostServe
  split <;> simp [h]

@[simp] theorem hostBlank_upholds (a : HostAccess) : Upholds s₀ (hostBlank a s) := by simp [hostBlank, h]

theorem aonServe_upholds (a : HostAccess) {f : State → State} (hf : Upholds s₀ (f s)) : Upholds s₀ (aonServe a f s) := by
  unfold aonServe
  split
  · simp [h]
  · split
    · exact owlSees_upholds hf _ _
    · simp [h]

@[simp] theorem aonAccess_upholds (a : HostAccess) : Upholds s₀ (aonAccess a s) := aonServe_upholds h a (hostServe_upholds h a)
@[simp] theorem roostDiscard_upholds (i : Nat) : Upholds s₀ (roostDiscard i s) := by simp [roostDiscard, h]

theorem roostServe_upholds (a : HostAccess) {f : State → State} (hf : Upholds s₀ (f s)) : Upholds s₀ (roostServe a f s) := by
  unfold roostServe
  split
  · exact owlSees_upholds hf _ _
  · simp [h]

/-- A host access is served in the state that late writes leave (R128). -/
@[simp] theorem hostRun_upholds (a : HostAccess) {f : State → State} (hf : Upholds s₀ (f (lateTime s))) :
    Upholds s₀ (hostRun a f s) := by
  have hl := lateTime_upholds h
  unfold hostRun
  split
  · exact h
  · extract_lets t
    split
    · exact aonServe_upholds hl _ hf
    · split
      · exact roostServe_upholds hl _ hf
      · exact owlSees_upholds hf _ _

@[simp] theorem hostAccess_upholds (a : HostAccess) : Upholds s₀ (hostAccess a s) :=
  hostRun_upholds h a (hostServe_upholds (lateTime_upholds h) a)

@[simp] theorem hostPut_upholds (i : Fin 64) (v : Half) : Upholds s₀ (hostPut i v s) := by simp [hostPut, h]
@[simp] theorem requestWrite_upholds (c : Mode) : Upholds s₀ (requestWrite c s) := by simp [requestWrite, h]

/-! ## Memory commands -/

@[simp] theorem memGrant_upholds (q : MemReq) : Upholds s₀ (memGrant q s) := by
  have hs := slideReads_upholds h
  unfold memGrant
  extract_lets a
  split
  · exact memReadEffect_upholds h _ _
  · split
    · exact writeCode_upholds hs _ _
    · exact mergedWrite_upholds hs _ _ _ _ _

@[simp] theorem scrubRewrite_upholds (a : Nat) (w : Code) : Upholds s₀ (scrubRewrite a w s) := by
  unfold scrubRewrite
  split
  · exact UpholdsParts.remem h (putRaw_wf _ _ _)
  · exact h

@[simp] theorem scrubBank_upholds (m : Nat) : Upholds s₀ (scrubBank m s) :=
  setEcc_upholds (scrubRewrite_upholds (memReadEffect_upholds h _ _) _ _) _

/-! ## Kestrel instructions -/

@[simp] theorem trap_upholds (k : KIdx) (cause : BitVec 4) (info : Word) : Upholds s₀ (trap k cause info s) := by
  unfold trap
  split
  · exact doubleFault_upholds (modK_upholds h k _) k
  · exact afterInstr_upholds (raise_upholds (modK_upholds h k _) _) k

@[simp] theorem takeTrap_upholds (k : KIdx) (t : BitVec 4 × Word) : Upholds s₀ (takeTrap k t s) :=
  trap_upholds (when_upholds h (countAbsent_upholds h _)) _ _ _

@[simp] theorem trapAny_upholds (k : KIdx) (first : BitVec 4 × Word) (rest : List (BitVec 4 × Word)) :
    Upholds s₀ (trapAny k first rest s) := by
  unfold trapAny
  split <;> simp [h]

@[simp] theorem orTrap_upholds (k : KIdx) (ts : List (BitVec 4 × Word)) {f : State → State} (hf : Upholds s₀ (f s)) :
    Upholds s₀ (orTrap k ts f s) := by
  unfold orTrap
  split
  · exact hf
  · exact trapAny_upholds h _ _ _

/-- One instruction of a kestrel, from what its word does in the state that the fetch leaves. -/
theorem kRun_upholds (k : KIdx) {sel : KInstr → Option (Word → State → State)}
    (hf : ∀ i f w s, sel i = some f → Upholds s₀ s → Upholds s₀ (f w s)) : Upholds s₀ (kRun k sel s) := by
  have hm := memReadEffect_upholds h (kSrc k) (fetchAddr s k)
  unfold kRun
  split
  · dsimp only
    split
    · exact h
    · next f hs =>
      split
      · exact trap_upholds hm _ _ _
      · obtain ⟨i, -, hi⟩ := Option.bind_eq_some_iff.mp hs
        exact hf i f _ _ hi hm
  · exact h

@[simp] theorem complete_upholds (k : KIdx) (f : Kestrel → Kestrel) : Upholds s₀ (complete k f s) := by simp [complete, h]

@[simp] theorem aluStep_upholds (k : KIdx) (f : Alu) (rd ra rb : Fin 16) (w : Word) :
    Upholds s₀ (aluStep k f rd ra rb w s) := by simp [aluStep, h]

@[simp] theorem kAlu_upholds (f : Alu) (k : KIdx) : Upholds s₀ (kAlu f k s) := by
  refine kRun_upholds h k fun i g w t hi ht => ?_
  repeat' split at hi
  all_goals cases hi
  simp [ht]

@[simp] theorem alukStep_upholds (k : KIdx) (f : AluK) (rd ra : Fin 16) (v : BitVec 18) (w : Word) :
    Upholds s₀ (alukStep k f rd ra v w s) := by simp [alukStep, h]

@[simp] theorem kAluk_upholds (f : AluK) (k : KIdx) : Upholds s₀ (kAluk f k s) := by
  refine kRun_upholds h k fun i g w t hi ht => ?_
  repeat' split at hi
  all_goals cases hi
  simp [ht]

@[simp] theorem khiStep_upholds (k : KIdx) (rd : Fin 16) (v : BitVec 22) (_w : Word) : Upholds s₀ (khiStep k rd v _w s) := by
  simp [khiStep, h]

@[simp] theorem goStep_upholds (k : KIdx) (link : Bool) (d : BitVec 25) (_w : Word) : Upholds s₀ (goStep k link d _w s) := by
  simp [goStep, h]

@[simp] theorem gorStep_upholds (k : KIdx) (link : Bool) (ra : Fin 16) (v : BitVec 18) (w : Word) :
    Upholds s₀ (gorStep k link ra v w s) := by simp [gorStep, h]

@[simp] theorem brStep_upholds (k : KIdx) (f : Cond) (ra rb : Fin 16) (d : BitVec 15) (w : Word) :
    Upholds s₀ (brStep k f ra rb d w s) := by simp [brStep, h]

@[simp] theorem kBr_upholds (f : Cond) (k : KIdx) : Upholds s₀ (kBr f k s) := by
  refine kRun_upholds h k fun i g w t hi ht => ?_
  repeat' split at hi
  all_goals cases hi
  simp [ht]

@[simp] theorem rttStep_upholds (k : KIdx) (_w : Word) : Upholds s₀ (rttStep k _w s) := by simp [rttStep, h]
@[simp] theorem brkStep_upholds (k : KIdx) (_w : Word) : Upholds s₀ (brkStep k _w s) := by simp [brkStep, h]
@[simp] theorem issueAll_upholds (k : KIdx) : Upholds s₀ (issueAll k s) := h

@[simp] theorem loadDone_upholds (k : KIdx) (rt : Fin 16) (v : Word) (p : Bool) : Upholds s₀ (loadDone k rt v p s) := by
  simp [loadDone, h]

@[simp] theorem loadIssue_upholds (k : KIdx) (rt : Fin 16) (a : Word) (size : Nat) (sx : Bool) :
    Upholds s₀ (loadIssue k rt a size sx s) := by
  unfold loadIssue
  split <;> simp [h]

@[simp] theorem ldStep_upholds (k : KIdx) (z : LdSize) (rt ra : Fin 16) (d : BitVec 15) (w : Word) :
    Upholds s₀ (ldStep k z rt ra d w s) := by simp [ldStep, h]

@[simp] theorem kLd_upholds (z : LdSize) (k : KIdx) : Upholds s₀ (kLd z k s) := by
  refine kRun_upholds h k fun i g w t hi ht => ?_
  repeat' split at hi
  all_goals cases hi
  simp [ht]

@[simp] theorem loadReply_upholds (k : KIdx) : Upholds s₀ (loadReply k s) := by
  unfold loadReply
  split
  · next rt a size sx adm _ =>
    extract_lets al r t
    have ht : Upholds s₀ t := effectOf_upholds h adm (.kestrel k) al.toNat .read
    clear_value t
    repeat' split
    · exact h
    · exact loadDone_upholds ht k _ _ _
    · exact loadDone_upholds (countAbsent_upholds ht a) k _ _ _
    · exact issueAll_upholds (takeTrap_upholds ht k _) k
  · exact h

@[simp] theorem enter_upholds (k : KIdx) (e : SbEntry) : Upholds s₀ (enter k e s) := by simp [enter, h]

@[simp] theorem bufferEntry_upholds (k : KIdx) (e : SbEntry) (w : Word) : Upholds s₀ (bufferEntry k e w s) := by
  simp [bufferEntry, h]

@[simp] theorem stStep_upholds (k : KIdx) (z : StSize) (rt ra : Fin 16) (d : BitVec 15) (w : Word) :
    Upholds s₀ (stStep k z rt ra d w s) := by simp [stStep, h]

@[simp] theorem kSt_upholds (z : StSize) (k : KIdx) : Upholds s₀ (kSt z k s) := by
  refine kRun_upholds h k fun i g w t hi ht => ?_
  repeat' split at hi
  all_goals cases hi
  simp [ht]

@[simp] theorem bufferRoom_upholds (k : KIdx) : Upholds s₀ (bufferRoom k s) := by
  unfold bufferRoom
  split <;> simp [h]

@[simp] theorem performPost_upholds (k : KIdx) (e : EvBytes) (n : BitVec 4) (adm : Ending) :
    Upholds s₀ (performPost k e n adm s) := by simp [performPost, h]

@[simp] theorem atomicEffect_upholds (k : KIdx) (a : Word) (v : Word) (p : Bool) (cmp : Option Word) (adm : Ending) :
    Upholds s₀ (atomicEffect k a v p cmp adm s) := by simp [atomicEffect, h]

@[simp] theorem performOr_upholds (a : Word) (adm : Ending) (q : Ask) (f : State → State) (hf : Upholds s₀ (f s)) :
    Upholds s₀ (performOr a adm q f s) := by
  unfold performOr
  split
  · exact hf
  · exact countAbsent_upholds h a

@[simp] theorem perform_upholds (k : KIdx) (e : SbEntry) : Upholds s₀ (perform k e s) := by
  unfold perform
  split <;> simp [h]

@[simp] theorem storeReply_upholds (k : KIdx) : Upholds s₀ (storeReply k s) := by
  have hm (f : Kestrel → Kestrel) := modK_upholds h k f
  unfold storeReply
  repeat' split
  · exact perform_upholds (hm _) k _
  · exact h
  · exact issueAll_upholds (perform_upholds (hm _) k _) k
  · exact h
  · exact h

@[simp] theorem waitIn_upholds (k : KIdx) (w : KWait) : Upholds s₀ (waitIn k w s) := h

@[simp] theorem atomicStep_upholds (k : KIdx) (rd ra rb : Fin 16) (cas : Bool) (w : Word) :
    Upholds s₀ (atomicStep k rd ra rb cas w s) := orTrap_upholds h k _ (issueAll_upholds (waitIn_upholds h k _) k)

@[simp] theorem atomicReply_upholds (k : KIdx) : Upholds s₀ (atomicReply k s) := by
  unfold atomicReply
  split <;> simp [h]

@[simp] theorem fenceStep_upholds (k : KIdx) (_w : Word) : Upholds s₀ (fenceStep k _w s) := by simp [fenceStep, h]
@[simp] theorem fenceDone_upholds (k : KIdx) : Upholds s₀ (fenceDone k s) := by simp [fenceDone, h]
@[simp] theorem waitDone_upholds (k : KIdx) (rd : Fin 16) (v : Word) : Upholds s₀ (waitDone k rd v s) := by simp [waitDone, h]

@[simp] theorem waitStep_upholds (k : KIdx) (rd ra : Fin 16) (w : Word) : Upholds s₀ (waitStep k rd ra w s) := by
  simp [waitStep, h]

@[simp] theorem waitReady_upholds (k : KIdx) : Upholds s₀ (waitReady k s) := by
  unfold waitReady
  split <;> simp [h]

@[simp] theorem postStep_upholds (k : KIdx) (ra : Fin 16) (w : Word) : Upholds s₀ (postStep k ra w s) := by simp [postStep, h]

@[simp] theorem sprReadEffect_upholds (k : KIdx) (sr : Nat) : Upholds s₀ (sprReadEffect k sr s) := by
  unfold sprReadEffect
  split <;> exact h

@[simp] theorem pendClear_upholds (k : KIdx) (m : Word) : Upholds s₀ (pendClear k m s) := by simp [pendClear, h]
@[simp] theorem signal_upholds (m : Word) : Upholds s₀ (signal m s) := h
@[simp] theorem ringHost_upholds (k : KIdx) (m : Word) : Upholds s₀ (ringHost k m s) := by simp [ringHost, h]

@[simp] theorem sprWrite_upholds (k : KIdx) (sr : Nat) (v : Word) : Upholds s₀ (sprWrite k sr v s) := by
  unfold sprWrite
  split <;> simp [h]

@[simp] theorem sprAct_upholds (k : KIdx) (a : SprAct) (sr : Nat) (old v : Word) : Upholds s₀ (sprAct k a sr old v s) := by
  simp [sprAct, h]

@[simp] theorem sprStep_upholds (k : KIdx) (a : SprAct) (rd ra : Fin 16) (sr : BitVec 12) (w : Word) :
    Upholds s₀ (sprStep k a rd ra sr w s) := by
  have ht := sprReadEffect_upholds h k sr.toNat
  refine orTrap_upholds h k _ (complete_upholds ?_ k _)
  split
  · exact sprAct_upholds ht k a _ _ _
  · exact ht

@[simp] theorem kSpr_upholds (a : SprAct) (k : KIdx) : Upholds s₀ (kSpr a k s) := by
  refine kRun_upholds h k fun i g w t hi ht => ?_
  repeat' split at hi
  all_goals cases hi
  simp [ht]

/-! ## Management and the debug port -/

@[simp] theorem blockPeekEffect_upholds (a : Nat) : Upholds s₀ (blockPeekEffect a s) := by
  unfold blockPeekEffect
  split <;> simp [h]

@[simp] theorem peekEffect_upholds (a : Nat) : Upholds s₀ (peekEffect a s) := by simp [peekEffect, h]

@[simp] theorem mgmtReadFn_upholds (c : List Byte) : Upholds s₀ (mgmtReadFn c s).1 := by
  unfold mgmtReadFn
  dsimp only
  split <;> simp [h]

@[simp] theorem mgmtWriteFn_upholds (c : List Byte) : Upholds s₀ (mgmtWriteFn c s).1 := by simp [mgmtWriteFn, h]
@[simp] theorem mgmtModeFn_upholds (c : List Byte) : Upholds s₀ (mgmtModeFn c s).1 := h
@[simp] theorem mgmtGateFn_upholds (c : List Byte) : Upholds s₀ (mgmtGateFn c s).1 := by simp [mgmtGateFn, h]
@[simp] theorem mgmtCommitFn_upholds : Upholds s₀ (mgmtCommitFn s).1 := by simp [mgmtCommitFn, h]

@[simp] theorem mgmtKeysetFn_upholds (c : List Byte) : Upholds s₀ (mgmtKeysetFn c s).1 := by
  unfold mgmtKeysetFn
  dsimp only
  repeat' split
  all_goals simp [h]

@[simp] theorem mgmtContentFn_upholds (c : List Byte) : Upholds s₀ (mgmtContentFn c s).1 := by simp [mgmtContentFn, h]
@[simp] theorem mgmtLogclrFn_upholds : Upholds s₀ (mgmtLogclrFn s).1 := h
@[simp] theorem mgmtRaise_upholds (fn : Nat) : Upholds s₀ (mgmtRaise fn s) := by simp [mgmtRaise, h]

omit h in
@[simp] theorem mgmtEnd_upholds {r : State × Nat × Word} (h : Upholds s₀ r.1) (c : List Byte) : Upholds s₀ (mgmtEnd c r) :=
  mgmtRaise_upholds (setMgt_upholds h _) _

theorem mgmtEval_upholds {f : List Byte → State → State × Nat × Word} (c : List Byte)
    (hf : ∀ c s, Upholds s₀ s → Upholds s₀ (f c s).1) : Upholds s₀ (mgmtEval f c s) := by
  unfold mgmtEval
  split
  · exact mgmtEnd_upholds h c
  · refine mgmtEnd_upholds (hf _ _ ?_) c
    split
    · exact setMgt_upholds h _
    · exact h

theorem mgmtRow_upholds (row : List Byte → Bool) {f : List Byte → State → State × Nat × Word}
    (hf : ∀ c s, Upholds s₀ s → Upholds s₀ (f c s).1) : Upholds s₀ (mgmtRow row f s) := by
  unfold mgmtRow
  split
  · exact h
  · split
    · exact mgmtEval_upholds (setMgt_upholds h _) _ hf
    · exact h

theorem mgmtFnRow_upholds (fn : Nat) {f : List Byte → State → State × Nat × Word}
    (hf : ∀ c s, Upholds s₀ s → Upholds s₀ (f c s).1) : Upholds s₀ (mgmtFnRow fn f s) := mgmtRow_upholds h _ hf

theorem mgmtAccessRow_upholds (fn : Nat) {f : List Byte → State → State × Nat × Word}
    (hf : ∀ c s, Upholds s₀ s → Upholds s₀ (f c s).1) : Upholds s₀ (mgmtAccessRow fn f s) := by
  unfold mgmtAccessRow
  split
  · exact h
  · exact mgmtFnRow_upholds h _ hf

@[simp] theorem contentRow_upholds (sub : Nat) (host : Bool) : Upholds s₀ (contentRow sub host s) := by
  unfold contentRow
  split
  · split <;> simp [h]
  · exact mgmtRow_upholds h _ fun c s h => mgmtContentFn_upholds h c

@[simp] theorem setIr_upholds (i : JtagIr) : Upholds s₀ (setIr i s) := h
@[simp] theorem kdebugDone_upholds (data : Word) (absent : Bool) : Upholds s₀ (kdebugDone data absent s) := h

@[simp] theorem kdebugEnd_upholds : Upholds s₀ (kdebugEnd s) := by
  unfold kdebugEnd
  split <;> simp [h]

@[simp] theorem kestrelDrvEnd_upholds (k : KIdx) : Upholds s₀ (kestrelDrvEnd k s) := by
  unfold kestrelDrvEnd
  repeat' split
  all_goals simp [h]

@[simp] theorem idle_upholds : Upholds s₀ (idle s) := by simp [idle, h]

end

/-! ## The rows of the table that do more than call one operation -/

/-- A row's answer: the next state upholds what `s` has. -/
def EndsUpholding (s : State) (o : Host.Outcome State Fault Refusal) : Prop := ∃ t, o = .next t ∧ Upholds s t

theorem execRegisterWrite_ends (x : RegAccess) (s : State) : EndsUpholding s (execRegisterWrite x s) := by
  have h := Upholds.refl s
  refine ⟨_, rfl, ?_⟩
  split
  · exact hostAccess_upholds h _
  · next r addr v =>
    have ht := accessEffect_upholds h r addr.toNat (.write 4 v false)
    dsimp only
    repeat' split
    · exact h
    · exact windowMark_upholds ht _ _ _
    · exact ht
    · exact countAbsent_upholds ht _
    · exact takeTrap_upholds ht _ _
    · exact ht

theorem execFuseDone_ends (s : State) : EndsUpholding s (execFuseDone s) := by
  have h := Upholds.refl s
  have hstart := startLanes_upholds (fuseDomains_upholds h)
  refine ⟨_, rfl, ?_⟩
  generalize startLanes (fuseDomains s) = u at hstart ⊢
  split
  · refine toStep_upholds ?_ 1
    exact hstart
  · exact h

/-- MEMTEST leaves the memories empty, and no bit of its result names PD0 (R307, R312). -/
theorem execMemtestDone_ends (banks : BitVec 8) (kests : BitVec 4) (addr : Word) (s : State) :
    EndsUpholding s (execMemtestDone banks kests addr s) := by
  have h := Upholds.refl s
  refine ⟨_, rfl, ?_⟩
  split
  · refine startWirescan_upholds (powerDownAll_upholds ?_ _)
    exact UpholdsParts.regate (UpholdsParts.remem h fun _ => rfl) id
  · exact h

theorem execRoostchkDone_ends (s : State) : EndsUpholding s (execRoostchkDone s) := by
  have h := Upholds.refl s
  refine ⟨_, rfl, ?_⟩
  split
  · exact leaveBoot_upholds (toStep_upholds (roostCheck_upholds h) 5)
  · exact h

theorem execDrvAccessEnd_ends (r : Requester) (s : State) : EndsUpholding s (execDrvAccessEnd r s) := by
  have h := Upholds.refl s
  refine ⟨_, rfl, ?_⟩
  repeat' split
  all_goals simp [h]

theorem execGateOffDone_ends (s : State) : EndsUpholding s (execGateOffDone s) := by
  have h := Upholds.refl s
  refine ⟨_, rfl, ?_⟩
  repeat' split
  · exact gateFinish_upholds (powerOffDomain_upholds h _) _
  · exact h
  · exact h

theorem execGatePowerupDone_ends (s : State) : EndsUpholding s (execGatePowerupDone s) := by
  have h := Upholds.refl s
  refine ⟨_, rfl, ?_⟩
  repeat' split
  · exact h
  · obtain ⟨hq, hm, -⟩ := powerUpDomain_upholds h _
    refine gateFinish_upholds ?_ _
    exact ⟨hq, hm, id⟩
  · exact gateFinish_upholds (gateOpens_upholds (powerUpDomain_upholds h _) _) _
  · exact h

theorem execGateResetRelease_ends (s : State) : EndsUpholding s (execGateResetRelease s) := by
  have h := Upholds.refl s
  refine ⟨_, rfl, ?_⟩
  repeat' split
  · exact gateFinish_upholds (gateOpens_upholds h _) _
  · exact h
  · exact h

theorem execUpdateTimeout_ends (s : State) : EndsUpholding s (execUpdateTimeout s) := by
  have h := Upholds.refl s
  refine ⟨_, rfl, ?_⟩
  repeat' split
  · exact h
  · refine gateResult_upholds (gateOpens_upholds ?_ _) _ _ _ _
    exact UpholdsParts.regate h fun hg => setPd_updater_aonOn _ _ _ _ hg (.inr rfl)
  · exact h

theorem execOwlKick_ends (kick : OwlKick) (s : State) : EndsUpholding s (execOwlKick kick s) := by
  have h := Upholds.refl s
  refine ⟨_, rfl, ?_⟩
  split
  · exact hostPut_upholds h _ _
  · exact hostRun_upholds h _ (lateTime_upholds h)

theorem execLaneLos_ends (p : PortIdx) (l : Fin 2) (s : State) : EndsUpholding s (execLaneLos p l s) := by
  have h := Upholds.refl s
  refine ⟨_, rfl, ?_⟩
  repeat' split
  · exact h
  · exact portDefect_upholds h _ _ _
  · exact clockDies_upholds (portDefect_upholds (raiseD_upholds h _ _) _ _ _) _

theorem execPortArmed_ends (p : PortIdx) (s : State) : EndsUpholding s (execPortArmed p s) := by
  have hm := moveTo_upholds (Upholds.refl s) p .armed
  refine ⟨_, rfl, ?_⟩
  dsimp only
  repeat' split
  all_goals simp [Upholds.refl s, hm]

theorem execFrameReceived_ends (f : FrameRx) (s : State) : EndsUpholding s (execFrameReceived f s) := by
  refine ⟨_, rfl, ?_⟩
  have ht (hd : Header) := tapFrame_upholds (hopFrame_upholds (Upholds.refl s) hd (clearFrame f)) (clearFrame f)
  repeat' split
  · exact ht _
  · exact frameAtChn_upholds (ht _) _ _
  · exact ht _
  · exact spoilFrame_upholds (ht _) _

theorem execScrub_ends (s : State) : EndsUpholding s (execScrub s) := by
  have h := Upholds.refl s
  refine ⟨_, rfl, ?_⟩
  split
  · exact foldl_upholds h fun _ _ _ h => by simp [h]
  · exact h

theorem execBeatTrackMs_ends (s : State) : EndsUpholding s (execBeatTrackMs s) := by
  have hf (x : Aud) : Upholds s (silentFollow { s with aud := x }) := by
    refine silentFollow_upholds ?_
    exact Upholds.refl s
  refine ⟨_, rfl, ?_⟩
  split
  · exact when_upholds (hf _) (raise_upholds (hf _) _)
  · exact Upholds.refl s

theorem execFaultLogClear_ends (host : Bool) (s : State) : EndsUpholding s (execFaultLogClear host s) := by
  have h := Upholds.refl s
  refine ⟨_, rfl, ?_⟩
  repeat' split
  · exact h
  · exact h
  · exact mgmtFnRow_upholds h 8 fun _ _ h => mgmtLogclrFn_upholds h

/-- An RDM request is answered, and acts, when it names the port (R400). -/
theorem rdm_ends (p : Fin 2) (q : RdmReq) {effect : State → State} (x : RdmAnswer) {s : State}
    (hf : ∀ t, Upholds s t → Upholds s (effect t)) : EndsUpholding s (rdm p q effect x s) := by
  refine ⟨_, rfl, ?_⟩
  split
  · exact hf _ (answer_upholds (Upholds.refl s) _ _)
  · exact Upholds.refl s

theorem execDeviceLabelSet_ends (p : Fin 2) (q : RdmReq) (label : List Byte) (s : State) :
    EndsUpholding s (execDeviceLabelSet p q label s) := by
  unfold execDeviceLabelSet
  split
  · exact rdm_ends p q _ fun _ h => storeLabel_upholds h _
  · exact rdm_ends p q _ fun _ h => h

theorem execDmxStartAddressSet_ends (p : Fin 2) (q : RdmReq) (start : Half) (s : State) :
    EndsUpholding s (execDmxStartAddressSet p q start s) := by
  unfold execDmxStartAddressSet
  split
  · exact rdm_ends p q _ fun _ h => raise_upholds (modDmx_upholds h _ _) _
  · exact rdm_ends p q _ fun _ h => h

theorem execIdentifyDeviceSet_ends (p : Fin 2) (q : RdmReq) (on : Byte) (s : State) :
    EndsUpholding s (execIdentifyDeviceSet p q on s) := by
  unfold execIdentifyDeviceSet
  split
  · exact rdm_ends p q _ fun _ h => raise_upholds (modDmx_upholds h _ _) _
  · exact rdm_ends p q _ fun _ h => h

theorem execResetDevice_ends (p : Fin 2) (q : RdmReq) (kind : Byte) (s : State) :
    EndsUpholding s (execResetDevice p q kind s) := by
  unfold execResetDevice
  repeat' split
  · exact rdm_ends p q _ fun _ h => h
  · exact rdm_ends p q _ fun _ h => softReset_upholds h _
  · exact rdm_ends p q _ fun _ h => softReset_upholds h _
  · exact rdm_ends p q _ fun _ h => h

theorem execRdmForward_ends (p : Fin 2) (q : RdmReq) (req : List Byte) (s : State) :
    EndsUpholding s (execRdmForward p q req s) := by
  unfold execRdmForward
  split
  · refine rdm_ends p q _ fun _ h => raise_upholds ?_ _
    exact h
  · exact rdm_ends p q _ fun _ h => h

/-! ## Every command -/

/-- Every command completes and upholds the three invariants: a row is one operation of the layer above, under the
condition that the row has, or one of the rows just treated. -/
theorem exec_ends (c : Instr) (s : State) : EndsUpholding s (exec c s) := by
  have h := Upholds.refl s
  cases c
  case registerWrite x => exact execRegisterWrite_ends x s
  case fuseDone => exact execFuseDone_ends s
  case memtestDone banks kests addr => exact execMemtestDone_ends banks kests addr s
  case roostchkDone => exact execRoostchkDone_ends s
  case drvAccessEnd r => exact execDrvAccessEnd_ends r s
  case gateOffDone => exact execGateOffDone_ends s
  case gatePowerupDone => exact execGatePowerupDone_ends s
  case gateResetRelease => exact execGateResetRelease_ends s
  case updateTimeout => exact execUpdateTimeout_ends s
  case owlKick kick => exact execOwlKick_ends kick s
  case epochCommit => exact ⟨_, rfl, hostRun_upholds h _ (commit_upholds (lateTime_upholds h))⟩
  case laneLos p l => exact execLaneLos_ends p l s
  case portArmed p => exact execPortArmed_ends p s
  case frameReceived f => exact execFrameReceived_ends f s
  case scrub => exact execScrub_ends s
  case beatTrackMs => exact execBeatTrackMs_ends s
  case faultLogClear host => exact execFaultLogClear_ends host s
  case deviceLabelSet p q label => exact execDeviceLabelSet_ends p q label s
  case dmxStartAddressSet p q start => exact execDmxStartAddressSet_ends p q start s
  case identifyDeviceSet p q on => exact execIdentifyDeviceSet_ends p q on s
  case resetDevice p q kind => exact execResetDevice_ends p q kind s
  case rdmForward p q req => exact execRdmForward_ends p q req s
  case mgmtNop => exact ⟨_, rfl, mgmtRow_upholds h _ fun _ _ h => h⟩
  case mgmtRead => exact ⟨_, rfl, mgmtAccessRow_upholds h 1 fun c _ h => mgmtReadFn_upholds h c⟩
  case mgmtWrite => exact ⟨_, rfl, mgmtAccessRow_upholds h 2 fun c _ h => mgmtWriteFn_upholds h c⟩
  case mgmtMode => exact ⟨_, rfl, mgmtFnRow_upholds h 3 fun c _ h => mgmtModeFn_upholds h c⟩
  case mgmtGate => exact ⟨_, rfl, mgmtFnRow_upholds h 4 fun c _ h => mgmtGateFn_upholds h c⟩
  case mgmtCommit => exact ⟨_, rfl, mgmtFnRow_upholds h 5 fun _ _ h => mgmtCommitFn_upholds h⟩
  case mgmtKeyset => exact ⟨_, rfl, mgmtFnRow_upholds h 6 fun c _ h => mgmtKeysetFn_upholds h c⟩
  case kKhi k | kGo k | kCall k | kGor k | kCallr k | kSwap k | kCas k | kFence k | kPost k | kWait k | kRtt k | kBrk k =>
    refine ⟨_, rfl, kRun_upholds h k fun i g w t hi ht => ?_⟩
    split at hi <;> cases hi
    simp [ht]
  all_goals
    refine ⟨_, rfl, ?_⟩
    simp [h]

/-- Settles O5: an idle step leaves the gate controller alone, and the front command upholds what holds with the queue's
rest (`exec_ends`). -/
theorem everyStepKeepsAonOn : Obligations.EveryStepKeepsAonOn := by
  intro s hs
  unfold step
  split
  · obtain ⟨-, -, hgate⟩ := idle_upholds (Upholds.refl s)
    exact ⟨idle s, rfl, hgate hs⟩
  · next c rest _ =>
    obtain ⟨t, ht, -, -, hgate⟩ := exec_ends c (s.setPending rest)
    exact ⟨t, ht, hgate hs⟩

end Sys2Proof.Machine

/-! SUPPORT. The commands of the island gate controller: what a RESULT says, and what refuses one (R91, R92, R114). -/

namespace Sys2Proof.Machine

/-! ## The RESULT of a command -/

@[simp] theorem gateResult_gate (res : BitVec 4) (c : GateCmd) (r : Requester) (n : Fin 67) (s : State) :
    (gateResult res c r n s).gate =
      { s.gate with result := res, src := gateSrc r s.free, cmd := BitVec.ofNat 3 c.code, pdReg := BitVec.ofNat 7 n.val } := rfl

@[simp] theorem gateResult_mem (res : BitVec 4) (c : GateCmd) (r : Requester) (n : Fin 67) (s : State) :
    (gateResult res c r n s).mem = s.mem := rfl

/-- A RESULT raises GATE (R114). -/
@[simp] theorem gateResult_raised (res : BitVec 4) (c : GateCmd) (r : Requester) (n : Fin 67) (s : State) :
    raised .gate (gateResult res c r n s) = true := raised_raise .gate _

/-- A RESULT changes the gate controller and what raising GATE changes; the debug port's SRC takes a free word. -/
theorem gateResult_frame (res : BitVec 4) (c : GateCmd) (r : Requester) (n : Fin 67) (s : State) :
    gateResult res c r n s = { s with
      gate := (gateResult res c r n s).gate, host := (gateResult res c r n s).host, mgt := (gateResult res c r n s).mgt
      kst := (gateResult res c r n s).kst, free := (gateResult res c r n s).free } := by
  obtain ⟨hframe, -⟩ := raise_raises .gate { s with
    gate := (gateResult res c r n s).gate, free := if r = .jtag then s.free + 1 else s.free }
  exact hframe

/-- The registers of SYS_GATESTAT name the command and its domain (Table 4.7). -/
theorem GateCmd.code_field (c : GateCmd) : (BitVec.ofNat 3 c.code).toNat = c.code := by cases c <;> rfl

theorem domain_field (n : Fin 67) : (BitVec.ofNat 7 n.val).toNat = n.val := by
  rw [BitVec.toNat_ofNat]
  omega

/-! ## The rows of the commands -/

/-- Every command's row is `gateCommand` once SYS_GATECMD can be written. -/
theorem exec_gateRow (c : GateCmd) (r : Requester) (pd : BitVec 7) (s : State) :
    exec (c.row r pd) s = .next (if chainRuns s then gateCommand r c pd s else s) := by
  cases c
  case nop => simp [GateCmd.row, gateCommand, exec, execGateNop]
  all_goals rfl

/-- A refused command sets the RESULT of the first refusal that applies (log entry 42). -/
theorem gateCommand_refused {c : GateCmd} {r : Requester} {pd : BitVec 7} {n : Fin 67} {s : State} (hc : c ≠ .nop)
    (hn : gateDomain pd = n) (hrefused : (gateRule s c r n || gateMode s r n || s.gate.busy) = true) :
    gateCommand r c pd s = gateResult (if gateRule s c r n then 3 else if gateMode s r n then 4 else 2) c r n s := by
  unfold gateCommand
  rw [hn, if_neg hc]
  split
  · rfl
  · next hrule =>
    split
    · rfl
    · next hmode =>
      rw [Bool.or_eq_true, Bool.or_eq_true] at hrefused
      obtain (hrule' | hmode') | hbusy := hrefused
      · exact absurd hrule' hrule
      · exact absurd hmode' hmode
      · exact if_pos hbusy

/-! ## What refuses a command (R92) -/

/-- A kestrel names its own domain. -/
theorem ownDomain_iff (r : Requester) (n : Nat) :
    (match r with | .kestrel k => n == 54 + k.val | _ => false) = true ↔ ∃ k : KIdx, r = .kestrel k ∧ n = 54 + k.val := by
  cases r <;> simp

theorem gateRule_iff (s : State) (c : GateCmd) (r : Requester) (n : Fin 67) :
    gateRule s c r n = true ↔
      n.val = 0 ∨ (n.val = 1 ∧ (c = .down ∨ c = .update)) ∨ (n.val = 66 ∧ c = .update) ∨
      (c = .update ∧ ∃ k : KIdx, r = .kestrel k ∧ n.val = 54 + k.val) ∨
      (s.gate.pd[n] = .off ∧ (c = .reset ∨ c = .reopen)) := by
  have hown := ownDomain_iff r n.val
  simp only [gateRule, pdState, Bool.or_eq_true, Bool.and_eq_true, beq_iff_eq, or_assoc]
  exact or_congr_right (or_congr_right (or_congr_right (or_congr_left (and_congr_right fun _ => hown))))

theorem gateMode_iff {r : Requester} (hr : r ≠ .mode) (s : State) (n : Fin 67) :
    gateMode s r n = true ↔
      s.mode.busy = true ∨ s.mode.code = .roost ∨ s.mode.code = .dormant ∨ s.mode.code = .boot ∨
      ((s.mode.code = .muster ∨ s.mode.code = .relay) ∧ 13 ≤ n.val ∧ n.val ≤ 45) := by
  cases hcode : s.mode.code <;> simp [gateMode, hr, hcode, modeDomain]

/-- Settles O26: a refusal is one RESULT (`gateCommand_refused`), whose frame is `gateResult_frame`; the refusals are
`gateRule_iff` and `gateMode_iff`. -/
theorem gateRefusals : Obligations.GateRefusals := by
  refine ⟨fun c r pd s hdown => ?_, fun c r pd n s hruns hc hn hrefused => ?_,
    fun c r n s => ⟨gateRule_iff s c r n, fun hr => gateMode_iff hr s n⟩⟩
  · rw [exec_gateRow, hdown]
    rfl
  · refine ⟨_, (exec_gateRow c r pd s).trans (congrArg _ ((if_pos hruns).trans (gateCommand_refused hc hn hrefused))), rfl,
      c.code_field, domain_field n, fun hr => if_neg hr, gateResult_raised _ c r n s, gateResult_frame _ c r n s⟩

end Sys2Proof.Machine

/-! SUPPORT. Table 4.3: what an accepted command does by the state of its domain. Closing and opening a domain change the
gate controller only where they say so, and keep every memory word (R95, R98, R101). -/

namespace Sys2Proof.Machine

/-! ## The gate controller and the memories beside clocks, ports and registers -/

theorem setCkp_gate (c : Ckp) (r : Bool) (s : State) : (setCkp c r s).gate = s.gate := by rw [setCkp_frame]

theorem redecideRef_gate (s : State) : (redecideRef s).gate = s.gate := setCkp_gate _ _ _

theorem moveTo_gate (p : PortIdx) (st : PortState) (s : State) : (moveTo p st s).gate = s.gate := by
  unfold moveTo
  split
  · rfl
  · cases st <;> rfl

theorem portDefect_gate (p : PortIdx) (cause : BitVec 3) (f : LanePort → LanePort) (s : State) :
    (portDefect p cause f s).gate = s.gate := by
  unfold portDefect
  extract_lets q st first s1 s2 dest s3
  have h3 : s3.gate = s.gate := moveTo_gate p dest s2
  clear_value s3
  split
  · split
    · exact moveTo_gate _ _ s1
    · rfl
  · split
    · exact (moveTo_gate _ _ s3).trans h3
    · exact (moveTo_gate _ _ s3).trans h3
    · exact h3

theorem clockDies_gate (k : Clk) (s : State) : (clockDies k s).gate = s.gate := by
  unfold clockDies
  split
  · rfl
  · split
    · rfl
    · exact setCkp_gate _ _ _

theorem stopTap_gate (n : Nat) (s : State) : (stopTap n s).gate = s.gate := by
  unfold stopTap
  split
  · exact redecideRef_gate _
  · rfl

theorem stopLane_gate (n : Nat) (s : State) : (stopLane n s).gate = s.gate := by
  unfold stopLane
  split
  · next p l _ =>
    extract_lets q t
    have ht : t.gate = s.gate := portDefect_gate q 6 _ s
    clear_value t
    split
    · exact ht
    · exact (clockDies_gate _ t).trans ht
  · rfl

/-- The gate controller and the memories are the same. -/
def Seats (s t : State) : Prop := t.gate = s.gate ∧ t.mem = s.mem

theorem ite_seats {p : Prop} [Decidable p] {s t u : State} (ht : Seats s t) (hu : Seats s u) :
    Seats s (if p then t else u) := by
  split
  · exact ht
  · exact hu

/-- The registers of a domain are not the gate controller's, and no memory word is one of them (R98). -/
theorem resetDomain_seats (n : Nat) (s : State) : Seats s (resetDomain n s) := by
  unfold resetDomain
  iterate 15 refine ite_seats ⟨rfl, rfl⟩ ?_
  exact ⟨rfl, rfl⟩

theorem assertReset_seats (n : Nat) (s : State) : Seats s (assertReset n s) :=
  have hreset := resetDomain_seats n s
  ite_seats hreset hreset

/-! ## The close of a domain -/

theorem gateCloses_gate (c : GateCmd) (n : Nat) (s : State) : (gateCloses c n s).gate = s.gate := by
  unfold gateCloses
  extract_lets s1 s2
  have h1 : s1.gate = s.gate := by
    unfold s1
    split <;> rfl
  have h2 : s2.gate = s.gate := by
    refine (stopTap_gate n _).trans ?_
    split
    · exact h1
    · exact (stopLane_gate n s1).trans h1
  clear_value s2
  split
  · exact h2
  · split <;> exact h2

/-- What a close carries through, whatever the command (`gateCloses_down_carries` for a mode entry's). -/
theorem gateCloses_carries {a s : State} (h : Carries a s) (c : GateCmd) (n : Nat) : Carries a (gateCloses c n s) := by
  unfold gateCloses
  extract_lets s1 s2
  have h1 : Carries a s1 := by
    unfold s1
    split
    · exact modK_carries h _ _
    · exact h
  have h2 : Carries a s2 := by
    refine stopTap_carries ?_ n
    split
    · exact h1
    · exact stopLane_carries h1 n
  clear_value s2
  split
  · exact h2.trans (.of_eq rfl rfl)
  · split
    · exact h2.trans (.of_eq rfl rfl)
    · exact h2

theorem foldl_gate {α : Type} (f : State → α → State) (hf : ∀ t i, (f t i).gate = t.gate) (l : List α) (s : State) :
    (l.foldl f s).gate = s.gate := by
  induction l generalizing s with
  | nil => rfl
  | cons i l ih => exact (ih _).trans (hf s i)

/-- The end of a vacate clears its reservations, counts the voices lost and drains (PHASE 3). -/
theorem vacateMove_gate (e : Nat) (s : State) :
    (vacateMove e s).gate = { s.gate with lost := (vacateMove e s).gate.lost, phase := 3, resv := [], b1Done := false } := by
  have hlast : ∃ x : BitVec 5, (vacateMove e s).gate = { s.gate with lost := x, phase := 3, resv := [], b1Done := false } := by
    refine ⟨_, foldl_gate _ (fun t i => ?_) _ _⟩
    split <;> rfl
  obtain ⟨x, hx⟩ := hlast
  rw [hx]

/-- The wait of a closing eyrie is over: voices that sound are waited for (PHASE 2). -/
theorem beginVacate_gate (e : Nat) (s : State) :
    (beginVacate e s).gate = { s.gate with
      lost := (beginVacate e s).gate.lost, phase := if eyrieSounding s.vox e then 2 else 3, resv := [], b1Done := false } := by
  unfold beginVacate
  split
  · rfl
  · exact vacateMove_gate e _

/-- The PHASE that a close begins in (R95). -/
def closePhase (n : Fin 67) (s : State) : BitVec 3 :=
  if 13 ≤ n.val ∧ n.val ≤ 44 then (if s.epoch.mig then 1 else if eyrieSounding s.vox (n.val - 13) then 2 else 3) else 3

theorem startClose_gate (c : GateCmd) (r : Requester) (n : Fin 67) (s : State) :
    (startClose c r n s).gate = { setPd n .transit s.gate with
      run := some (c, n, r), busy := true, phase := closePhase n s
      lost := (startClose c r n s).gate.lost, resv := (startClose c r n s).gate.resv
      b1Done := (startClose c r n s).gate.b1Done } := by
  unfold startClose closePhase
  extract_lets g s1
  split
  · split
    · rfl
    · exact (beginVacate_gate (n.val - 13) s1).trans (by rw [beginVacate_gate])
  · rw [gateCloses_gate]

theorem startClose_carries (c : GateCmd) (r : Requester) (n : Fin 67) (s : State) : Carries s (startClose c r n s) := by
  unfold startClose
  extract_lets g s1
  have h1 : Carries s s1 := .of_eq rfl rfl
  clear_value s1
  split
  · split
    · exact h1.trans (.of_eq rfl rfl)
    · exact beginVacate_carries h1 _
  · exact gateCloses_carries h1 c _

/-! ## The opening of a domain -/

/-- Opening trains a lane, chooses the reference again or frees an eyrie's voices, and raises CLK where the reference
changes. -/
theorem gateOpens_frame (n : Nat) (s : State) :
    gateOpens n s = { s with
      ckp := (gateOpens n s).ckp, host := (gateOpens n s).host, mgt := (gateOpens n s).mgt
      lanes := (gateOpens n s).lanes, vox := (gateOpens n s).vox } := by
  unfold gateOpens
  split
  · rw [redecideRef_frame]
  · unfold reachOn
    split <;> rfl

@[simp] theorem gateOpens_gate (n : Nat) (s : State) : (gateOpens n s).gate = s.gate := by rw [gateOpens_frame]

@[simp] theorem gateOpens_mem (n : Nat) (s : State) : (gateOpens n s).mem = s.mem := by rw [gateOpens_frame]

/-! ## Table 4.3 -/

/-- An accepted command acts by the state of its domain. -/
theorem exec_gateRow_accepted {c : GateCmd} {r : Requester} {pd : BitVec 7} {n : Fin 67} {s : State} (hc : c ≠ .nop)
    (hn : gateDomain pd = n) (haccepts : gateAccepts s c r n = true) : exec (c.row r pd) s = .next (gateAct c r n s) := by
  simp only [gateAccepts, Bool.and_eq_true, Bool.not_eq_true'] at haccepts
  obtain ⟨⟨⟨hruns, hrule⟩, hmode⟩, hbusy⟩ := haccepts
  rw [exec_gateRow, hruns]
  simp [gateCommand, hn, hc, hrule, hmode, hbusy]

section

variable {c : GateCmd} {n : Fin 67} {s : State}

theorem gateAct_closes (hpd : s.gate.pd[n] = .on) (hc : c = .down ∨ c = .reset ∨ c = .update) (r : Requester) :
    gateAct c r n s = startClose c r n s := by
  obtain rfl | rfl | rfl := hc <;> simp [gateAct, pdState, hpd]

theorem gateAct_powers (hpd : s.gate.pd[n] = .off) (hc : c = .up ∨ c = .update) (r : Requester) :
    gateAct c r n s = startSwitch c r n 5 s := by
  obtain rfl | rfl := hc <;> simp [gateAct, pdState, hpd]

theorem gateAct_leaves_closed (hpd : s.gate.pd[n] = .closed) (hc : c = .down ∨ c = .reset) (r : Requester) :
    gateAct c r n s = startSwitch c r n 4 (if c = .reset then assertReset n (dropUpdater n s) else dropUpdater n s) := by
  obtain rfl | rfl := hc <;> simp [gateAct, pdState, hpd]

theorem gateAct_opens (hpd : s.gate.pd[n] = .closed) (hc : c = .up ∨ c = .reopen) (r : Requester) :
    gateAct c r n s =
      gateResult 1 c r n (gateOpens n { dropUpdater n s with gate := setPd n .on (dropUpdater n s).gate }) := by
  obtain rfl | rfl := hc <;> simp [gateAct, pdState, hpd]

theorem gateAct_done (hc : (s.gate.pd[n] = .on ∧ (c = .up ∨ c = .reopen)) ∨ (s.gate.pd[n] = .off ∧ c = .down) ∨
    (s.gate.pd[n] = .closed ∧ c = .update)) (r : Requester) : gateAct c r n s = gateResult 1 c r n s := by
  obtain ⟨hpd, rfl | rfl⟩ | ⟨hpd, rfl⟩ | ⟨hpd, rfl⟩ := hc <;> simp [gateAct, pdState, hpd]

end

theorem pd_setPd_self (n : Fin 67) (x : PdState) (g : Gate) : (setPd n x g).pd[n] = x := by rw [pd_setPd, if_pos rfl]

theorem pd_setPd_of_ne {m n : Fin 67} (h : m ≠ n) (x : PdState) (g : Gate) : (setPd n x g).pd[m] = g.pd[m] := by
  rw [pd_setPd, if_neg fun heq => h (Fin.ext heq.symm)]

/-- The updater that is forgotten is the domain's own (R112). -/
theorem updater_ne_of_mem_filter {n : Nat} {l : List (Nat × Requester)} :
    ∀ u ∈ l.filter (·.1 != n), u.1 ≠ n := by simp

/-- Settles O27: every state of the domain in Table 4.3 is one equation for `gateAct`. -/
theorem gateCommandsActAsTable : Obligations.GateCommandsActAsTable := by
  refine ⟨fun _ _ _ => rfl, fun c r pd n s hc hn haccepts => ?_⟩
  have hexec := exec_gateRow_accepted hc hn haccepts
  refine ⟨fun hpd hcmd => ⟨_, hexec, ?on⟩, fun hpd hcmd => ⟨_, hexec, ?off⟩, fun hpd hcmd => ⟨_, hexec, ?closed⟩,
    fun hpd hcmd => ⟨_, hexec, ?opens⟩, fun hcmd => ⟨_, hexec, ?done⟩⟩
  case on =>
    have hcore := (startClose_carries c r n s).core
    simp only [State.core, Prod.mk.injEq] at hcore
    obtain ⟨hmode, hmem, -, -, -, -, hepoch⟩ := hcore
    rw [gateAct_closes hpd hcmd]
    beta_reduce
    rw [startClose_gate]
    exact ⟨pd_setPd_self n _ _, rfl, rfl, hmem, hmode, hepoch, fun m hm => pd_setPd_of_ne hm _ _, rfl⟩
  case off =>
    rw [gateAct_powers hpd hcmd]
    exact ⟨pd_setPd_self n _ _, rfl, rfl, rfl, fun m hm => pd_setPd_of_ne hm _ _, rfl⟩
  case closed =>
    rw [gateAct_leaves_closed hpd hcmd]
    obtain ⟨hgate, hmem⟩ : Seats (dropUpdater n s)
        (if c = .reset then assertReset n (dropUpdater n s) else dropUpdater n s) :=
      ite_seats (assertReset_seats n _) ⟨rfl, rfl⟩
    refine ⟨pd_setPd_self n _ _, rfl, rfl, rfl, hmem, ?_⟩
    have hupdater := congrArg Gate.updater hgate
    exact fun u hu => updater_ne_of_mem_filter u (hupdater ▸ hu)
  case opens =>
    have hbusy : s.gate.busy = false := by simp_all [gateAccepts]
    rw [gateAct_opens hpd hcmd]
    beta_reduce
    rw [gateResult_gate, gateResult_mem, gateOpens_gate, gateOpens_mem]
    exact ⟨pd_setPd_self n _ _, hbusy, rfl, gateResult_raised _ c r n _, rfl, updater_ne_of_mem_filter⟩
  case done =>
    rw [gateAct_done hcmd]
    exact ⟨rfl, rfl, rfl, gateResult_raised _ c r n s, gateResult_frame _ c r n s⟩

end Sys2Proof.Machine

/-! SUPPORT. The steps of a gate command up to its end state, and the domains that a mode entry goes on with (R88, R90, R95,
R98, R112). -/

namespace Sys2Proof.Machine

/-! ## The memory words of a domain (R88) -/

/-- Keeping the entries whose key satisfies `p` leaves the default at every other key. -/
theorem cget_filter {w : Nat} (d : Nat → BitVec w) (p : Nat → Bool) (c : Cells w) (k : Nat) :
    cget d (c.filter fun e => p e.1) k = if p k then cget d c k else d k := by
  induction c with
  | nil => simp [cget]
  | cons e c ih =>
    obtain ⟨j, v⟩ := e
    by_cases hj : j = k
    · subst hj
      by_cases hp : p j <;> simp [cget, hp, ih]
    · by_cases hp : p j <;> simp [cget, hp, ih, hj]

/-- A memory's bounds are those of whole words. -/
theorem memOf_word (a : Nat) : memOf (8 * (a / 8)) = memOf a := by
  have hbounds (lo hi : Nat) (hlo : lo % 8 = 0) (hhi : hi % 8 = 0) :
      (lo ≤ 8 * (a / 8) ∧ 8 * (a / 8) < hi) ↔ (lo ≤ a ∧ a < hi) := by omega
  have hquot (lo k : Nat) (hlo : lo % 8 = 0) (hk : k % 8 = 0) : (8 * (a / 8) - lo) / k = (a - lo) / k := by
    have hwords : (8 * (a / 8) - lo) / 8 = (a - lo) / 8 := by omega
    rw [show k = 8 * (k / 8) by omega, ← Nat.div_div_eq_div_mul, ← Nat.div_div_eq_div_mul, hwords]
  simp only [memOf, hbounds 0x01000000 0x01400000 rfl rfl, hbounds 0x00700000 0x00710000 rfl rfl,
    hbounds 0x00710000 0x00714000 rfl rfl, hquot 0x01000000 0x80000 rfl rfl, hquot 0x00700000 0x4000 rfl rfl,
    hquot 0x00710000 0x1000 rfl rfl]

/-- The words of a domain's memories are zeroed, and no others. -/
theorem rawWord_zeroDomain (n : Nat) (x : Mem) {a m : Nat} (hm : memOf a = some m) :
    rawWord (zeroDomain n x) a = if memDomain m = n then 0 else rawWord x a := by
  refine (cget_filter zeroCell (fun k => match memOf (8 * k) with | some t => memDomain t != n | none => true) x.words
    (a / 8)).trans ?_
  rw [memOf_word, hm]
  by_cases hdomain : memDomain m = n <;> simp [hdomain, rawWord, zeroCell]

/-- The domains of memories (R312). -/
theorem memDomain_bounds (m : Nat) : 46 ≤ memDomain m ∧ memDomain m ≤ 57 := by
  unfold memDomain
  split <;> omega

/-! ## The switch of a domain -/

/-- A power-up leaves the gate controller but for the failed memories, which it clears (R312). -/
theorem powerUpDomain_gate (n : Nat) (s : State) :
    (powerUpDomain n s).gate = { s.gate with failed := (powerUpDomain n s).gate.failed } := by
  obtain ⟨hgate, -⟩ := resetDomain_seats n s
  unfold powerUpDomain
  extract_lets t g u
  have hu : u.gate = { s.gate with failed := u.gate.failed } := by
    unfold u g t
    rw [← hgate]
    split <;> rfl
  clear_value u
  split
  · exact hu
  · split
    · exact hu
    · split <;> exact hu

theorem powerUpDomain_mem (n : Nat) (s : State) :
    (powerUpDomain n s).mem = if 46 ≤ n ∧ n ≤ 57 then zeroDomain n s.mem else s.mem := by
  obtain ⟨-, hmem⟩ := resetDomain_seats n s
  unfold powerUpDomain
  extract_lets t g u
  have hu : u.mem = s.mem := by
    unfold u t
    split <;> exact hmem
  clear_value u
  split
  · rw [if_pos (by omega), ← hu]
  · split
    · rw [if_pos (by omega), ← hu]
    · rw [if_neg (show ¬(46 ≤ n ∧ n ≤ 57) by omega)]
      split <;> exact hu

/-- A power-up zeroes the memory words of its domain and keeps every other. -/
theorem rawWord_powerUpDomain (n : Nat) (s : State) {a m : Nat} (hm : memOf a = some m) :
    rawWord (powerUpDomain n s).mem a = if memDomain m = n then 0 else rawWord s.mem a := by
  have hbounds := memDomain_bounds m
  rw [powerUpDomain_mem]
  split
  · exact rawWord_zeroDomain n s.mem hm
  · rw [if_neg (by omega)]

theorem powerUpDomain_mode (n : Nat) (s : State) : (powerUpDomain n s).mode = s.mode :=
  congrArg Prod.fst (powerUpDomain_powered n s)

theorem powerOffDomain_gate_mode (n : Nat) (s : State) :
    (powerOffDomain n s).gate = s.gate ∧ (powerOffDomain n s).mode = s.mode := by
  unfold powerOffDomain
  iterate 4
    split
    · exact ⟨rfl, rfl⟩
  exact ⟨(resetDomain_seats n s).1, congrArg Prod.fst (resetDomain_powered n s)⟩

/-! ## A mode entry goes on (R90) -/

/-- RESULT is DONE, and the command in progress, if there is one, is the entry's. -/
def Gate.entrys (g : Gate) : Prop := g.result = 1 ∧ (g.busy = false ∨ ∃ c m, g.run = some (c, m, .mode))

theorem gateAct_entrys {c : GateCmd} (hc : c = .down ∨ c = .up) (n : Fin 67) {s : State} (h : s.gate.entrys) :
    (gateAct c .mode n s).gate.entrys := by
  obtain ⟨hresult, hrun⟩ := h
  have hdone {u : State} (hbusy : u.gate.busy = s.gate.busy) (hkept : u.gate.run = s.gate.run) :
      (gateResult 1 c .mode n u).gate.entrys := ⟨rfl, by simpa [hbusy, hkept] using hrun⟩
  cases hpd : s.gate.pd[n] <;> obtain rfl | rfl := hc
  case on.inl =>
    rw [gateAct_closes hpd (.inl rfl), startClose_gate]
    exact ⟨hresult, .inr ⟨_, _, rfl⟩⟩
  case on.inr =>
    rw [gateAct_done (.inl ⟨hpd, .inl rfl⟩)]
    exact hdone rfl rfl
  case off.inl =>
    rw [gateAct_done (.inr (.inl ⟨hpd, rfl⟩))]
    exact hdone rfl rfl
  case off.inr =>
    rw [gateAct_powers hpd (.inl rfl)]
    exact ⟨hresult, .inr ⟨_, _, rfl⟩⟩
  case closed.inl =>
    rw [gateAct_leaves_closed hpd (.inl rfl)]
    exact ⟨hresult, .inr ⟨_, _, rfl⟩⟩
  case closed.inr =>
    rw [gateAct_opens hpd (.inl rfl)]
    exact hdone (by rw [gateOpens_gate]; rfl) (by rw [gateOpens_gate]; rfl)
  case transit.inl => simpa [gateAct, pdState, hpd] using ⟨hresult, hrun⟩
  case transit.inr => simpa [gateAct, pdState, hpd] using ⟨hresult, hrun⟩

theorem entryLast_gate (s : State) : (entryLast s).gate = s.gate := by
  unfold entryLast
  extract_lets s1
  have h1 : s1.gate = s.gate := by
    unfold s1
    split <;> rfl
  clear_value s1
  split
  · split <;> exact h1
  · exact h1
  · exact h1

theorem entryGoes_entrys {s : State} (h : s.gate.entrys) : (entryGoes s).gate.entrys := by
  unfold entryGoes
  split
  · extract_lets t
    have ht : t.gate.entrys := by
      refine List.foldlRecOn (motive := fun u : State => u.gate.entrys) (entryTodo s) _ h fun u hu c hc => ?_
      split
      · exact hu
      · exact gateAct_entrys (cmd_of_mem_entryTodo hc) _ hu
    clear_value t
    split
    · rw [entryLast_gate]
      exact ht
    · exact ht
  · exact h

/-- Outside a mode entry nothing goes on. -/
theorem entryGoes_of_not_busy {s : State} (h : s.mode.busy = false) : entryGoes s = s := by
  simp [entryGoes, h]

/-! ## The end of a command (R95) -/

/-- How a command on `n` ends with the domain in state `st`: with RESULT DONE and GATE raised; a mode entry then goes on. -/
def Ends (n : Fin 67) (st : PdState) (s t : State) : Prop :=
  t.gate.result = 1 ∧ raised .gate t = true ∧
  (s.mode.busy = false → t.gate.pd[n] = st ∧ t.gate.busy = false ∧ t.gate.run = none ∧
    ∀ m : Fin 67, m ≠ n → t.gate.pd[m] = s.gate.pd[m]) ∧
  (s.mode.busy = true → t.gate.busy = false ∨ ∃ c m, t.gate.run = some (c, m, .mode))

/-- The state at the end of a command, before a mode entry goes on. -/
def atEnd (st : PdState) (c : GateCmd) (n : Fin 67) (r : Requester) (s : State) : State :=
  gateResult 1 c r n { s with gate := { setPd n st s.gate with run := none, busy := false, phase := 0 } }

section

variable {c : GateCmd} {n : Fin 67} {r : Requester} {s u : State} (hrun : u.gate.run = some (c, n, r))

include hrun

theorem gateFinish_eq (st : PdState) : gateFinish st u = entryGoes (atEnd st c n r u) := by
  simp only [gateFinish, hrun, atEnd]

theorem gateFinish_mem (st : PdState) : (gateFinish st u).mem = u.mem := by
  have hstay := (entryGoes_carries (.refl (atEnd st c n r u))).stay
  rw [gateFinish_eq hrun]
  exact congrArg (·.2.1) hstay

theorem gateFinish_updater (st : PdState) (hbusy : u.mode.busy = false) :
    (gateFinish st u).gate.updater = u.gate.updater := by
  rw [gateFinish_eq hrun, entryGoes_of_not_busy (s := atEnd st c n r u) hbusy]
  rfl

/-- A command that comes to its end from `s` through `u` ends as R95 says. -/
theorem gateFinish_ends (hpd : u.gate.pd = s.gate.pd) (hmode : u.mode = s.mode) (st : PdState) :
    Ends n st s (gateFinish st u) := by
  have hentry : (atEnd st c n r u).gate.entrys := ⟨rfl, .inl rfl⟩
  obtain ⟨hresult, hentrys⟩ := entryGoes_entrys hentry
  have hraised := (entryGoes_carries (.refl (atEnd st c n r u))).raised _ (gateResult_raised 1 c r n _)
  rw [gateFinish_eq hrun]
  refine ⟨hresult, hraised, fun hbusy => ?_, fun _ => hentrys⟩
  rw [entryGoes_of_not_busy (hmode ▸ hbusy)]
  exact ⟨pd_setPd_self n st _, rfl, rfl, fun m hm => (pd_setPd_of_ne hm st u.gate).trans (congrArg (·[m]) hpd)⟩

end

/-! ## The steps -/

/-- Domain `n` waits for its update, with its updater behind those that wait already (R112). -/
def awaitsUpdate (n : Fin 67) (r : Requester) (g : Gate) (u : State) : State :=
  { u with gate := { g with updater := g.updater ++ [(n.val, r)] } }

section

variable {c : GateCmd} {n : Fin 67} {r : Requester} {s : State} (hrun : s.gate.run = some (c, n, r))

include hrun

theorem exec_gateDrainEnd_run (hphase : s.gate.phase = 3) :
    exec .gateDrainEnd s = .next (if c = .down then { abandonAll s with gate := { s.gate with phase := 4 } }
      else if c = .reset then assertReset n { abandonAll s with gate := { s.gate with phase := 4 } }
      else gateFinish .closed (awaitsUpdate n r s.gate (abandonAll s))) := by
  refine congrArg Host.Outcome.next ?_
  unfold drainEnd
  rw [hrun]
  refine (if_neg (not_not_intro hphase)).trans ?_
  cases c <;> rfl

theorem exec_gateOffDone_down (hphase : s.gate.phase = 4) (hc : c = .down) :
    exec .gateOffDone s = .next (gateFinish .off (powerOffDomain n s)) := by
  subst hc
  refine congrArg Host.Outcome.next ?_
  rw [hrun]
  exact if_pos hphase

theorem exec_gateResetRelease_reset (hphase : s.gate.phase = 4) (hc : c = .reset) :
    exec .gateResetRelease s = .next (gateFinish .on (gateOpens n s)) := by
  subst hc
  refine congrArg Host.Outcome.next ?_
  rw [hrun]
  exact if_pos hphase

theorem exec_gatePowerupDone_run (hphase : s.gate.phase = 5) :
    exec .gatePowerupDone s = .next (if c = .update then
        gateFinish .closed (awaitsUpdate n r s.gate (powerUpDomain n s))
      else gateFinish .on (gateOpens n (powerUpDomain n s))) := by
  refine congrArg Host.Outcome.next ?_
  rw [hrun]
  exact if_neg (not_not_intro hphase)

end

/-! ## Steps that no command waits for -/

theorem exec_gateDrainEnd_idle {s : State} (h : s.gate.run = none ∨ s.gate.phase ≠ 3) : exec .gateDrainEnd s = .next s := by
  refine congrArg Host.Outcome.next ?_
  unfold drainEnd
  split
  · next hrun => exact if_pos (h.resolve_left (by simp [hrun]))
  · rfl

theorem exec_gateOffDone_idle {s : State} (h : s.gate.run = none ∨ s.gate.phase ≠ 4) : exec .gateOffDone s = .next s := by
  refine congrArg Host.Outcome.next ?_
  split
  · next hrun => exact if_neg (h.resolve_left (by simp [hrun]))
  · rfl

theorem exec_gateResetRelease_idle {s : State} (h : s.gate.run = none ∨ s.gate.phase ≠ 4) :
    exec .gateResetRelease s = .next s := by
  refine congrArg Host.Outcome.next ?_
  split
  · next hrun => exact if_neg (h.resolve_left (by simp [hrun]))
  · rfl

theorem exec_gatePowerupDone_idle {s : State} (h : s.gate.run = none ∨ s.gate.phase ≠ 5) :
    exec .gatePowerupDone s = .next s := by
  refine congrArg Host.Outcome.next ?_
  split
  · next hrun => exact if_pos (h.resolve_left (by simp [hrun]))
  · rfl

theorem exec_updateTimeout_idle {s : State} (h : s.gate.updater = [] ∨ s.gate.busy = true) :
    exec .updateTimeout s = .next s := by
  refine congrArg Host.Outcome.next ?_
  split
  · next hupdater => exact if_pos (h.resolve_left (by simp [hupdater]))
  · rfl

/-! ## The update timeout (R112) -/

theorem gateDomain_ofNat (n : Fin 67) : gateDomain (BitVec.ofNat 7 n.val) = n := by
  have hn := domain_field n
  ext
  simp [gateDomain, hn]

/-- The domain that has been CLOSED longest opens. -/
def timesOut (n : Fin 67) (r : Requester) (rest : List (Nat × Requester)) (s : State) : State :=
  gateResult 5 .update r n (gateOpens n { s with gate := { setPd n .on s.gate with updater := rest } })

theorem exec_updateTimeout_closed {n : Fin 67} {r : Requester} {rest : List (Nat × Requester)} {s : State}
    (hupdater : s.gate.updater = (n.val, r) :: rest) (hbusy : s.gate.busy = false) :
    exec .updateTimeout s = .next (timesOut n r rest s) := by
  refine congrArg Host.Outcome.next ?_
  rw [hupdater]
  refine (if_neg (by simp [hbusy])).trans ?_
  rw [gateDomain_ofNat]
  rfl

theorem timesOut_gate (n : Fin 67) (r : Requester) (rest : List (Nat × Requester)) (s : State) :
    (timesOut n r rest s).gate.pd[n] = .on ∧ (timesOut n r rest s).gate.result = 5 ∧
      (timesOut n r rest s).gate.updater = rest := by
  rw [timesOut, gateResult_gate, gateOpens_gate]
  exact ⟨pd_setPd_self n _ _, rfl, rfl⟩

theorem timesOut_frame (n : Fin 67) (r : Requester) (rest : List (Nat × Requester)) (s : State) :
    timesOut n r rest s = { s with
      gate := (timesOut n r rest s).gate, host := (timesOut n r rest s).host, mgt := (timesOut n r rest s).mgt
      kst := (timesOut n r rest s).kst, lanes := (timesOut n r rest s).lanes, ckp := (timesOut n r rest s).ckp
      vox := (timesOut n r rest s).vox, free := (timesOut n r rest s).free } := by
  unfold timesOut
  generalize hv : ({ s with gate := { setPd n .on s.gate with updater := rest } } : State) = v
  have hopens := gateOpens_frame n v
  generalize gateOpens n v = u at hopens
  have hresult := gateResult_frame 5 .update r n u
  generalize gateResult 5 .update r n u = t at hresult
  rw [hresult, hopens, ← hv]

/-- Settles O28: a step ends its command through `gateFinish`, whose end state is `gateFinish_ends`. -/
theorem gateStepsReachEndState : Obligations.GateStepsReachEndState := by
  refine ⟨fun c n r s hrun hbusy hpd => ⟨fun hphase hc => ?drain, fun hphase hc => ?update, fun hphase hc => ?off,
      fun hphase hc => ?release, fun hphase => ?powerup⟩,
    fun s hrun => ⟨exec_gateDrainEnd_idle (.inl hrun), exec_gateOffDone_idle (.inl hrun),
      exec_gateResetRelease_idle (.inl hrun), exec_gatePowerupDone_idle (.inl hrun)⟩,
    fun s => ⟨fun h => exec_gateDrainEnd_idle (.inr h), fun h => exec_gatePowerupDone_idle (.inr h),
      fun h => ⟨exec_gateOffDone_idle (.inr h), exec_gateResetRelease_idle (.inr h)⟩⟩,
    fun s h => exec_updateTimeout_idle h, fun n r rest s hupdater hbusy => ?timeout⟩
  case drain =>
    have hexec := exec_gateDrainEnd_run hrun hphase
    obtain rfl | rfl := hc
    · exact ⟨_, hexec, rfl, hbusy, hpd, hrun, rfl⟩
    · obtain ⟨hgate, hmem⟩ := assertReset_seats n { abandonAll s with gate := { s.gate with phase := 4 } }
      refine ⟨_, hexec, ?_⟩
      rw [if_neg (by decide), if_pos rfl]
      beta_reduce
      rw [hgate]
      exact ⟨rfl, hbusy, hpd, hrun, hmem⟩
  case update =>
    subst hc
    have hrun' : (awaitsUpdate n r s.gate (abandonAll s)).gate.run = some (.update, n, r) := hrun
    refine ⟨_, exec_gateDrainEnd_run hrun hphase, gateFinish_ends hrun' rfl rfl .closed, fun hmode => ?_,
      gateFinish_mem hrun' .closed⟩
    refine (gateFinish_updater hrun' .closed hmode).symm ▸ ?_
    exact List.mem_append_right _ List.mem_cons_self
  case off =>
    obtain ⟨hgate, hmode⟩ := powerOffDomain_gate_mode n s
    have hrun' := (congrArg Gate.run hgate).trans hrun
    exact ⟨_, exec_gateOffDone_down hrun hphase hc, gateFinish_ends hrun' (congrArg Gate.pd hgate) hmode .off⟩
  case release =>
    have hgate := gateOpens_gate n s
    have hrun' := (congrArg Gate.run hgate).trans hrun
    have hmode : (gateOpens n s).mode = s.mode := by rw [gateOpens_frame]
    exact ⟨_, exec_gateResetRelease_reset hrun hphase hc, gateFinish_ends hrun' (congrArg Gate.pd hgate) hmode .on,
      (gateFinish_mem hrun' .on).trans (gateOpens_mem n s)⟩
  case powerup =>
    have hup := powerUpDomain_gate n s
    have hmode := powerUpDomain_mode n s
    refine ⟨_, exec_gatePowerupDone_run hrun hphase, ?_⟩
    beta_reduce
    split
    · have hrun' : (awaitsUpdate n r s.gate (powerUpDomain n s)).gate.run = some (c, n, r) := hrun
      exact ⟨gateFinish_ends (s := s) hrun' rfl hmode .closed, fun a m hm =>
        (congrArg (rawWord · a) (gateFinish_mem hrun' .closed)).trans (rawWord_powerUpDomain n s hm)⟩
    · have hgate := (gateOpens_gate n (powerUpDomain n s)).trans hup
      have hrun' := (congrArg Gate.run hgate).trans hrun
      have hpd' : (gateOpens n (powerUpDomain n s)).gate.pd = s.gate.pd := by rw [hgate]
      have hmode' : (gateOpens n (powerUpDomain n s)).mode = s.mode := by rw [gateOpens_frame]; exact hmode
      have hmem := (gateFinish_mem hrun' .on).trans (gateOpens_mem n _)
      exact ⟨gateFinish_ends hrun' hpd' hmode' .on, fun a m hm =>
        (congrArg (rawWord · a) hmem).trans (rawWord_powerUpDomain n s hm)⟩
  case timeout =>
    obtain ⟨hpd, hresult, hrest⟩ := timesOut_gate n r rest s
    have hmem : (timesOut n r rest s).mem = s.mem := by rw [timesOut_frame]
    exact ⟨_, exec_updateTimeout_closed hupdater hbusy, hpd, hresult, hrest, gateResult_raised _ _ _ _ _, hmem,
      timesOut_frame n r rest s⟩

end Sys2Proof.Machine

/-! SUPPORT. A step on an empty queue (log entry 10). -/

namespace Sys2Proof.Machine

theorem step_of_empty {s : State} (h : s.pending = []) : step s = .next (idle s) := by simp only [step, h]

theorem idle_of_runs {s : State} (h : owlRuns s = true) :
    idle s = s.setOwl { s.owl with count := BitVec.ofNat 16 (s.owl.count.toNat - 1) } := if_pos h

theorem idle_of_stopped {s : State} (h : owlRuns s = false) : idle s = s := if_neg (by simp [h])

/-- Settles O2: an idle step runs the count of an owl that counts, and does nothing else. -/
theorem emptyQueueRunsOwlCountOnly : Obligations.EmptyQueueRunsOwlCountOnly := by
  intro s hempty
  refine ⟨idle s, step_of_empty hempty, ?_⟩
  cases hruns : owlRuns s
  case false => rw [idle_of_stopped hruns]; exact ⟨rfl, rfl⟩
  case true =>
    rw [idle_of_runs hruns]
    exact ⟨rfl, Nat.mod_eq_of_lt (Nat.lt_of_le_of_lt (Nat.sub_le _ _) s.owl.count.isLt)⟩

end Sys2Proof.Machine

/-! SUPPORT. The event FIFO of the host bus and its doorbells (R131-R134). -/

namespace Sys2Proof.Machine

/-! ## Posting and clearing (R131, R132) -/

/-- An access with any effect that is served has it in `lateTime s`, and the owl sees it. -/
theorem hostRun_of_served {s : State} (h : HostServed s) (a : HostAccess) (f : State → State) :
    hostRun a f s = owlSees (lateTime s).owl a (f (lateTime s)) := by
  obtain ⟨hpor, haon, hroost⟩ := h
  simp [hostRun, hpor, haon, hroost]

theorem exec_eventStageClear (s : State) :
    exec .eventStageClear s =
      .next (hostRun (.write 0x21 0x8000) (fun s => { s with host := stageClear s.host }) s) := rfl

theorem hostWrite_evdata (d : Half) (s : State) : hostWrite 0x20 d s = { s with host := postHalf d s.host } := rfl

theorem hostWrite_doorbell (m : BitVec 4) (s : State) :
    hostWrite 0x24 (m.setWidth 16) s = { s with host := { s.host with dbk := s.host.dbk ||| m } } := by
  have hlow : low 4 (m.setWidth 16) = m := BitVec.setWidth_setWidth_of_le m (by decide)
  have hwrite : hostWrite 0x24 (m.setWidth 16) s = { s with host := ringDoorbell (low 4 (m.setWidth 16)) s.host } := rfl
  rw [hwrite, hlow, ringDoorbell]

/-- A posted half-word changes the stage, the FIFO and the drop count alone. -/
theorem postHalf_frame (d : Half) (h : HostBus) :
    postHalf d h =
      { h with evStage := (postHalf d h).evStage, evFifo := (postHalf d h).evFifo, evdrop := (postHalf d h).evdrop } := by
  unfold postHalf
  split
  · rfl
  · split <;> rfl

theorem postHalf_stages {h : HostBus} (hstage : h.evStage.length < 7) (d : Half) :
    postHalf d h = { h with evStage := h.evStage ++ [d] } := if_pos hstage

theorem postHalf_posts {h : HostBus} (hstage : 7 ≤ h.evStage.length) (hfifo : h.evFifo.length < 16) (d : Half) :
    postHalf d h = { h with evStage := [], evFifo := h.evFifo ++ [eventOf (h.evStage ++ [d])] } := by
  rw [postHalf, if_neg (Nat.not_lt.2 hstage), if_pos hfifo]

theorem postHalf_drops {h : HostBus} (hstage : 7 ≤ h.evStage.length) (hfifo : 16 ≤ h.evFifo.length) (d : Half) :
    postHalf d h = { h with evStage := [], evdrop := satInc h.evdrop } := by
  rw [postHalf, if_neg (Nat.not_lt.2 hstage), if_neg (Nat.not_lt.2 hfifo)]

/-! ## Handing over (R133) -/

/-- Dispatch touches no register of the host bus but the causes. -/
theorem acceptEvent_host (src : EvSource) (e : EvBytes) (s : State) :
    (acceptEvent src e s).host = { s.host with isr := (acceptEvent src e s).host.isr } := by
  simp only [acceptEvent, acceptFor]
  split
  case isTrue => rfl
  split
  case isTrue => rfl
  split
  case isTrue => rw [raise_host]; rfl
  split
  case isTrue => rw [raise_host]; rfl
  case isFalse => rfl

/-- The event at the front of the FIFO goes to dispatch, or with PD12 not ON it is dropped. -/
def handedOver (e : EvBytes) (es : List EvBytes) (s : State) : State :=
  let u : State := { s with host := { s.host with evFifo := es } }
  if pdOn s 12 then acceptEvent .house e u else { u with host := { u.host with evdrop := satInc u.host.evdrop } }

theorem exec_eventHandover (s : State) : exec .eventHandover s = .next (handover s) := rfl

theorem handover_of_empty {s : State} (h : s.host.evFifo = []) : handover s = s := by simp only [handover, h]

theorem handover_of_cons {s : State} {e : EvBytes} {es : List EvBytes} (h : s.host.evFifo = e :: es) :
    handover s = when (16 - es.length == s.host.lowat.toNat) (raise .evspace) (handedOver e es s) := by
  simp only [handover, h, handedOver]

theorem when_raise_keeps (b : Bool) (c : Cause) (s : State) :
    (when b (raise c) s).host.evFifo = s.host.evFifo ∧ (when b (raise c) s).host.evdrop = s.host.evdrop ∧
      (when b (raise c) s).dis = s.dis := by
  cases b
  case false => exact ⟨rfl, rfl, rfl⟩
  case true =>
    have hhost : (when true (raise c) s).host = { s.host with isr := (raise c s).host.isr } := raise_host c s
    rw [hhost]
    exact ⟨rfl, rfl, rfl⟩

section

variable {s : State} {e : EvBytes} {es : List EvBytes} (h : s.host.evFifo = e :: es)

include h

theorem handover_dropped (hoff : pdOn s 12 = false) :
    (handover s).host.evFifo = es ∧ (handover s).host.evdrop = satInc s.host.evdrop ∧ (handover s).dis = s.dis := by
  obtain ⟨hfifo, hdrop, hdis⟩ := when_raise_keeps (16 - es.length == s.host.lowat.toNat) .evspace (handedOver e es s)
  rw [handover_of_cons h, hfifo, hdrop, hdis, handedOver, if_neg (by simp [hoff])]
  exact ⟨rfl, rfl, rfl⟩

theorem handover_accepted (hon : pdOn s 12 = true) :
    (handover s).host.evFifo = es ∧ (handover s).host.evdrop = s.host.evdrop ∧
      (handover s).dis = (acceptEvent .house e { s with host := { s.host with evFifo := es } }).dis := by
  obtain ⟨hfifo, hdrop, hdis⟩ := when_raise_keeps (16 - es.length == s.host.lowat.toNat) .evspace (handedOver e es s)
  rw [handover_of_cons h, hfifo, hdrop, hdis, handedOver, if_pos hon, acceptEvent_host]
  exact ⟨rfl, rfl, rfl⟩

/-- EVSPACE is raised when FREE rises to LOWAT. -/
theorem handover_raises_evspace (hspace : 16 - es.length = s.host.lowat.toNat) : raised .evspace (handover s) = true := by
  rw [handover_of_cons h, hspace, beq_self_eq_true]
  exact raised_raise .evspace _

end

/-- Settles O33: a served write of HB_EVDATA is `postHalf`, one of HB_DBK rings (`hostWrite_doorbell`), and a hand-over drops
the event or gives it to dispatch (`handover_dropped`, `handover_accepted`). -/
theorem postFifoAndDoorbells : Obligations.PostFifoAndDoorbells := by
  refine ⟨fun d s h => ?post, fun s h => ?clear, fun s hempty => ?empty,
    fun e es s hfifo => ⟨fun hoff => ?dropped, fun hon => ?accepted, fun hspace => ?space⟩, fun m s h => ?ring⟩
  case post =>
    refine gives_of_hostPut h 0x20 d rfl (hostWrite_evdata d _) fun o =>
      ⟨?_, fun hstage => ?_, fun hstage => ⟨?_, fun hfifo => ?_, fun hfifo => ?_⟩⟩
    · exact congrArg (fun x => ((lateTime s).setHost x).setOwl o) (postHalf_frame d (lateTime s).host)
    · simp [postHalf_stages hstage]
    · obtain hfifo | hfifo := Nat.lt_or_ge (lateTime s).host.evFifo.length 16
      · simp [postHalf_posts hstage hfifo]
      · simp [postHalf_drops hstage hfifo]
    · simp [postHalf_posts hstage hfifo]
    · simp [postHalf_drops hstage hfifo]
  case clear =>
    refine ⟨_, exec_eventStageClear s, ?_⟩
    rw [hostRun_of_served h, owlSees_frame]
    rfl
  case empty => rw [exec_eventHandover, handover_of_empty hempty]
  case dropped => exact ⟨_, exec_eventHandover s, handover_dropped hfifo hoff⟩
  case accepted => exact ⟨_, exec_eventHandover s, handover_accepted hfifo hon⟩
  case space => exact ⟨_, exec_eventHandover s, handover_raises_evspace hfifo hspace⟩
  case ring => exact gives_of_hostPut h 0x24 (m.setWidth 16) rfl (hostWrite_doorbell m _) fun o => rfl

end Sys2Proof.Machine

/-! SUPPORT. The owl: kicks, its configuration and its expiries (R135-R139). -/

namespace Sys2Proof.Machine

/-! ## What the owl holds after a kick and a write of HB_OWLCFG -/

theorem Owl.toNat_full (o : Owl) : o.full.toNat = fld o.cfg 0 7 * 64 := toNat_owlPeriod o.cfg

theorem Owl.kick_count (o : Owl) : o.kick.count.toNat = if o.on then fld o.cfg 0 7 * 64 else o.count.toNat := by
  rw [← o.toNat_full]
  exact apply_ite BitVec.toNat ..

/-- The owl after an access that is no key write: kicked, or without the chance to write HB_OWLCFG (R135, R139). -/
def Owl.seen (o : Owl) (kicks : Bool) : Owl := if kicks then o.kick else { o with lastKick := false }

theorem Owl.seen_cfg (o : Owl) (kicks : Bool) : (o.seen kicks).cfg = o.cfg := by
  cases kicks <;> rfl

/-- A count that is full, or zero with EN = 0, is the same after a kick. -/
theorem Owl.seen_count {o : Owl} (h : o.count = if o.on then o.full else 0) (kicks : Bool) :
    (o.seen kicks).count = o.count := by
  cases kicks
  case false => rfl
  case true => cases hon : o.on <;> simp [Owl.seen, Owl.kick, hon, h]

theorem Owl.writeCfg_locked {o : Owl} (hon : o.on = true) (hkick : o.lastKick = false) (v : Half) : o.writeCfg v = o := by
  simp [Owl.writeCfg, hon, hkick]

/-- A write of HB_OWLCFG that is not locked stores its fields, and the count starts or is zero (R139). -/
theorem Owl.writeCfg_open {o : Owl} (h : o.on = false ∨ o.lastKick = true) (v : Half) :
    (o.writeCfg v).cfg = applyWrite owlcfgFields o.cfg v ∧
      (o.writeCfg v).count = if (o.writeCfg v).on then (o.writeCfg v).full else 0 := by
  have hopen : ¬(o.on && !o.lastKick) = true := by obtain h | h := h <;> simp [h]
  rw [Owl.writeCfg, if_neg hopen]
  exact ⟨rfl, rfl⟩

/-! ## What the owl sees of an access -/

/-- The owl sees any access but a key write: with ANY = 1 it is a kick, a window data access only when it ends. -/
theorem owlSees_of_notKey {a : HostAccess} (h : isKickWrite a = false) (o : Owl) (s : State) :
    owlSees o a s = s.setOwl (s.owl.seen (o.on && bit o.cfg 12 && !isDataAccess a)) := by
  rw [owlSees, if_neg (by simp [h])]
  unfold Owl.seen
  split <;> rfl

theorem owlSees_of_plain {a : HostAccess} (hkey : isKickWrite a = false) (hdata : isDataAccess a = false) (o : Owl)
    (s : State) : owlSees o a s = s.setOwl (s.owl.seen (o.on && bit o.cfg 12)) := by
  rw [owlSees_of_notKey hkey, hdata, Bool.not_false, Bool.and_true]

section

variable {s : State} (hpor : s.mode.inPor = false) (hroost : (lateTime s).mode.code ≠ .roost)
  (hdormant : (lateTime s).mode.code ≠ .dormant)

include hpor hroost hdormant

/-- An access at a PD0 offset outside DORMANT and ROOST has its effect, and the owl sees it, whether or not the AON answers. -/
theorem hostRun_pd0 {a : HostAccess} (ha : 2 ≤ accessIdx a ∧ accessIdx a < 16) (f : State → State) :
    hostRun a f s = owlSees (lateTime s).owl a (f (lateTime s)) := by
  simp [hostRun, aonServe, hpor, hroost, hdormant, ha]

theorem exec_owlKick_key (v : Half) :
    exec (.owlKick (.key v)) s = .next ((lateTime s).setOwl ((lateTime s).owl.writeKick v)) :=
  congrArg Host.Outcome.next (hostRun_pd0 hpor hroost hdormant (a := .write 13 v) (by simp [accessIdx]) _)

theorem exec_owlKick_access :
    exec (.owlKick .access) s =
      .next ((lateTime s).setOwl
        ((lateTime s).owl.seen ((lateTime s).owl.on && bit (lateTime s).owl.cfg 12))) :=
  congrArg Host.Outcome.next
    ((hostRun_pd0 hpor hroost hdormant (a := .read 15) (by simp [accessIdx]) id).trans (owlSees_of_plain rfl rfl _ _))

theorem exec_owlConfig (v : Half) :
    exec (.owlConfig v) s =
      .next ((lateTime s).setOwl
        (((lateTime s).owl.writeCfg v).seen ((lateTime s).owl.on && bit (lateTime s).owl.cfg 12))) :=
  congrArg Host.Outcome.next
    ((hostRun_pd0 hpor hroost hdormant (a := .write 12 v) (by simp [accessIdx]) _).trans (owlSees_of_plain rfl rfl _ _))

end

/-! ## Reads as kicks -/

theorem dataLoRead_owl (w : WIdx) (s : State) : (dataLoRead w s).owl = s.owl := by
  unfold dataLoRead
  split <;> rfl

theorem hostReadEffect_owl (i : Nat) (s : State) : (hostReadEffect i s).owl = s.owl := by
  unfold hostReadEffect
  split
  · exact dataLoRead_owl 0 s
  split
  · exact dataLoRead_owl 1 s
  dsimp only
  split <;> rfl

theorem isDataAccess_read (off : Fin 64) : (!isDataAccess (.read off)) = (off != 0x12 && off != 0x1A) := by
  revert off
  decide

/-! ## Expiries (R136, R137, Table 5.5) -/

/-- What the expiries that reset nothing leave: the owl `o`, OWL raised, and all else beside the causes as it was. -/
def ExpiryLeaves (s t : State) (o : Owl) : Prop :=
  t.owl = o ∧ raised .owl t = true ∧ t = { s with owl := t.owl, host := t.host }

theorem raise_owl_expiryLeaves (s : State) (o o' : Owl) : ExpiryLeaves s ((raise .owl (s.setOwl o)).setOwl o') o' := by
  refine ⟨rfl, raised_raise .owl (s.setOwl o), ?_⟩
  rw [raise_of_unlogged rfl rfl]
  rfl

theorem raise_expired_cfg (hrdy : Bool) (s : State) :
    (raise .owl { s with owl := s.owl.expired hrdy }).owl.cfg = s.owl.cfg := rfl

theorem raise_expired_strike (hrdy : Bool) (s : State) :
    (raise .owl { s with owl := s.owl.expired hrdy }).owl.strike = s.owl.strike := rfl

/-- ACT = 0: the flags and the count alone. -/
theorem owlExpire_flags (hrdy : Bool) {s : State} (h : fld s.owl.cfg 13 2 = 0) :
    ExpiryLeaves s (owlExpire hrdy s) (s.owl.expired hrdy) := by
  have hexpire : owlExpire hrdy s = (raise .owl (s.setOwl (s.owl.expired hrdy))).setOwl (s.owl.expired hrdy) := by
    simp only [owlExpire, raise_expired_cfg, h]
    rfl
  exact hexpire ▸ raise_owl_expiryLeaves s _ _

/-- ACT = 1. -/
theorem owlExpire_hoods (hrdy : Bool) {s : State} (h : fld s.owl.cfg 13 2 = 1) :
    ExpiryLeaves s (owlExpire hrdy s) { s.owl.expired hrdy with hooded := true } := by
  have hexpire : owlExpire hrdy s =
      (raise .owl (s.setOwl (s.owl.expired hrdy))).setOwl { s.owl.expired hrdy with hooded := true } := by
    simp only [owlExpire, raise_expired_cfg, h]
    rfl
  exact hexpire ▸ raise_owl_expiryLeaves s _ _

/-- ACT = 3 at the first expiry since a kick. -/
theorem owlExpire_strikes (hrdy : Bool) {s : State} (h : fld s.owl.cfg 13 2 = 3) (hstrike : s.owl.strike = false) :
    ExpiryLeaves s (owlExpire hrdy s) { s.owl.expired hrdy with hooded := true, strike := true } := by
  have hexpire : owlExpire hrdy s =
      (raise .owl (s.setOwl (s.owl.expired hrdy))).setOwl
        { s.owl.expired hrdy with hooded := true, strike := true } := by
    simp only [owlExpire, raise_expired_cfg, raise_expired_strike, h, hstrike]
    rfl
  exact hexpire ▸ raise_owl_expiryLeaves s _ _

theorem exec_owlHrdyExpiry (s : State) :
    exec .owlHrdyExpiry s =
      .next (if bit s.owl.cfg 11 && s.host.win.any (·.acc.isSome) then owlExpire true s else s) := rfl

theorem any_win_acc_iff (s : State) : s.host.win.any (·.acc.isSome) = true ↔ ∃ w, (win s w).acc ≠ none := by
  simp only [Vector.any_eq_true, Option.isSome_iff_ne_none]
  exact ⟨fun ⟨i, hi, h⟩ => ⟨⟨i, hi⟩, h⟩, fun ⟨w, h⟩ => ⟨w.val, w.isLt, h⟩⟩

theorem exec_owlExpiry_of_runs {s : State} (h : owlRuns s = true) : exec .owlExpiry s = .next (owlExpire false s) := by
  rw [exec_owlExpiry, if_pos h]

theorem exec_owlHrdyExpiry_of_held {s : State} (hen : bit s.owl.cfg 11 = true) (hacc : ∃ w, (win s w).acc ≠ none) :
    exec .owlHrdyExpiry s = .next (owlExpire true s) := by
  rw [exec_owlHrdyExpiry, if_pos (by rw [hen, (any_win_acc_iff s).2 hacc]; rfl)]

theorem exec_owlHrdyExpiry_idle {s : State} (h : bit s.owl.cfg 11 = false ∨ ∀ w, (win s w).acc = none) :
    exec .owlHrdyExpiry s = .next s := by
  rw [exec_owlHrdyExpiry, if_neg]
  rw [Bool.and_eq_true, any_win_acc_iff]
  rintro ⟨hen, w, hw⟩
  obtain h | h := h
  · simp [h] at hen
  · exact hw (h w)

/-- An expiry that resets begins BOOT with its cause (R45, R137). -/
theorem owlExpire_boots {hrdy : Bool} {s : State}
    (h : fld s.owl.cfg 13 2 = 2 ∨ (fld s.owl.cfg 13 2 = 3 ∧ s.owl.strike = true)) :
    (owlExpire hrdy s).mode.code = .boot ∧ (owlExpire hrdy s).mode.bcause = 3 ∧
      (owlExpire hrdy s).mode.keepBoot = false := by
  rw [owlExpire_resets h]
  exact ⟨rfl, rfl, rfl⟩

/-- Settles O34: kicks and HB_OWLCFG by what the owl sees of the access (`Owl.seen`), and both expiries by ACT
(`ExpiryLeaves`, `owlExpire_boots`). -/
theorem owlKicksAndExpiries : Obligations.OwlKicksAndExpiries := by
  refine ⟨fun s hpor hroost hdormant => ⟨?key, fun v hv => ?badKey, fun hon hany => ?access, fun hoff => ?noAccess,
      fun v hon hkick => ?locked, fun v hopen => ?config⟩,
    fun off s h => ?read,
    fun s => ⟨fun hstop => ?stopped, fun hruns => ⟨fun h => ?act0, fun h => ?act1, fun h => ?reset, fun h hs => ?act3⟩⟩,
    fun s => ⟨exec_owlHrdyExpiry_idle, fun hen hacc =>
      ⟨fun h => ?hrdyAct0, fun h => ?hrdyAct1, fun h => ?hrdyReset, fun h hs => ?hrdyAct3⟩⟩⟩
  case key =>
    refine ⟨_, exec_owlKick_key hpor hroost hdormant 0x6F77, ?_⟩
    exact ⟨rfl, (lateTime s).owl.kick_count⟩
  case badKey =>
    rw [exec_owlKick_key hpor hroost hdormant, Owl.writeKick, if_neg hv]
    rfl
  case access =>
    rw [exec_owlKick_access hpor hroost hdormant, Owl.seen, if_pos (by rw [hon, hany]; rfl)]
    rfl
  case noAccess =>
    rw [exec_owlKick_access hpor hroost hdormant, Owl.seen, if_neg (by obtain h | h := hoff <;> simp [h])]
    rfl
  case locked =>
    refine ⟨_, exec_owlConfig hpor hroost hdormant v, ?_⟩
    rw [Owl.writeCfg_locked hon hkick]
    exact ⟨Owl.seen_cfg _ _, rfl⟩
  case config =>
    obtain ⟨hcfg, hcount⟩ := Owl.writeCfg_open hopen v
    refine ⟨_, exec_owlConfig hpor hroost hdormant v, (Owl.seen_cfg _ _).trans hcfg, rfl, ?_⟩
    rw [State.setOwl_owl, Owl.seen_cfg, Owl.seen_count hcount, hcount, apply_ite BitVec.toNat, Owl.toNat_full]
    rfl
  case read =>
    refine ⟨_, congrArg Host.Outcome.next (hostAccess_of_served h (.read off)), ?_⟩
    rw [owlSees_of_notKey rfl, isDataAccess_read, ← Bool.and_assoc, hostServe, hostReadEffect_owl]
    rfl
  case stopped => rw [exec_owlExpiry, if_neg (by simp [hstop])]
  case act0 => exact ⟨_, exec_owlExpiry_of_runs hruns, owlExpire_flags false h⟩
  case act1 => exact ⟨_, exec_owlExpiry_of_runs hruns, owlExpire_hoods false h⟩
  case reset => exact ⟨_, exec_owlExpiry_of_runs hruns, owlExpire_boots h⟩
  case act3 => exact ⟨_, exec_owlExpiry_of_runs hruns, owlExpire_strikes false h hs⟩
  case hrdyAct0 =>
    obtain ⟨howl, hraised, -⟩ := owlExpire_flags true h
    exact ⟨_, exec_owlHrdyExpiry_of_held hen hacc, howl, hraised⟩
  case hrdyAct1 =>
    obtain ⟨howl, hraised, -⟩ := owlExpire_hoods true h
    exact ⟨_, exec_owlHrdyExpiry_of_held hen hacc, howl, hraised⟩
  case hrdyReset =>
    obtain ⟨hcode, hcause, -⟩ := owlExpire_boots (hrdy := true) h
    exact ⟨_, exec_owlHrdyExpiry_of_held hen hacc, hcode, hcause⟩
  case hrdyAct3 =>
    obtain ⟨howl, hraised, -⟩ := owlExpire_strikes true h hs
    exact ⟨_, exec_owlHrdyExpiry_of_held hen hacc, howl, hraised⟩

end Sys2Proof.Machine

/-! SUPPORT. The moves that restore a port and the turn of a ring (R161, R163, R164), and the module sideband (R165). -/

namespace Sys2Proof.Machine

/-! ## Moves that end no turn (R161, R164) -/

/-- A port after a counted move to a state other than ISOLATED: UP and ARMED know no TRAIN defect (R160, Table 6.7). -/
def LanePort.moved (x : LanePort) (st : PortState) : LanePort :=
  { x with
    state := st, wrapcnt := satInc x.wrapcnt
    trainDef := match st with
      | .up | .armed => false
      | .wrapped | .isolated => x.trainDef }

/-- A move to another state than ISOLATED changes its own port alone, and raises WRAP. -/
theorem moveTo_moved {p : PortIdx} {st : PortState} {s : State} (hst : st ≠ .isolated) (h : (lport s p).state ≠ st) :
    PortsChange s (moveTo p st s) ∧ lport (moveTo p st s) p = (lport s p).moved st ∧
      (∀ q, q ≠ p → lport (moveTo p st s) q = lport s q) ∧ raised .wrap (moveTo p st s) = true := by
  have hmove : moveTo p st s = raiseD .wrap p.val (modPort p (·.moved st) s) := by
    rw [moveTo, if_neg h]
    cases st with
    | isolated => exact absurd rfl hst
    | wrapped => rfl
    | up | armed => simp [modPort, lport, LanePort.moved]
  rw [hmove]
  exact ⟨(modPort_change _ _ _).trans (raiseD_change _ _ _), lport_modPort_self p (·.moved st) s,
    fun q hq => lport_modPort_other hq (·.moved st) s, (raiseD_raises _ _ _).2⟩

/-! ## A port arms and comes up (R161, Table 6.7) -/

/-- An ISOLATED other port becomes WRAPPED. -/
def rejoinOther (q : PortIdx) (s : State) : State := if (lport s q).state = .isolated then moveTo q .wrapped s else s

theorem rejoinOther_spec (q : PortIdx) (s : State) :
    PortsChange s (rejoinOther q s) ∧ (∀ p, p ≠ q → lport (rejoinOther q s) p = lport s p) ∧
      ((lport s q).state ≠ .isolated → lport (rejoinOther q s) q = lport s q) ∧
      ((lport s q).state = .isolated → lport (rejoinOther q s) q = (lport s q).moved .wrapped) := by
  unfold rejoinOther
  split
  case isTrue h =>
    obtain ⟨hchange, hself, hother, -⟩ := moveTo_moved (p := q) (st := .wrapped) (s := s) nofun (by rw [h]; nofun)
    exact ⟨hchange, hother, fun hne => absurd h hne, fun _ => hself⟩
  case isFalse h => exact ⟨.refl s, fun _ _ => rfl, fun _ => rfl, fun hiso => absurd hiso h⟩

theorem exec_portArmed_clean {p : PortIdx} {s : State} (hclean : hardDefect s p = false) (halign : (lport s p).aligned = true)
    (hst : (lport s p).state.broken) :
    exec (.portArmed p) s = .next (rejoinOther (otherPort p) (moveTo p .armed s)) := by
  refine congrArg Host.Outcome.next ((if_neg (by simp [hclean, halign])).trans ?_)
  obtain hst | hst := hst <;> rw [hst] <;> rfl

theorem exec_portArmed_idle {p : PortIdx} {s : State}
    (h : hardDefect s p = true ∨ (lport s p).aligned = false ∨ (lport s p).state = .up ∨ (lport s p).state = .armed) :
    exec (.portArmed p) s = .next s := by
  refine congrArg Host.Outcome.next ?_
  obtain h | h | h | h := h
  · exact if_pos (by simp [h])
  · exact if_pos (by simp [h])
  all_goals
    rw [h]
    exact ite_self s

theorem exec_portUp (p : PortIdx) (s : State) :
    exec (.portUp p) s = .next (if (lport s p).state == .armed && !bit (lport s p).wrapcfg 1 then moveTo p .up s else s) := rfl

/-! ## The turn (R163) -/

/-- The ring that enters port `p` may turn: it cannot leave by the other port, which has broken or is being restored, `p`
receives it without a defect, and a head, which sends nothing on (R193), does not turn it. -/
abbrev mayTurn (p : PortIdx) (s : State) : Prop :=
  ((lport s (otherPort p)).state = .wrapped ∨ (lport s (otherPort p)).state = .armed) ∧
    ((lport s (otherPort p)).cause ≠ 0 ∨ hasDefect s (otherPort p) = true) ∧
    hardDefect s p = false ∧ (lport s p).state ≠ .isolated ∧ s.chn.role ≠ 1

theorem exec_turnEngage (p : PortIdx) (s : State) :
    exec (.turnEngage p) s = .next (if mayTurn p s then modPort p (fun x => { x with turned := true }) s else s) := by
  refine congrArg Host.Outcome.next (if_congr ?_ rfl rfl)
  simp [mayTurn, and_assoc]

/-- Settles O38: an armed port moves and frees the other one (`moveTo_moved`, `rejoinOther_spec`), one that comes up moves
alone, and a turn marks its port where it may engage (`mayTurn`). -/
theorem portArmsTurnsAndComesUp : Obligations.PortArmsTurnsAndComesUp := by
  intro p s
  refine ⟨fun hclean halign hst => ?arms, exec_portArmed_idle, fun hst hopen => ?up, fun h => ?noUp,
    fun hq hbreak hclean hiso hrole => ?turn, fun h => ?noTurn⟩
  case arms =>
    obtain ⟨hchange, hself, hother, hraised⟩ := moveTo_moved (p := p) (st := .armed) (s := s) nofun
      (by obtain h | h := hst <;> rw [h] <;> nofun)
    obtain ⟨hrejoin, hkeep, hstay, hfree⟩ := rejoinOther_spec (otherPort p) (moveTo p .armed s)
    have hport := (hkeep p (otherPort_ne p).symm).trans hself
    rw [hother _ (otherPort_ne p)] at hstay hfree
    exact ⟨_, exec_portArmed_clean hclean halign hst, congrArg LanePort.state hport, congrArg LanePort.wrapcnt hport,
      hrejoin.raised _ hraised, hstay, hfree, (hchange.trans hrejoin).frame⟩
  case up =>
    obtain ⟨hchange, hself, hother, hraised⟩ := moveTo_moved (p := p) (st := .up) (s := s) nofun (by rw [hst]; nofun)
    exact ⟨_, (exec_portUp p s).trans (congrArg Host.Outcome.next (if_pos (by simp [hst, hopen]))),
      congrArg LanePort.state hself, congrArg LanePort.wrapcnt hself, congrArg LanePort.trainDef hself,
      hother _ (otherPort_ne p), hraised, hchange.frame⟩
  case noUp =>
    refine (exec_portUp p s).trans (congrArg Host.Outcome.next (if_neg ?_))
    obtain h | h := h <;> simp [h]
  case turn =>
    rw [Gives, exec_turnEngage, if_pos ⟨hq, hbreak, hclean, hiso, hrole⟩]
    exact ⟨_, rfl, lport_modPort_self p (fun x => { x with turned := true }) s, lport_modPort_other (otherPort_ne p) _ s, rfl⟩
  case noTurn =>
    rw [exec_turnEngage, if_neg]
    rintro ⟨hq, hbreak, hclean, hiso, hrole⟩
    obtain ⟨hwrapped, harmed⟩ | ⟨hcause, hsound⟩ | hdefect | h | h := h
    · exact hq.elim hwrapped harmed
    · exact hbreak.elim (fun hne => hne hcause) (by simp [hsound])
    · simp [hclean] at hdefect
    · exact hiso h
    · exact hrole h

/-! ## Module sideband (R165) -/

theorem exec_msbGo (p : PortIdx) (v : Word) (s : State) :
    exec (.msbGo p v) s = .next (if pdOn s (2 + p.val) then modPort p (fun x => x.msbWrite v) s else s) := rfl

/-- A write with GO while nothing runs starts a transaction. -/
theorem LanePort.msbWrite_starts {x : LanePort} {v : Word} (hidle : x.msbBusy = false) (hgo : bit v 31 = true) :
    x.msbWrite v = { x with
      msbCmd := applyWrite msbFields x.msbCmd v, msbBusy := true, msbNack := false, msbTmo := false, msbRd := bit v 24 } :=
  if_pos (by simp [hidle, hgo])

/-- A write that starts nothing is stored (log entry 109). -/
theorem LanePort.msbWrite_stores {x : LanePort} {v : Word} (h : x.msbBusy = true ∨ bit v 31 = false) :
    x.msbWrite v = { x with msbCmd := applyWrite msbFields x.msbCmd v } :=
  if_neg (by obtain h | h := h <;> simp [h])

/-- A change of one port leaves the other port, and all else. -/
theorem modPort_only (p : PortIdx) (f : LanePort → LanePort) (s : State) :
    lport (modPort p f s) (otherPort p) = lport s (otherPort p) ∧
      modPort p f s = { s with lanes := { s.lanes with port := (modPort p f s).lanes.port } } :=
  ⟨lport_modPort_other (otherPort_ne p) f s, rfl⟩

/-- Settles O39: every row of the sideband changes its port alone (`modPort_only`), a write by whether it starts. -/
theorem sidebandTransactions : Obligations.SidebandTransactions := by
  refine fun p s => ⟨fun v hoff => ?off, fun v hon => ?go, fun nack rdata => ?done, ?timeout⟩
  case off => rw [exec_msbGo, if_neg (by simp [hoff])]
  case go =>
    have hport := lport_modPort_self p (·.msbWrite v) s
    rw [Gives, exec_msbGo, if_pos hon]
    exact ⟨_, rfl, modPort_only p _ s, fun hidle hgo => hport.trans (LanePort.msbWrite_starts hidle hgo),
      fun h => hport.trans (LanePort.msbWrite_stores h)⟩
  case done => exact ⟨_, rfl, modPort_only p _ s, lport_modPort_self p _ s⟩
  case timeout => exact ⟨_, rfl, modPort_only p _ s, lport_modPort_self p _ s⟩

end Sys2Proof.Machine

/-! SUPPORT. The chain-time servo (R183, R184): its comparisons beyond and within 1 us. -/

namespace Sys2Proof.Machine

/-- ERR of a comparison. -/
theorem servo_err (now : Quad) (target : Int) (follows : Bool) (c : Chn) :
    (servo now target follows c).err = BitVec.ofInt 32 ((now.toNat : Int) - target) := by
  unfold servo
  dsimp only
  split <;> rfl

/-- An error beyond 1 us steps CTIME and clears LOCK. -/
theorem servo_steps {now : Quad} {target : Int} (herr : 134217 < ((now.toNat : Int) - target).natAbs) (follows : Bool)
    (c : Chn) :
    (servo now target follows c).step = true ∧ (servo now target follows c).lock = false ∧
      (servo now target follows c).tick = tickOf (servo now target follows c).ctime.toNat := by
  have hfar : ¬(((now.toNat : Int) - target).natAbs ≤ 134217 ∧ follows = true) := fun h => absurd h.1 (by omega)
  rw [servo]
  dsimp only
  rw [if_neg hfar]
  exact ⟨rfl, rfl, rfl⟩

/-- The run of frames within 5 ns is full with the eighth (R184). -/
theorem lockRun_full (near : Prop) [Decidable near] (n : Nat) :
    ((if near then min (n + 1) 8 else 0) == 8) = (decide near && decide (7 ≤ n)) := by
  by_cases hnear : near
  · rw [if_pos hnear, decide_eq_true hnear, Bool.true_and, beq_eq_decide]
    exact decide_eq_decide.mpr (by omega)
  · simp [hnear]

/-- A smaller error slews, and the eighth frame in a row within 5 ns sets LOCK. -/
theorem servo_slews {now : Quad} {target : Int} (herr : ((now.toNat : Int) - target).natAbs ≤ 134217) (c : Chn) :
    (servo now target true c).step = c.step ∧ (servo now target true c).tick = c.tick ∧
      (servo now target true c).lock =
        (c.lock || (decide (((now.toNat : Int) - target).natAbs ≤ 671) && decide (7 ≤ c.lockRun))) := by
  rw [servo]
  dsimp only
  rw [if_pos ⟨herr, rfl⟩]
  exact ⟨rfl, rfl, congrArg (c.lock || ·) (lockRun_full _ _)⟩

end Sys2Proof.Machine

/-! SUPPORT. What a MUSTER entry leaves of CHN (R37, R90): it switches the mode domains only, and the rings stay heard. -/

namespace Sys2Proof.Machine

/-- What CHN has of the frames that came: the latest one of each ring, what was sent on, and that frames arrive. -/
def Chn.heard (c : Chn) : Vector (Option RingFrame) 2 × Vector (List Byte × List Byte) 2 × Bool × Bool :=
  (c.last, c.sent, c.framesNow, c.freerun)

/-- A MUSTER entry switches mode domains only (R90, Table 2.4). -/
theorem modeDomain_of_mem_entryTodo {s : State} (hcode : s.mode.code = .muster) {c : GateCmd × Fin 67}
    (hc : c ∈ entryTodo s) : modeDomain c.2.val = true := by
  simp only [entryTodo, hcode] at hc
  split at hc
  · exact absurd hc List.not_mem_nil
  · split at hc
    · obtain ⟨n, hn, rfl⟩ := List.mem_map.mp hc
      exact (Bool.and_eq_true_iff.mp (List.mem_filter.mp hn).2).1
    · exact absurd hc List.not_mem_nil

theorem beginVacate_chn (e : Nat) (s : State) : (beginVacate e s).chn = s.chn :=
  (still_eq_iff.mp (beginVacate_still e s)).2.1

/-- Only a port's ring logic that closes is lost to CHN (R107); a mode domain is none. -/
theorem startClose_down_chn {n : Fin 67} (hn : modeDomain n.val = true) (r : Requester) (s : State) :
    (startClose .down r n s).chn = s.chn := by
  obtain ⟨n, hlt⟩ := n
  simp only [modeDomain, Bool.and_eq_true, decide_eq_true_eq] at hn
  unfold startClose
  dsimp only
  split
  · split
    · rfl
    · exact beginVacate_chn _ _
  · obtain rfl : n = 45 := by omega
    rfl

theorem gateOpens_chn {n : Nat} (hn : n ≠ 1) (s : State) : (gateOpens n s).chn = s.chn := by
  rw [gateOpens, if_neg hn, reachOn]
  split <;> rfl

theorem gateAct_chn {c : GateCmd} (hc : c = .down ∨ c = .up) {n : Fin 67} (hn : modeDomain n.val = true) (r : Requester)
    (s : State) : (gateAct c r n s).chn = s.chn := by
  have hpd1 : n.val ≠ 1 := by rintro h; rw [h] at hn; exact absurd hn (by decide)
  unfold gateAct
  obtain rfl | rfl := hc
  · cases pdState s n <;> dsimp only
    · rfl
    · exact startClose_down_chn hn r s
    · rfl
  · cases pdState s n <;> dsimp only
    · rfl
    · rfl
    · exact gateOpens_chn hpd1 _

theorem entryLast_chn (s : State) : (entryLast s).chn = s.chn := by
  unfold entryLast
  extract_lets s1
  have h1 : s1.chn = s.chn := by
    unfold s1
    split <;> rfl
  rw [← h1]
  clear_value s1
  split
  · split <;> rfl
  · rfl
  · rfl

/-- The domains of a MUSTER entry switch without a loss to CHN, as many of them as can at once (R90). -/
theorem entryGoes_chn {s : State} (hcode : s.mode.code = .muster) : (entryGoes s).chn = s.chn := by
  unfold entryGoes
  split
  · extract_lets t
    have ht : t.chn = s.chn := by
      refine List.foldlRecOn (motive := fun u : State => u.chn = s.chn) _ _ rfl fun u hu c hc => ?_
      split
      · exact hu
      · exact (gateAct_chn (cmd_of_mem_entryTodo hc) (modeDomain_of_mem_entryTodo hcode hc) _ u).trans hu
    split
    · exact (entryLast_chn t).trans ht
    · exact ht
  · rfl

theorem redecideRef_chn (s : State) : (redecideRef s).chn = s.chn := by rw [redecideRef_frame]

theorem takeRole_heard (src : ModeSrc) (s : State) : (takeRole src s).chn.heard = s.chn.heard := by
  unfold takeRole
  split
  · unfold when
    split <;> rfl
  · split <;> rfl

/-- Whatever role the device takes in MUSTER, what it has heard stays. -/
theorem enterMuster_heard (src : ModeSrc) (s : State) : (enterMode .muster src s).chn.heard = s.chn.heard := by
  have hcode : (redecideRef (entryActions s.mode.code .muster src (atTrigger .muster src s))).mode.code = .muster := by
    have hstay := (entryActions_stay s.mode.code .muster src (atTrigger .muster src s)).1
    simp only [State.stay, Prod.mk.injEq] at hstay
    rw [redecideRef_frame]
    exact congrArg ModeCtl.code hstay.1
  have hgoes : (enterMode .muster src s).chn = (entryActions s.mode.code .muster src (atTrigger .muster src s)).chn :=
    (entryGoes_chn hcode).trans (redecideRef_chn _)
  rw [hgoes]
  exact takeRole_heard src _

/-- A re-muster is a trigger of RELAY and SHOW (Table 2.2). -/
theorem takeTrigger_remuster (s : State) : takeTrigger .remuster s =
    if s.mode.code = .relay ∨ s.mode.code = .show then enterMode .muster .ring s else s := by
  unfold takeTrigger
  cases s.mode.code <;> rfl

theorem trigger_remuster_heard (s : State) : (trigger .remuster s).chn.heard = s.chn.heard := by
  unfold trigger
  split
  · rfl
  · rw [takeTrigger_remuster]
    split
    · exact enterMuster_heard .ring s
    · rfl

theorem ringTriggers_heard (s : State) : (ringTriggers s).chn.heard = s.chn.heard := by
  unfold ringTriggers
  split
  · rfl
  · split
    · split
      · exact enterMuster_heard .device s
      · rfl
    · split
      · exact enterMuster_heard .ring s
      · rfl

end Sys2Proof.Machine

/-! SUPPORT. A received frame (R169, R172, R173, R182-R193): its hop and its tap, a valid one at a fixture, and one that
spoils its ring. -/

namespace Sys2Proof.Machine

/-! ## The hop and the tap (R156, R172, R174) -/

theorem clearFrame_ring (f : FrameRx) : (clearFrame f).ring = f.ring := by simp only [clearFrame]

/-- The state in which CHN sees a frame: it has been sent on and the tap has taken it. -/
def atChn (f : FrameRx) (s : State) : State :=
  let c := clearFrame f
  tapFrame c (hopFrame ((goodHeader s c).getD (readHeader c.half0)) c s)

theorem endTurn_frame (p : PortIdx) (s : State) : endTurn p s = { s with lanes := (endTurn p s).lanes } := by
  unfold endTurn
  split <;> rfl

theorem hopFrame_frame (h : Header) (f : FrameRx) (s : State) :
    hopFrame h f s = { s with
      chn := { s.chn with sent := (hopFrame h f s).chn.sent }, lanes := (hopFrame h f s).lanes } := by
  have hturn := endTurn_frame (ringPort f.ring) s
  unfold hopFrame
  dsimp only
  generalize endTurn (ringPort f.ring) s = u at hturn ⊢
  split <;> (rw [hturn])

theorem tapFrame_frame (f : FrameRx) (s : State) :
    tapFrame f s = { s with
      chn := { s.chn with fecNew := (tapFrame f s).chn.fecNew }, lanes := (tapFrame f s).lanes } := by
  unfold tapFrame
  dsimp only
  split <;> rfl

theorem atChn_frame (f : FrameRx) (s : State) :
    atChn f s = { s with
      chn := { s.chn with sent := (atChn f s).chn.sent, fecNew := (atChn f s).chn.fecNew }
      lanes := (atChn f s).lanes } := by
  have hhop := hopFrame_frame ((goodHeader s (clearFrame f)).getD (readHeader (clearFrame f).half0)) (clearFrame f) s
  unfold atChn
  dsimp only
  generalize hopFrame _ (clearFrame f) s = u at hhop ⊢
  have htap := tapFrame_frame (clearFrame f) u
  generalize tapFrame (clearFrame f) u = t at htap ⊢
  rw [htap, hhop]

/-- What leaves along a ring that some lane sends on. -/
theorem hopFrame_sent {f : FrameRx} {s : State} {p : PortIdx} (hp : ringPort f.ring = p) (h : Header)
    (hany : (sendsOn (endTurn p s) p 0 || sendsOn (endTurn p s) p 1) = true) :
    (hopFrame h f s).chn.sent[p] =
      (if sendsOn (endTurn p s) p 0 then hopLane (endTurn p s) p h f 0 else [],
       if sendsOn (endTurn p s) p 1 then hopLane (endTurn p s) p h f 1 else []) := by
  subst hp
  unfold hopFrame
  dsimp only
  rw [if_pos hany]
  exact Vector.getElem_set_self _

/-- On a lane that sends its ring on, the frame leaves as `hopLane` rewrites it. -/
theorem hopFrame_sends {f : FrameRx} {s : State} {p : PortIdx} (hp : ringPort f.ring = p) (h : Header) {l : Fin 2}
    (hsends : sendsOn (endTurn p s) p l = true) :
    (if l = 0 then ((hopFrame h f s).chn.sent[p]).1 else ((hopFrame h f s).chn.sent[p]).2) =
      hopLane (endTurn p s) p h f l := by
  obtain rfl | rfl : l = 0 ∨ l = 1 := by omega
  · rw [if_pos rfl, hopFrame_sent hp h (by rw [hsends, Bool.true_or]), if_pos hsends]
  · rw [if_neg (by decide), hopFrame_sent hp h (by rw [hsends, Bool.or_true]), if_pos hsends]

theorem atChn_sends {f : FrameRx} {h : Header} {s : State} (hgood : goodHeader s (clearFrame f) = some h) {l : Fin 2}
    (hsends : sendsOn (endTurn (ringPort f.ring) s) (ringPort f.ring) l = true) :
    (if l = 0 then ((atChn f s).chn.sent[ringPort f.ring]).1 else ((atChn f s).chn.sent[ringPort f.ring]).2) =
      hopLane (endTurn (ringPort f.ring) s) (ringPort f.ring) h (clearFrame f) l := by
  have hsent : (atChn f s).chn.sent = (hopFrame h (clearFrame f) s).chn.sent := by
    rw [atChn, hgood, tapFrame_frame, Option.getD_some]
  rw [hsent]
  exact hopFrame_sends (congrArg ringPort (clearFrame_ring f)) h hsends

/-- A lane of a ring that is not regenerated, at a device without an uplink cell, carries the frame with ACC rewritten. -/
theorem hopLane_forwards {s : State} {p : PortIdx} (huplink : uplinkSent s p = []) (hregen : regenerates s p = false)
    (h : Header) (f : FrameRx) (l : Fin 2) :
    hopLane s p h f l = scrambleLane (putUplink ((lport s p).lane l).rate l.val s.chn.pos.toNat []
      (hopHalf (addend s p h) (lport s p).turned (frHalf f l) ++ frRest f l)) := by
  simp [hopLane, huplink, hregen]

/-! ## A frame by its header and the role (R107, R173, R193) -/

theorem exec_frameReceived (f : FrameRx) (s : State) :
    exec (.frameReceived f) s = .next (if !chnHears s (ringPort f.ring) then atChn f s
      else match goodHeader s (clearFrame f) with
        | some h => frameAtChn (clearFrame f) h (atChn f s)
        | none => if isHead s then atChn f s else spoilFrame (clearFrame f) (atChn f s)) := rfl

theorem exec_frameReceived_unheard {f : FrameRx} {s : State} (h : chnHears s (ringPort f.ring) = false) :
    exec (.frameReceived f) s = .next (atChn f s) := by
  rw [exec_frameReceived, if_pos (by simp [h])]

theorem exec_frameReceived_bad {f : FrameRx} {s : State} (h : chnHears s (ringPort f.ring) = true)
    (hbad : goodHeader s (clearFrame f) = none) :
    exec (.frameReceived f) s = .next (if s.chn.role = 1 then atChn f s else spoilFrame (clearFrame f) (atChn f s)) := by
  rw [exec_frameReceived, if_neg (by simp [h]), hbad]
  simp only [isHead, beq_iff_eq]

theorem exec_frameReceived_good {f : FrameRx} {h : Header} {s : State} (hhears : chnHears s (ringPort f.ring) = true)
    (hgood : goodHeader s (clearFrame f) = some h) (hrole : s.chn.role ≠ 1) :
    exec (.frameReceived f) s = .next (if (adoptHead h.headuid (atChn f s)).2
      then validFrame (clearFrame f) h (adoptHead h.headuid (atChn f s)).1
      else spoilFrame (clearFrame f) (atChn f s)) := by
  have hhead : isHead (atChn f s) = false := by rw [atChn_frame]; simpa [isHead] using hrole
  rw [exec_frameReceived, if_neg (by simp [hhears]), hgood]
  simp only [frameAtChn, hhead, Bool.false_eq_true, if_false]

theorem atChn_huid (f : FrameRx) (s : State) : (atChn f s).chn.huid = s.chn.huid := by rw [atChn_frame]

/-- A frame of the elected head is valid. -/
theorem exec_frameReceived_elected {f : FrameRx} {h : Header} {s : State}
    (hhears : chnHears s (ringPort f.ring) = true) (hgood : goodHeader s (clearFrame f) = some h) (hrole : s.chn.role ≠ 1)
    (huid : h.headuid = s.chn.huid) :
    exec (.frameReceived f) s = .next (validFrame (clearFrame f) h (atChn f s)) := by
  rw [exec_frameReceived_good hhears hgood hrole, adoptHead, if_pos (huid.trans (atChn_huid f s).symm)]
  rfl

/-- A frame of a head above the elected one spoils its ring. -/
theorem exec_frameReceived_above {f : FrameRx} {h : Header} {s : State}
    (hhears : chnHears s (ringPort f.ring) = true) (hgood : goodHeader s (clearFrame f) = some h) (hrole : s.chn.role ≠ 1)
    (hany : s.chn.huid ≠ 0) (habove : s.chn.huid < h.headuid) :
    exec (.frameReceived f) s = .next (spoilFrame (clearFrame f) (atChn f s)) := by
  have hother : h.headuid ≠ (atChn f s).chn.huid := by
    rw [atChn_huid]
    exact (BitVec.ne_of_lt habove).symm
  have hlater : ¬((atChn f s).chn.huid = 0 ∨ h.headuid < (atChn f s).chn.huid) := by
    rw [atChn_huid]
    exact not_or.mpr ⟨hany, BitVec.lt_asymm habove⟩
  rw [exec_frameReceived_good hhears hgood hrole, adoptHead, if_neg hother, if_neg hlater]
  rfl

/-! ## A frame that is not valid (R173, R186, R188) -/

/-- From `s` to `t` a frame came that changes nothing of chain time: the rings' validity, the reference that follows them,
what was sent on and what the tap counts may differ. -/
def Spoilt (s t : State) : Prop :=
  t = { s with chn := t.chn, lanes := t.lanes, ckp := t.ckp, host := t.host, mgt := t.mgt, kst := t.kst } ∧
  t.chn = { s.chn with sent := t.chn.sent, fecNew := t.chn.fecNew, last := t.chn.last, frozen := t.chn.frozen,
                       tring := t.chn.tring }

theorem Spoilt.trans {s u t : State} (h : Spoilt s u) (g : Spoilt u t) : Spoilt s t := by
  obtain ⟨hframe, hchn⟩ := h
  obtain ⟨gframe, gchn⟩ := g
  exact ⟨by rw [gframe, hframe], by rw [gchn, hchn]⟩

theorem atChn_spoilt (f : FrameRx) (s : State) : Spoilt s (atChn f s) := by
  constructor <;> rw [atChn_frame]

theorem spoilFrame_spoilt (f : FrameRx) (s : State) : Spoilt s (spoilFrame f s) := by
  constructor
  · rw [spoilFrame, retime, redecideRef_frame]
  · rw [spoilFrame, retime, redecideRef_frame]
    rfl

/-! ## A valid frame at a fixture (R182-R192) -/

theorem framesReturn_heard (s : State) : (framesReturn s).chn.heard = (s.chn.last, s.chn.sent, true, false) := by
  unfold framesReturn
  split
  · rfl
  · next h => simp [Chn.heard, h]

theorem rangeFrame_heard (ctotal : BitVec 24) (c : Chn) : (rangeFrame ctotal c).heard = c.heard := by
  unfold rangeFrame
  split
  · split
    · rfl
    · dsimp only
      split <;> rfl
  · rfl

theorem servo_heard (now : Quad) (target : Int) (follows : Bool) (c : Chn) : (servo now target follows c).heard = c.heard := by
  unfold servo
  dsimp only
  split <;> rfl

theorem runServo_heard (f : FrameRx) (h : Header) (acc : Option (BitVec 24)) (follows : Bool) (s : State) :
    (runServo f h acc follows s).chn.heard = s.chn.heard := by
  cases acc with
  | none => rfl
  | some a => exact servo_heard _ _ _ _

theorem releasePosition_heard (s : State) : (releasePosition s).chn.heard = s.chn.heard := by
  unfold releasePosition
  split <;> rfl

theorem remusterCmd_heard (h : Header) (s : State) : (remusterCmd h s).chn.heard = s.chn.heard := by
  unfold remusterCmd
  split
  · exact (trigger_remuster_heard _).trans (releasePosition_heard s)
  · rfl

theorem adoptEpoch_heard (h : Header) (s : State) : (adoptEpoch h s).chn.heard = s.chn.heard := by
  unfold adoptEpoch
  split
  · exact releasePosition_heard s
  · rfl

theorem countFrame_heard (f : FrameRx) (h : Header) (acc : Option (BitVec 24)) (s : State) :
    (countFrame f h acc s).chn.heard = s.chn.heard := by
  unfold countFrame
  split
  · split
    · split <;> rfl
    · rfl
  · rfl

theorem endCmd_heard (h : Header) (s : State) : (endCmd h s).chn.heard = s.chn.heard := by
  unfold endCmd
  split
  · dsimp only
    split <;> rfl
  · rfl

/-- What a header commands of a fixture (R191, R192), and the modes it brings (Table 2.2), leave what was heard. -/
theorem headerCommands_heard (f : FrameRx) (h : Header) (acc : Option (BitVec 24)) (s : State) :
    (ringTriggers (redecideRef (endCmd h (countFrame f h acc (adoptEpoch h (remusterCmd h s)))))).chn.heard =
      s.chn.heard := by
  rw [ringTriggers_heard, redecideRef_chn, endCmd_heard, countFrame_heard, adoptEpoch_heard, remusterCmd_heard]

/-- A valid frame ends FREERUN and is the latest of its ring; what was sent on stays. -/
theorem validFrame_heard (f : FrameRx) (h : Header) (s : State) :
    (validFrame f h s).chn.heard =
      ((s.chn.arrive f.ring.toNat (ringFrame f h (usableAcc f))).last, s.chn.sent, true, false) := by
  have hreturn := framesReturn_heard s
  simp only [Chn.heard, Prod.mk.injEq] at hreturn
  obtain ⟨hlast, hsent, hnow, hfree⟩ := hreturn
  have hi : (if f.ring then 1 else 0) = f.ring.toNat := by cases f.ring <;> rfl
  unfold validFrame
  extract_lets i acc prev was s1 c0 c1 c s2 s3
  have hc : c.heard = ((s.chn.arrive i (ringFrame f h acc)).last, s.chn.sent, true, false) :=
    (rangeFrame_heard _ _).trans (by simp [Chn.heard, Chn.arrive, hlast, hsent, hnow, hfree, c0, s1])
  have hservo : s3.chn.heard = c.heard := by
    unfold s3
    split
    · exact runServo_heard _ _ _ _ s2
    · rfl
  rw [headerCommands_heard, hservo, hc]
  simp only [i, hi, acc]

theorem vget_arrive_self (ring : Bool) (r : RingFrame) (c : Chn) : vget (c.arrive ring.toNat r).last ring.toNat none = some r := by
  cases ring <;> simp [Chn.arrive, vget]

/-- Settles O41: a frame is sent on and tapped (`atChn_frame`); one that is not valid is `spoilFrame` at most, a valid one
changes what was heard as `validFrame_heard` says; and the servo by the size of the error. -/
theorem framesReachChainTime : Obligations.FramesReachChainTime := by
  refine ⟨fun f s hbad => ?bad, fun f h s hgood hhears hrole => ⟨fun hany habove => ?above, fun huid => ?valid,
    fun huid l hsends huplink hregen => ?forwards⟩, fun now target c =>
    ⟨servo_err now target true c, fun herr => servo_steps herr true c, fun herr => servo_slews herr c⟩⟩
  case bad =>
    have hkept : (atChn f s).chn.last = s.chn.last ∧ (atChn f s).ckp = s.ckp := by
      constructor <;> rw [atChn_frame]
    cases hhears : chnHears s (ringPort f.ring)
    case false => exact ⟨_, exec_frameReceived_unheard hhears, atChn_spoilt f s, fun _ => hkept⟩
    case true =>
      have hnone := hbad.resolve_right (by simp [hhears])
      refine ⟨_, exec_frameReceived_bad hhears hnone, ?_⟩
      split
      · exact ⟨atChn_spoilt f s, fun _ => hkept⟩
      · next hrole =>
        exact ⟨(atChn_spoilt f s).trans (spoilFrame_spoilt _ _), fun h => absurd (h.resolve_left (by simp)) hrole⟩
  case above =>
    exact ⟨_, exec_frameReceived_above hhears hgood hrole hany habove,
      (atChn_spoilt f s).trans (spoilFrame_spoilt _ _)⟩
  case valid =>
    have hheard := validFrame_heard (clearFrame f) h (atChn f s)
    simp only [Chn.heard, Prod.mk.injEq] at hheard
    obtain ⟨hlast, -, hnow, hfree⟩ := hheard
    refine ⟨_, exec_frameReceived_elected hhears hgood hrole huid, hnow, hfree, ?_⟩
    rw [hlast, clearFrame_ring]
    exact vget_arrive_self f.ring _ _
  case forwards =>
    have hheard := validFrame_heard (clearFrame f) h (atChn f s)
    simp only [Chn.heard, Prod.mk.injEq] at hheard
    obtain ⟨-, hsent, -⟩ := hheard
    refine ⟨_, exec_frameReceived_elected hhears hgood hrole huid, ?_⟩
    rw [← hopLane_forwards huplink hregen]
    dsimp only
    rw [hsent]
    exact atChn_sends hgood hsends

end Sys2Proof.Machine

/-! SUPPORT. Sessions and voices by index (R197, R212, R322): a change of one leaves the others alone. -/

namespace Sys2Proof.Machine

theorem vget_map {α β : Type} {n : Nat} (v : Vector α n) (f : α → β) {i : Nat} (a : α) (b : β) (h : i < n) :
    vget (v.map f) i b = f (vget v i a) := by
  simp [vget, h]

/-! ## One session -/

theorem sess_modSess (n : SIdx) (f : Session → Session) (s : State) (m : Nat) :
    sess (modSess n f s) m = if m = n.val then f (sess s n) else sess s m := vget_vmod _ _ _ _ _ n.isLt

@[simp] theorem sess_modSess_self (n : SIdx) (f : Session → Session) (s : State) : sess (modSess n f s) n = f (sess s n) := by
  rw [sess_modSess, if_pos rfl]

theorem sess_modSess_other {n m : SIdx} (h : m ≠ n) (f : Session → Session) (s : State) :
    sess (modSess n f s) m = sess s m := by
  rw [sess_modSess, if_neg (Fin.val_ne_of_ne h)]

theorem sess_countDrop_self (n : SIdx) (s : State) :
    sess (countDrop n s) n = { sess s n with drop := satInc (sess s n).drop } := sess_modSess_self n _ s

theorem sess_countDrop_other {n m : SIdx} (h : m ≠ n) (s : State) : sess (countDrop n s) m = sess s m :=
  sess_modSess_other h _ s

theorem sess_countOutrange_self (n : SIdx) (s : State) :
    sess (countOutrange n s) n = { sess s n with outrange := satInc (sess s n).outrange } := sess_modSess_self n _ s

/-- Activity of a session is its time (R322). -/
theorem sess_touch_self (n : SIdx) (s : State) : sess (touch n s) n = { sess s n with active := s.chn.ticks } :=
  sess_modSess_self n (fun x => { x with active := s.chn.ticks }) s

/-! ## One voice -/

theorem vox_modVoice (i : VIdx) (f : Voice → Voice) (s : State) (j : Nat) :
    vox (modVoice i f s) j = if j = i.val then f (vox s i) else vox s j := vget_vmod _ _ _ _ _ i.isLt

@[simp] theorem vox_modVoice_self (i : VIdx) (f : Voice → Voice) (s : State) : vox (modVoice i f s) i = f (vox s i) := by
  rw [vox_modVoice, if_pos rfl]

theorem vox_modVoice_other {i j : VIdx} (h : j ≠ i) (f : Voice → Voice) (s : State) :
    vox (modVoice i f s) j = vox s j := by
  rw [vox_modVoice, if_neg (Fin.val_ne_of_ne h)]

/-- A change of every voice. -/
theorem vox_of_map {s t : State} {f : Voice → Voice} (h : t.vox.voice = s.vox.voice.map f) (i : VIdx) :
    vox t i = f (vox s i) := by
  rw [vox, h]
  exact vget_map _ _ _ _ i.isLt

end Sys2Proof.Machine

/-! SUPPORT. Stream levels, the activity timeout, the missing-frame stages and the slew limiter (R201, R317-R327). -/

namespace Sys2Proof.Machine

/-! ## A write of MRG_LVL (R201, R317) -/

theorem exec_streamLevelWrite (r : Requester) (v : Word) (s : State) :
    exec (.streamLevelWrite r v) s = .next (if pdOn s 58 then writeLevel r v s else s) := rfl

theorem sess_touch_cur (n : SIdx) (s : State) : (sess (touch n s) n).cur = (sess s n).cur := by rw [sess_touch_self]

section
variable {r : Requester} {v : Word} {s : State}

theorem writeLevel_of_free (h : (sess s (levelSession s r)).cur.state = .free) :
    writeLevel r v s = countDrop (levelSession s r) (touch (levelSession s r) s) := by
  simp [writeLevel, acceptLevel, sess_touch_cur, h]

theorem writeLevel_of_outside (hstate : (sess s (levelSession s r)).cur.state ≠ .free)
    (hrange : inRanges (sess s (levelSession s r)).cur.ranges (fld v 16 16) = false) :
    writeLevel r v s = countOutrange (levelSession s r) (touch (levelSession s r) s) := by
  simp [writeLevel, acceptLevel, sess_touch_cur, hstate, hrange]

theorem pdOn_touch (n m : Nat) (s : State) : pdOn (touch n s) m = pdOn s m := rfl

/-- A level that is taken waits for the next boundary (R317). -/
theorem writeLevel_of_inside (hpd : pdOn s 58 = true) (hstate : (sess s (levelSession s r)).cur.state ≠ .free)
    (hrange : inRanges (sess s (levelSession s r)).cur.ranges (fld v 16 16) = true) :
    writeLevel r v s = touch (levelSession s r) { touch (levelSession s r) s with mrg :=
      { (touch (levelSession s r) s).mrg with wait := s.mrg.wait ++
        [⟨levelSession s r, BitVec.ofNat 16 (fld v 16 16), BitVec.ofNat 16 (fld v 0 16), none, 0, false⟩] } } := by
  simp only [writeLevel, acceptLevel, sess_touch_cur, pdOn_touch, hstate, hrange, hpd, if_false, if_true, Bool.not_true,
    Bool.false_eq_true]
  rfl

end

/-- The session's bit of ATO clears with its activity (R322). -/
theorem bit_touch_ato (n : SIdx) (s : State) : bit (touch n s).mrg.ato n = false := by
  rw [touch, bit_setBit _ _ _ _ n.isLt, if_pos rfl]

/-! ## The activity timeout (R322) -/

theorem exec_activityTimeout (n : SIdx) (s : State) :
    exec (.activityTimeout n) s = .next (if (sess s n).cur.acttmo != 0 then timeOut n s else s) := rfl

theorem bit_timeOut_ato (n : SIdx) (s : State) : bit (timeOut n s).mrg.ato n = true := by
  rw [timeOut, bit_setBit _ _ _ _ n.isLt, if_pos rfl]

theorem mem_timeOut_lvls {n : SIdx} {s : State} {l : StreamLvl} :
    l ∈ (timeOut n s).mrg.lvls ↔ l ∈ s.mrg.lvls ∧ l.sess ≠ n := by
  simp [timeOut, List.mem_filter, Fin.ext_iff]

/-! ## The missing-frame stages (R324) -/

theorem exec_missHoldExpiry_idle {s : State} (h : s.mrg.mhold = false) : exec .missHoldExpiry s = .next s := by
  change Host.Outcome.next (s.setMrg (if s.mrg.mhold then _ else s.mrg)) = _
  simp [h, State.setMrg]

theorem exec_missHoldExpiry_hold {s : State} (h : s.mrg.mhold = true) :
    exec .missHoldExpiry s = .next (s.setMrg { s.mrg with
      mact := true, missTick := min s.mrg.missTick ((s.chn.ticks : Int) - longestHold s.epoch) }) := by
  change Host.Outcome.next (s.setMrg (if s.mrg.mhold then _ else s.mrg)) = _
  rw [if_pos h]

theorem exec_missFadeEnd_idle {s : State} (h : s.mrg.mhold = false ∨ s.mrg.mact = false) :
    exec .missFadeEnd s = .next s := by
  change Host.Outcome.next (s.setMrg (if s.mrg.mhold && s.mrg.mact then _ else s.mrg)) = _
  rw [if_neg (by rcases h with h | h <;> simp [h])]
  rfl

theorem exec_missFadeEnd_fade {s : State} (hhold : s.mrg.mhold = true) (hact : s.mrg.mact = true) :
    exec .missFadeEnd s = .next (s.setMrg { s.mrg with
      missTick := min s.mrg.missTick
        ((s.chn.ticks : Int) - longestHold s.epoch - (fld s.mrg.cfg 0 8 * 4800 : Nat)) }) := by
  change Host.Outcome.next (s.setMrg (if s.mrg.mhold && s.mrg.mact then _ else s.mrg)) = _
  rw [if_pos (by simp [hhold, hact])]

/-! ## The slew limiter (R327) -/

/-- A tick of the limiter goes towards the input, by RATE x 256 at most. -/
theorem slewTo_bounded {rate : Nat} (hrate : 0 < rate) (prev x : Nat) :
    slewTo rate prev x ≤ prev + rate * 256 ∧ prev ≤ slewTo rate prev x + rate * 256 ∧
      (prev ≤ x → prev ≤ slewTo rate prev x ∧ slewTo rate prev x ≤ x) := by
  rw [slewTo, if_neg (by omega)]
  split
  case isTrue hrise => omega
  case isFalse hfall => omega

/-- Settles O47: a write of MRG_LVL touches its session and is then one of the three cases of `acceptLevel`; the timeout, the
stages and the limiter by their equations. -/
theorem mergeTakesLevels : Obligations.MergeTakesLevels := by
  refine ⟨fun r v s hpd => ⟨fun hfree => ?free, fun hstate hrange => ?outside, fun hstate hrange => ?inside⟩,
    fun r v s hpd => ?absent, fun n s hidle => ?never, fun n s hidle => ?timeout,
    fun s => ⟨exec_missHoldExpiry_idle, fun hhold => ?hold, exec_missFadeEnd_idle, fun hhold hact => ?fade⟩,
    fun _ => rfl, fun rate prev x => ⟨fun hrate => if_pos hrate, fun hrate => slewTo_bounded hrate prev x⟩⟩
  case free =>
    refine ⟨_, (exec_streamLevelWrite r v s).trans (congrArg _ (if_pos hpd)), ?_⟩
    rw [writeLevel_of_free hfree]
    exact ⟨by rw [sess_countDrop_self, sess_touch_self], rfl, rfl⟩
  case outside =>
    refine ⟨_, (exec_streamLevelWrite r v s).trans (congrArg _ (if_pos hpd)), ?_⟩
    rw [writeLevel_of_outside hstate hrange]
    exact ⟨by rw [sess_countOutrange_self, sess_touch_self], rfl⟩
  case inside =>
    refine ⟨_, (exec_streamLevelWrite r v s).trans (congrArg _ (if_pos hpd)), ?_⟩
    rw [writeLevel_of_inside hpd hstate hrange]
    refine ⟨?_, rfl, bit_touch_ato _ _⟩
    rw [sess_touch_self]
    exact congrArg (fun x : Session => { x with active := s.chn.ticks }) (sess_touch_self _ s)
  case absent => rw [exec_streamLevelWrite, hpd, if_neg Bool.false_ne_true]
  case never => rw [exec_activityTimeout, if_neg (by simp [hidle])]
  case timeout =>
    refine ⟨_, (exec_activityTimeout n s).trans (congrArg _ (if_pos (bne_iff_ne.mpr hidle))), bit_timeOut_ato n s,
      fun l hl => (mem_timeOut_lvls.mp hl).2, fun l hl hn => mem_timeOut_lvls.mpr ⟨hl, hn⟩, rfl⟩
  case hold =>
    refine ⟨_, exec_missHoldExpiry_hold hhold, rfl, ?_, rfl⟩
    dsimp only [State.setMrg_mrg]
    omega
  case fade =>
    refine ⟨_, exec_missFadeEnd_fade hhold hact, ?_, rfl⟩
    dsimp only [State.setMrg_mrg]
    omega

end Sys2Proof.Machine

/-! SUPPORT. What a launched event does (R212, R213, R218, R222-R224, R255-R260): a STRIKE reads its record and is handed to the
allocator, which gives it a voice, a victim or nothing; KILL and KILLALL act voice by voice; a prefetch completes. -/

namespace Sys2Proof.Machine

/-! ## Reads of records -/

/-- What a read of memory leaves alone of dispatch and the allocator. -/
def State.played (s : State) : Dis × Vox × Gate × Epoch := (s.dis, s.vox, s.gate, s.epoch)

theorem played_eq_iff {s t : State} :
    t.played = s.played ↔ t.dis = s.dis ∧ t.vox = s.vox ∧ t.gate = s.gate ∧ t.epoch = s.epoch := by
  simp [State.played]

theorem memReadEffect_played (src : BitVec 4) (a : Nat) (s : State) : (memReadEffect src a s).played = s.played := by
  unfold memReadEffect
  split
  · rfl
  · dsimp only
    split
    · rfl
    · rfl
    · unfold when
      split <;> rfl
    · rfl

theorem readWordsEffect_played (src : BitVec 4) (a n : Nat) (s : State) :
    (readWordsEffect src a n s).played = s.played := by
  induction n generalizing a s with
  | zero => rfl
  | succ n ih => exact (ih (a + 8) _).trans (memReadEffect_played src a s)

theorem readRecordEffect_played (a : Nat) (s : State) : (readRecordEffect a s).played = s.played := by
  unfold readRecordEffect
  split
  · rfl
  · split
    · exact readWordsEffect_played _ _ _ s
    · rfl

theorem PatchRead.advanceEffect_played (k : Nat) (r : PatchRead) (s : State) : (r.advanceEffect k s).played = s.played := by
  unfold PatchRead.advanceEffect
  split
  · exact readWordsEffect_played _ _ _ s
  · rfl

/-! ## The allocator's view of the state (R253-R257) -/

/-- An allocation rests on the voices, the domains, the table sets and the precedence of the sessions. -/
theorem allocate_congr {s u : State} (hvox : u.vox = s.vox) (hgate : u.gate = s.gate) (hepoch : u.epoch = s.epoch)
    (hprec : precOf u = precOf s) (n : Nat) : allocate u n = allocate s n := by
  have hvoice : vox u = vox s := by
    funext i
    rw [vox, vox, hvox]
  have hon : pdOn u = pdOn s := by
    funext d
    rw [pdOn, pdOn, hgate]
  have hfree : freeVoice u = freeVoice s := by
    funext i
    simp only [freeVoice, reserved, hvoice, hon, hgate]
  have hcandidate (own : Bool) : candidate u n own = candidate s n own := by
    funext i
    simp only [candidate, policyOf, xstealOf, hvoice, hon, hprec, hvox, hepoch]
  have hkey : victimKey u n = victimKey s n := by
    funext i
    simp only [victimKey, policyOf, hvoice, hprec, hepoch]
  have hvictim (own : Bool) : victim u n own = victim s n own := by simp only [victim, hcandidate, hkey]
  have husable : usableVoice u n = usableVoice s n := by simp only [usableVoice, hfree, hepoch]
  have hnfree : nfree u = nfree s := by rw [nfree, nfree, hfree]
  rw [allocate, allocate, hvictim, hvictim, husable, hnfree, hvox]

/-! ## A strike without a prefetched record (R213, R222-R224) -/

/-- The state in which such a strike is handed to the allocator: outside the ranges it has counted, and its record has been
read. -/
def strikeRead (n : SIdx) (e : EvBytes) (s : State) : State :=
  readRecordEffect (recordAddr s (evPatch e))
    (when (!windowWithin (sess s n).cur.ranges (evTbase e) (evTlast e)) (countOutrange n) s)

/-- A strike as it waits for the stoop of a voice (R258). -/
def strikePending (n : SIdx) (e : EvBytes) (play : Nat) (p : Patch) (rg : Vector (Half × Half) 4) : Pending :=
  { sess := n, ev := e, play := play, copy := p, ranges := rg }

/-- What the allocator's answer does with a strike whose record was read at its hand-over. -/
def grantVoice (t : Nat) (n : SIdx) (e : EvBytes) (play : Nat) (p : Patch) (rg : Vector (Half × Half) 4) :
    Grant → State → State
  | .use i, s =>
    let s := modVoice i (fun _ => startVoice n e play (t + 1) rg p) s
    { s with vox := { s.vox with slip := satInc s.vox.slip } }
  | .steal i, s => stealVoice (strikePending n e play p rg) t i s
  | .nothing, s => countNovoice n s

section
variable (t : Nat) (n : SIdx) (e : EvBytes) (play : Nat) {s : State}

/-- The session's count is all that a strike changes of dispatch before the allocator has it. -/
theorem strikeRead_spec (s : State) :
    (strikeRead n e s).dis =
        (if windowWithin (sess s n).cur.ranges (evTbase e) (evTlast e) then s else countOutrange n s).dis ∧
      (strikeRead n e s).vox = s.vox ∧ (strikeRead n e s).gate = s.gate ∧ (strikeRead n e s).epoch = s.epoch := by
  obtain ⟨hdis, hvox, hgate, hepoch⟩ := played_eq_iff.mp (readRecordEffect_played (recordAddr s (evPatch e))
    (when (!windowWithin (sess s n).cur.ranges (evTbase e) (evTlast e)) (countOutrange n) s))
  rw [strikeRead, hdis, hvox, hgate, hepoch]
  unfold when
  cases windowWithin (sess s n).cur.ranges (evTbase e) (evTlast e) <;> exact ⟨rfl, rfl, rfl, rfl⟩

theorem strikeRead_outrange (h : windowWithin (sess s n).cur.ranges (evTbase e) (evTlast e) = false) :
    (sess (strikeRead n e s) n).outrange = satInc (sess s n).outrange := by
  have hdis := (strikeRead_spec n e s).1
  rw [h, if_neg Bool.false_ne_true] at hdis
  rw [sess, hdis]
  exact congrArg Session.outrange (sess_countOutrange_self n s)

theorem sess_countOutrange_cur_drop (s : State) (m : Nat) :
    (sess (countOutrange n s) m).cur = (sess s m).cur ∧ (sess (countOutrange n s) m).drop = (sess s m).drop := by
  rw [countOutrange, sess_modSess]
  split
  · next h => rw [h]; exact ⟨rfl, rfl⟩
  · exact ⟨rfl, rfl⟩

theorem sess_strikeRead_cur_drop (m : Nat) :
    (sess (strikeRead n e s) m).cur = (sess s m).cur ∧ (sess (strikeRead n e s) m).drop = (sess s m).drop := by
  have hdis := (strikeRead_spec n e s).1
  rw [sess, hdis]
  split
  · exact ⟨rfl, rfl⟩
  · exact sess_countOutrange_cur_drop n s m

theorem allocate_strikeRead (m : Nat) : allocate (strikeRead n e s) m = allocate s m := by
  obtain ⟨-, hvox, hgate, hepoch⟩ := strikeRead_spec n e s
  refine allocate_congr hvox hgate hepoch ?_ m
  funext k
  rw [precOf, (sess_strikeRead_cur_drop n e k).1, precOf]

theorem when_true (f : State → State) (s : State) : when true f s = f s := if_pos rfl

/-- The count outside the ranges moves no record. -/
theorem readRecord_when (b : Bool) (m a : Nat) (s : State) :
    readRecord (when b (countOutrange m) s) a = readRecord s a ∧
      recordAddr (when b (countOutrange m) s) = recordAddr s := by
  cases b <;> exact ⟨rfl, rfl⟩

/-- A strike without a prefetched record is decided by its record and the allocator, in the state of `strikeRead`. That `copy`
is not written as `none` keeps the address of the record out of the kernel's reductions. -/
theorem strike_unfetched {copy : Option Patch} (hcopy : copy = none) (s : State) :
    (readRecord s (recordAddr s (evPatch e)) = none → strike t n e play copy s = countDrop n (strikeRead n e s)) ∧
      ∀ p, readRecord s (recordAddr s (evPatch e)) = some p → strike t n e play copy s =
        grantVoice t n e play p (sess s n).cur.ranges (allocate s n) (strikeRead n e s) := by
  obtain ⟨hread, haddr⟩ := readRecord_when (!windowWithin (sess s n).cur.ranges (evTbase e) (evTlast e)) n
    (recordAddr s (evPatch e)) s
  rw [← allocate_strikeRead n e n, strike.eq_def, strikeRead]
  extract_lets rg s1 a rec_ s2
  have ha : a = recordAddr s (evPatch e) := congrFun haddr _
  rw [← ha] at hread ⊢
  clear_value a
  have hrec : rec_ = readRecord s a := by
    simp only [rec_, hcopy]
    exact hread
  have hs2 : s2 = readRecordEffect a s1 := by
    simp only [s2, hcopy, Option.isNone_none, when_true]
  rw [← hrec, ← hs2]
  clear_value rec_ s2
  subst hcopy
  constructor
  · rintro rfl
    rfl
  · rintro p rfl
    dsimp only
    cases allocate s2 n <;> rfl

end

end Sys2Proof.Machine

/-! SUPPORT. What the allocator's answer does (R255, R258, R259): the voice that a strike starts or steals. -/

namespace Sys2Proof.Machine

/-! ## The numbers of an event (Table 8.3) -/

theorem evByte_lt (e : EvBytes) (i : Nat) : evByte e i < 256 := (vget e i 0).isLt

theorem evHalf_lt (e : EvBytes) (i : Nat) : evHalf e i < 65536 := by
  have hhigh := evByte_lt e i
  have hlow := evByte_lt e (i + 1)
  unfold evHalf
  omega

/-- A started voice holds the event's numbers and its patch copy (R212, R225). -/
theorem startVoice_spec (n : SIdx) (e : EvBytes) (play start : Nat) (rg : Vector (Half × Half) 4) (p : Patch) :
    let v := startVoice n e play start rg p
    v.state = .sounding ∧ v.sess = n ∧ v.tag.toNat = evTag e ∧ v.vel.toNat = evVel e ∧ v.key.toNat = evKey e ∧
      v.prio.toNat = evPrio e ∧ v.patch.toNat = evPatch e ∧ v.copy = p.legal := by
  have hprio : evPrio e < 16 := Nat.mod_lt _ (by decide)
  have hpatch : evPatch e < 4096 := Nat.mod_lt _ (by decide)
  refine ⟨rfl, rfl, ?_, ?_, ?_, ?_, ?_, rfl⟩
  · exact Nat.mod_eq_of_lt (evHalf_lt e 14)
  · exact Nat.mod_eq_of_lt (evByte_lt e 11)
  · exact Nat.mod_eq_of_lt (evByte_lt e 12)
  · exact Nat.mod_eq_of_lt hprio
  · exact Nat.mod_eq_of_lt hpatch

/-! ## A stolen voice (R258, R259) -/

/-- The ticks of the stoop that a steal begins: a second one takes the length of the first. -/
def Voice.stoopLength (v : Voice) : Nat := if v.state == .stooping then v.stoopT else 6 * v.copy.num 0x0E 1

/-- A steal in a stoop discards the pending event and counts it (R259). -/
def displacePending (v : Voice) (s : State) : State :=
  match v.pend with
  | some q => if v.state == .stooping then countNovoice q.sess s else s
  | none => s

/-- A stolen voice: with no stoop the new note, else the pending event and a stoop from its present level. -/
def Voice.stolenFor (p : Pending) (t : Nat) (v : Voice) : Voice :=
  if v.stoopLength = 0 then { startVoice p.sess p.ev p.play t p.ranges p.copy with stolen := true }
  else
    let g : Lvl := if v.state == .stooping then v.stoopg else 0xFFFFFF
    { v with state := .stooping, pend := some p, stoopT := v.stoopLength, stoopK := 0, stoopG0 := g, stoopg := g
             stolen := true }

theorem displacePending_spec (v : Voice) (s : State) :
    (displacePending v s).dis = s.dis ∧ (displacePending v s).vox.voice = s.vox.voice ∧
      (displacePending v s).vox.steals = s.vox.steals := by
  unfold displacePending
  split
  · split <;> exact ⟨rfl, rfl, rfl⟩
  · exact ⟨rfl, rfl, rfl⟩

theorem stealVoice_dis (p : Pending) (t i : Nat) (s : State) : (stealVoice p t i s).dis = s.dis := by
  unfold stealVoice
  extract_lets v again s1 s2 len
  have h2 : s2.dis = s.dis := (displacePending_spec v s).1
  clear_value s2
  split <;> exact h2

section
variable (p : Pending) (t : Nat) (i : VIdx) (s : State)

theorem stealVoice_spec :
    (stealVoice p t i s).vox.steals = vmod s.vox.steals (vox s i).sess satInc ∧
      ∀ j : Nat, vox (stealVoice p t i s) j = if j = i.val then (vox s i).stolenFor p t else vox s j := by
  obtain ⟨-, hvoice, hsteals⟩ := displacePending_spec (vox s i) s
  obtain ⟨u, hu⟩ : ∃ u, countSteal (vox s i).sess (displacePending (vox s i) s) = u := ⟨_, rfl⟩
  have husteals : u.vox.steals = vmod s.vox.steals (vox s i).sess satInc := by
    rw [← hu, ← hsteals]
    rfl
  have huvox : vox u = vox s := by
    funext j
    rw [← hu]
    exact congrArg (vget · j {}) hvoice
  have hsteal : stealVoice p t i s = if (vox s i).stoopLength = 0 then
      modVoice i (fun v => { v with stolen := true }) (installPending p t i u)
    else modVoice i (fun v =>
      let g : Lvl := if (vox s i).state == .stooping then v.stoopg else 0xFFFFFF
      { v with state := .stooping, pend := some p, stoopT := (vox s i).stoopLength, stoopK := 0, stoopG0 := g, stoopg := g
               stolen := true }) u := by
    rw [← hu]
    rfl
  rw [hsteal]
  split
  · next hnone =>
    refine ⟨husteals, fun j => ?_⟩
    rw [vox_modVoice, installPending, vox_modVoice_self, vox_modVoice, huvox, Voice.stolenFor, if_pos hnone]
    split <;> rfl
  · next hsome =>
    refine ⟨husteals, fun j => ?_⟩
    rw [vox_modVoice, huvox, Voice.stolenFor, if_neg hsome]

end

/-! ## What each grant leaves (R255, R258) -/

section
variable (t : Nat) (n : SIdx) (e : EvBytes) (play : Nat) (p : Patch) (rg : Vector (Half × Half) 4) (s : State)

theorem grantVoice_dis (g : Grant) : (grantVoice t n e play p rg g s).dis = s.dis := by
  cases g with
  | use i => rfl
  | steal i => exact stealVoice_dis _ t i s
  | nothing => rfl

theorem vox_grantVoice_use (i : VIdx) (j : Nat) :
    vox (grantVoice t n e play p rg (.use i) s) j =
      if j = i.val then startVoice n e play (t + 1) rg p else vox s j :=
  vox_modVoice i (fun _ => startVoice n e play (t + 1) rg p) s j

/-- A stolen voice without a stoop has the strike's note at once. -/
theorem Voice.stolenFor_atOnce {v : Voice} (h : v.stoopLength = 0) (q : Pending) :
    (v.stolenFor q t).state = .sounding ∧ (v.stolenFor q t).sess = q.sess ∧ (v.stolenFor q t).tag.toNat = evTag q.ev := by
  obtain ⟨-, -, htag, -⟩ := startVoice_spec q.sess q.ev q.play t q.ranges q.copy
  rw [Voice.stolenFor, if_pos h]
  exact ⟨rfl, rfl, htag⟩

/-- Else it waits as its pending event. -/
theorem Voice.stolenFor_stoops {v : Voice} (h : v.stoopLength ≠ 0) (q : Pending) :
    (v.stolenFor q t).state = .stooping ∧ (v.stolenFor q t).stoopT = v.stoopLength ∧ (v.stolenFor q t).stoopK = 0 ∧
      (v.stolenFor q t).sess = v.sess ∧ (v.stolenFor q t).pend = some q := by
  rw [Voice.stolenFor, if_neg h]
  exact ⟨rfl, rfl, rfl, rfl, rfl⟩

theorem Voice.stolenFor_stolen (v : Voice) (q : Pending) : (v.stolenFor q t).stolen = true := by
  unfold Voice.stolenFor
  split <;> rfl

end

end Sys2Proof.Machine

/-! SUPPORT. RELEASE, KILL and KILLALL voice by voice (R212, R260, R323), and the end of a prefetch (R223). -/

namespace Sys2Proof.Machine

/-! ## The rows -/

theorem exec_strike (n : SIdx) (e : EvBytes) (s : State) :
    exec (.strike n e) s = .next (if pdOn s 12 then strike (nextTick s) n e s.chn.tick none s else s) := rfl

theorem exec_eventRelease (n : SIdx) (e : EvBytes) (s : State) :
    exec (.eventRelease n e) s =
      .next (if pdOn s 12 then { s with vox := releaseVoices n (evTag e) s.vox } else s) := rfl

theorem exec_kill (n : SIdx) (e : EvBytes) (s : State) :
    exec (.kill n e) s =
      .next (if pdOn s 12 then { s with vox := killVoices n (tagMatches (evTag e)) (nextTick s) s.vox } else s) := rfl

theorem exec_killall (n : SIdx) (e : EvBytes) (s : State) :
    exec (.killall n e) s = .next (if pdOn s 12 then killAll n (nextTick s) s else s) := rfl

theorem exec_patchReadDone (s : State) : exec .patchReadDone s = .next (completeOldest s) := rfl

/-! ## A kill reaches a voice -/

section
variable {n : SIdx} {hit : Nat → Bool} {t : Nat} {v : Voice}

theorem val_beq_val (a b : SIdx) : (a.val == b.val) = (a == b) := by
  simp [beq_eq_decide, Fin.ext_iff]

/-- A voice with no pending event ends when the kill names it. -/
theorem killVoice_alone (h : v.state ≠ .stooping ∨ v.pend = none) :
    killVoice n hit t v = if v.active && v.sess == n && hit v.tag.toNat then v.ended else v := by
  unfold killVoice
  rw [val_beq_val]
  by_cases hstoop : v.state = .stooping
  · simp only [hstoop, h.resolve_left (not_not_intro hstoop), if_true]
  · simp only [hstoop, if_false]

/-- In a stoop the old and the pending note are named on their own (R260). -/
theorem killVoice_stooping {p : Pending} (hstoop : v.state = .stooping) (hpend : v.pend = some p) :
    killVoice n hit t v =
      if v.active && v.sess == n && hit v.tag.toNat then
        (if p.sess == n && hit (evTag p.ev) then v.ended
         else { startVoice p.sess p.ev p.play t p.ranges p.copy with stolen := v.stolen })
      else if p.sess == n && hit (evTag p.ev) then { v with pend := none } else v := by
  unfold killVoice
  simp only [val_beq_val, hstoop, hpend, if_true]
  cases v.active && v.sess == n && hit v.tag.toNat <;> cases p.sess == n && hit (evTag p.ev) <;> rfl

end

theorem vox_release (n : SIdx) (tag : Nat) (s : State) (i : VIdx) :
    vox { s with vox := releaseVoices n tag s.vox } i =
      if (vox s i).sess = n ∧ tagMatches tag (vox s i).tag.toNat = true then (vox s i).release else vox s i := by
  rw [vox_of_map (s := s) (f := fun v => if v.sess.val == n && tagMatches tag v.tag.toNat then v.release else v) rfl i]
  simp only [val_beq_val, Bool.and_eq_true, beq_iff_eq]

theorem vox_kill (n : SIdx) (hit : Nat → Bool) (t : Nat) {s u : State} (h : u.vox = killVoices n hit t s.vox) (i : VIdx) :
    vox u i = killVoice n hit t (vox s i) :=
  vox_of_map (congrArg Vox.voice h) i

theorem sess_killAll (n : SIdx) (t : Nat) (s : State) (m : Nat) :
    sess (killAll n t s) m = if m = n.val then { sess s n with queue := [] } else sess s m :=
  sess_modSess n (fun x => { x with queue := [] }) s m

/-! ## A prefetch completes (R223) -/

/-- The event that waits for the read is still in its session's queue, and dispatch runs (R97). -/
def readWanted (r : PatchRead) (s : State) : Bool := pdOn s 12 && (sess s r.sess).queue.any (·.no == r.no)

section
variable {r : PatchRead} {s : State}

/-- Whether a read is wanted shows after its own effect on the memory. -/
theorem not_readWanted (r : PatchRead) (s : State) :
    (!pdOn (r.advanceEffect r.left s) 12 || !(sess (r.advanceEffect r.left s) r.sess).queue.any (·.no == r.no)) =
      !readWanted r s := by
  obtain ⟨hdis, -, hgate, -⟩ := played_eq_iff.mp (PatchRead.advanceEffect_played r.left r s)
  rw [readWanted, Bool.not_and]
  simp only [pdOn, sess, hdis, hgate]

theorem completeRead_unwanted (h : readWanted r s = false) : completeRead r s = r.advanceEffect r.left s := by
  simp only [completeRead, not_readWanted, h, Bool.not_false, if_true]

theorem completeRead_record (h : readWanted r s = true) {p : Patch} (hp : (r.advance r.left s).record = some p) :
    completeRead r s = modSess r.sess (fun x =>
      { x with queue := x.queue.map fun q => if q.no = r.no then { q with copy := some p } else q })
      (r.advanceEffect r.left s) := by
  simp only [completeRead, not_readWanted, h, hp, Bool.not_true, Bool.false_eq_true, if_false]

theorem completeRead_lost (h : readWanted r s = true) (hp : (r.advance r.left s).record = none) :
    completeRead r s = countDrop r.sess (modSess r.sess (fun x => { x with queue := x.queue.filter fun q => q.no != r.no })
      (r.advanceEffect r.left s)) := by
  simp only [completeRead, not_readWanted, h, hp, Bool.not_true, Bool.false_eq_true, if_false]

theorem sess_advanceEffect (r : PatchRead) (s : State) (m : Nat) : sess (r.advanceEffect r.left s) m = sess s m := by
  rw [sess, (played_eq_iff.mp (PatchRead.advanceEffect_played r.left r s)).1, sess]

/-- The reply of a read reaches its own session only. -/
theorem completeRead_frame (r : PatchRead) (s : State) :
    (completeRead r s).dis.reads = s.dis.reads ∧ (completeRead r s).vox = s.vox ∧
      ∀ m : SIdx, m ≠ r.sess → sess (completeRead r s) m = sess s m := by
  obtain ⟨hdis, hvox, -⟩ := played_eq_iff.mp (PatchRead.advanceEffect_played r.left r s)
  have hreads : (r.advanceEffect r.left s).dis.reads = s.dis.reads := congrArg Dis.reads hdis
  cases h : readWanted r s
  case false =>
    rw [completeRead_unwanted h]
    exact ⟨hreads, hvox, fun m _ => sess_advanceEffect r s m⟩
  case true =>
    cases hp : (r.advance r.left s).record with
    | some p =>
      rw [completeRead_record h hp]
      exact ⟨hreads, hvox, fun m hm => (sess_modSess_other hm _ _).trans (sess_advanceEffect r s m)⟩
    | none =>
      rw [completeRead_lost h hp]
      exact ⟨hreads, hvox, fun m hm => (sess_countDrop_other hm _).trans
        ((sess_modSess_other hm _ _).trans (sess_advanceEffect r s m))⟩

end

end Sys2Proof.Machine

/-! SUPPORT. The launched events, clause by clause (R212, R213, R218, R223, R255, R258). -/

namespace Sys2Proof.Machine

/-! ## A strike -/

/-- `u` is `s` as a strike is handed to the allocator: it has counted a window outside the ranges. -/
structure Handed (n : SIdx) (e : EvBytes) (s u : State) : Prop where
  vox : u.vox = s.vox
  drop : (sess u n).drop = (sess s n).drop
  outrange : windowWithin (sess s n).cur.ranges (evTbase e) (evTlast e) = false →
    (sess u n).outrange = satInc (sess s n).outrange

section
variable {n : SIdx} {e : EvBytes} {s : State}

theorem Handed.voice {u : State} (h : Handed n e s u) (j : Nat) : Machine.vox u j = Machine.vox s j :=
  congrArg (fun x : Vox => vget x.voice j {}) h.vox

/-- A strike drops or is granted what the allocator answers, in a state as it is handed over. -/
theorem strike_handed (t : Nat) (n : SIdx) (e : EvBytes) (play : Nat) (s : State) : ∃ u, Handed n e s u ∧
    (readRecord s (recordAddr s (evPatch e)) = none → strike t n e play none s = countDrop n u) ∧
      ∀ p, readRecord s (recordAddr s (evPatch e)) = some p →
        strike t n e play none s = grantVoice t n e play p (sess s n).cur.ranges (allocate s n) u := by
  obtain ⟨-, hvox, -⟩ := strikeRead_spec n e s
  obtain ⟨-, hdrop⟩ := sess_strikeRead_cur_drop n e (s := s) n
  exact ⟨strikeRead n e s, ⟨hvox, hdrop, strikeRead_outrange n e⟩, strike_unfetched t n e play rfl s⟩

theorem gives_strike (hpd : pdOn s 12 = true) {P : State → Prop} (h : P (strike (nextTick s) n e s.chn.tick none s)) :
    Gives (.strike n e) s P :=
  ⟨_, (exec_strike n e s).trans (congrArg _ (if_pos hpd)), h⟩

/-- Outside the ranges a strike counts, whatever becomes of it (R213). -/
theorem strike_outrange (t play : Nat) (h : windowWithin (sess s n).cur.ranges (evTbase e) (evTlast e) = false) :
    (sess (strike t n e play none s) n).outrange = satInc (sess s n).outrange := by
  obtain ⟨u, hu, hlost, hfound⟩ := strike_handed t n e play s
  rw [← hu.outrange h]
  cases hrec : readRecord s (recordAddr s (evPatch e)) with
  | none => rw [hlost hrec, sess_countDrop_self]
  | some p => rw [hfound p hrec, sess, grantVoice_dis, sess]

theorem strike_drops (t play : Nat) (h : readRecord s (recordAddr s (evPatch e)) = none) :
    (sess (strike t n e play none s) n).drop = satInc (sess s n).drop ∧ (strike t n e play none s).vox = s.vox := by
  obtain ⟨u, hu, hlost, -⟩ := strike_handed t n e play s
  rw [hlost h, sess_countDrop_self, hu.drop]
  exact ⟨rfl, hu.vox⟩

/-! ## RELEASE, KILL and KILLALL -/

/-- What a KILLALL leaves of the queues and of merge (R212, R323). -/
theorem killAll_spec (n : SIdx) (t : Nat) (s : State) :
    (sess (killAll n t s) n).queue = [] ∧ (∀ m : SIdx, m ≠ n → sess (killAll n t s) m = sess s m) ∧
      (∀ c ∈ (killAll n t s).mrg.vac, c.1 ≠ n) ∧ (killAll n t s).mrg.lvls = s.mrg.lvls ∧ (killAll n t s).mem = s.mem := by
  refine ⟨?_, fun m hm => ?_, fun c hc => ?_, rfl, rfl⟩
  · rw [sess_killAll, if_pos rfl]
  · rw [sess_killAll, if_neg (Fin.val_ne_of_ne hm)]
  · have hkept := (List.mem_filter.mp hc).2
    exact fun h => bne_iff_ne.mp hkept (congrArg Fin.val h)

/-- A KILLALL names every tag of its session. -/
theorem vox_killAll (n : SIdx) (t : Nat) (s : State) (i : VIdx) (h : (vox s i).state ≠ .stooping) :
    vox (killAll n t s) i = if (vox s i).active = true ∧ (vox s i).sess = n then (vox s i).ended else vox s i := by
  rw [vox_kill n (fun _ => true) t rfl, killVoice_alone (.inl h)]
  simp only [Bool.and_true, Bool.and_eq_true, beq_iff_eq]

/-! ## The end of a prefetch -/

theorem completeOldest_none (h : s.dis.reads = []) : completeOldest s = s := by
  simp only [completeOldest, h]

/-- The oldest read is no longer outstanding. -/
def popRead (rs : List PatchRead) (s : State) : State := { s with dis := { s.dis with reads := rs } }

theorem completeOldest_read {r : PatchRead} {rs : List PatchRead} (h : s.dis.reads = r :: rs) :
    completeOldest s = completeRead r (popRead rs s) := by
  simp only [completeOldest, h, popRead]

/-- Neither what a read delivers nor whether it is wanted rests on the list of reads. -/
theorem popRead_spec (r : PatchRead) (rs : List PatchRead) (s : State) :
    r.advance r.left (popRead rs s) = r.advance r.left s ∧ readWanted r (popRead rs s) = readWanted r s ∧
      sess (popRead rs s) = sess s :=
  ⟨rfl, rfl, rfl⟩

theorem readWanted_eq_true {r : PatchRead} :
    readWanted r s = true ↔ pdOn s 12 = true ∧ ∃ q ∈ (sess s r.sess).queue, q.no = r.no := by
  simp [readWanted]

theorem readWanted_eq_false {r : PatchRead} :
    readWanted r s = false ↔ pdOn s 12 = false ∨ ∀ q ∈ (sess s r.sess).queue, q.no ≠ r.no := by
  simp [readWanted, or_iff_not_imp_left]

end

/-- Settles O45: a strike is refused or granted in the state that it is handed over in (`strike_handed`), whose voices and
counters change as the allocator answers; the others act voice by voice, and a prefetch is `completeRead`. -/
theorem launchedEventsAct : Obligations.LaunchedEventsAct := by
  refine ⟨fun n e s hpd i hi => ?absent,
    fun n e s hpd => ⟨⟨fun hout => ?outrange, fun hrec => ?unreadable, fun p hrec => ?granted⟩, ?release, ?kill, ?killall⟩,
    fun s hreads => ?noRead, fun r rs s hreads => ?read⟩
  case absent =>
    simp only [List.mem_cons, List.not_mem_nil, or_false] at hi
    rcases hi with rfl | rfl | rfl | rfl
    · rw [exec_strike, hpd, if_neg Bool.false_ne_true]
    · rw [exec_eventRelease, hpd, if_neg Bool.false_ne_true]
    · rw [exec_kill, hpd, if_neg Bool.false_ne_true]
    · rw [exec_killall, hpd, if_neg Bool.false_ne_true]
  case outrange => exact gives_strike hpd (strike_outrange _ _ hout)
  case unreadable => exact gives_strike hpd (strike_drops _ _ hrec)
  case granted =>
    obtain ⟨u, hu, -, hfound⟩ := strike_handed (nextTick s) n e s.chn.tick s
    replace hfound := hfound p hrec
    refine ⟨fun i hgrant => gives_strike hpd ?use, fun i hgrant => gives_strike hpd ?steal,
      fun hgrant => gives_strike hpd ?nothing⟩
    case use =>
      obtain ⟨hstate, hsess, htag, hvel, hkey, hprio, hpatch, hcopy⟩ :=
        startVoice_spec n e s.chn.tick (nextTick s + 1) (sess s n).cur.ranges p
      rw [hfound, hgrant, vox_grantVoice_use, if_pos rfl]
      refine ⟨hstate, hsess, htag, hvel, hkey, hprio, hpatch, hcopy, ?_, fun j hj => ?_⟩
      · rw [← hu.vox]
        rfl
      · rw [vox_grantVoice_use, if_neg (Fin.val_ne_of_ne hj), hu.voice]
    case steal =>
      obtain ⟨hsteals, hvoice⟩ := stealVoice_spec
        (strikePending n e s.chn.tick p (sess s n).cur.ranges) (nextTick s) i u
      simp only [hu.voice, hu.vox] at hsteals hvoice
      rw [hfound, hgrant]
      dsimp only [grantVoice]
      rw [hsteals, hvoice i, if_pos rfl]
      refine ⟨?_, Voice.stolenFor_stolen _ _ _, fun j hj => ?_, fun hlen => Voice.stolenFor_atOnce _ hlen _, fun hlen => ?_⟩
      · rw [vget_vmod _ _ _ _ _ (vox s i).sess.isLt, if_pos rfl]
      · rw [hvoice j, if_neg (Fin.val_ne_of_ne hj)]
      · obtain ⟨hstate, hlength, hstart, hsess, hpend⟩ := Voice.stolenFor_stoops (nextTick s) hlen
          (strikePending n e s.chn.tick p (sess s n).cur.ranges)
        refine ⟨hstate, hlength, hstart, hsess, ?_⟩
        rw [hpend]
        simp [strikePending]
    case nothing =>
      rw [hfound, hgrant, ← hu.vox]
      refine ⟨?_, rfl⟩
      exact (vget_vmod _ _ _ _ _ n.isLt).trans (if_pos rfl)
  case release => exact ⟨_, (exec_eventRelease n e s).trans (congrArg _ (if_pos hpd)), rfl, vox_release n (evTag e) s⟩
  case kill =>
    refine ⟨_, (exec_kill n e s).trans (congrArg _ (if_pos hpd)), rfl, fun i => ⟨fun halone => ?_, fun p hstoop hpend => ?_⟩⟩
    · rw [vox_kill n (tagMatches (evTag e)) (nextTick s) rfl, killVoice_alone halone]
    · rw [vox_kill n (tagMatches (evTag e)) (nextTick s) rfl, killVoice_stooping hstoop hpend]
      rfl
  case killall =>
    obtain ⟨hqueue, hother, hvac, hlvls, hmem⟩ := killAll_spec n (nextTick s) s
    exact ⟨_, (exec_killall n e s).trans (congrArg _ (if_pos hpd)), hqueue, hother, hvac, hlvls, hmem, vox_killAll n _ s⟩
  case noRead => rw [exec_patchReadDone, completeOldest_none hreads]
  case read =>
    refine ⟨_, exec_patchReadDone s, ?_⟩
    obtain ⟨hadvance, hwanted, hsess⟩ := popRead_spec r rs s
    obtain ⟨hlist, hvox, hother⟩ := completeRead_frame r (popRead rs s)
    rw [hsess] at hother
    rw [completeOldest_read hreads]
    refine ⟨hlist, hvox, hother, fun hunwanted => ?unwanted, fun hpd hwaits => ⟨fun p hp => ?record, fun hp => ?lost⟩⟩
    case unwanted =>
      rw [completeRead_unwanted (hwanted.trans (readWanted_eq_false.mpr hunwanted)), sess_advanceEffect, hsess]
    case record =>
      rw [← hadvance] at hp
      rw [completeRead_record (hwanted.trans (readWanted_eq_true.mpr ⟨hpd, hwaits⟩)) hp, sess_modSess_self,
        sess_advanceEffect, hsess]
    case lost =>
      rw [← hadvance] at hp
      rw [completeRead_lost (hwanted.trans (readWanted_eq_true.mpr ⟨hpd, hwaits⟩)) hp, sess_countDrop_self,
        sess_modSess_self, sess_advanceEffect, hsess]

end Sys2Proof.Machine

/-! SUPPORT. Commits and the end of a migration (R262-R264): what a commit does in each case of Table 10.7, and how the
host's and an internal write come to one. -/

namespace Sys2Proof.Machine

/-! ## A commit, case by case (R262, Table 10.7) -/

theorem commit_discarded {u : State} (hcode : u.mode.code = .roost) : commit u = u := if_pos hcode

section

variable {u : State} (hcode : u.mode.code ≠ .roost)

include hcode

theorem commit_dropped (hheld : u.epoch.held = true) :
    commit u = raise .comdrop (u.setEpoch { u.epoch with commitDrop := true }) := by
  rw [commit, if_neg hcode, if_pos hheld]
  rfl

theorem commit_held (hheld : u.epoch.held = false) (hbusy : (u.epoch.mig || u.mode.busy) = true) :
    commit u = u.setEpoch { u.epoch with held := true } := by
  rw [commit, if_neg hcode, if_neg (by simp [hheld]), if_pos hbusy]
  rfl

theorem commit_accepted (hheld : u.epoch.held = false) (hfree : (u.epoch.mig || u.mode.busy) = false) :
    commit u = u.setEpoch u.epoch.accept := by
  rw [commit, if_neg hcode, if_neg (by simp [hheld]), if_neg (by simp [hfree])]
  rfl

end

/-- A cause without a PEND bit leaves the kestrels alone. -/
theorem raise_frame_of_no_pendBit {c : Cause} (h : c.pendBit = none) (s : State) :
    raise c s = { s with host := (raise c s).host, mgt := (raise c s).mgt } := by
  simp only [raise, raiseWith, h]

/-! ## What an accepted commit leaves (R263) -/

/-- Beside the two sets, an accepted commit sets SNAP and MIG and has taken no step. -/
theorem Epoch.accept_frame {e : Epoch} (hheld : e.held = false) :
    e.accept = { e with snap := true, mig := true, stepNo := none, set0 := e.accept.set0, set1 := e.accept.set1 } := by
  cases hcur : e.cur <;> simp [accept, putSet, hcur, hheld]

@[simp] theorem Epoch.accept_snap (e : Epoch) : e.accept.snap = true := rfl
@[simp] theorem Epoch.accept_mig (e : Epoch) : e.accept.mig = true := rfl
@[simp] theorem Epoch.accept_held (e : Epoch) : e.accept.held = false := rfl
@[simp] theorem Epoch.accept_cur (e : Epoch) : e.accept.cur = e.cur := by cases hcur : e.cur <;> simp [accept, putSet, hcur]
@[simp] theorem Epoch.accept_num (e : Epoch) : e.accept.num = e.num := by cases hcur : e.cur <;> simp [accept, putSet, hcur]

/-- The stage is copied into the set that CUR does not name. -/
theorem Epoch.accept_sets (e : Epoch) :
    (e.cur = false → e.accept.set1 = e.stage ∧ e.accept.set0 = e.set0) ∧
      (e.cur = true → e.accept.set0 = e.stage ∧ e.accept.set1 = e.set1) := by
  constructor <;> intro hcur <;> simp [Epoch.accept, Epoch.putSet, hcur]

/-! ## The writes that commit (R142, R262) -/

theorem exec_epochCommit (s : State) : exec .epochCommit s = .next (hostRun (.write 0x2C 1) commit s) := rfl

/-- A served write of HB_EPOCH.COMMIT leaves a commit in the state that it meets, beside the owl. -/
theorem exec_epochCommit_of_served {s : State} (h : HostServed s) :
    ∃ o, exec .epochCommit s = .next ((commit (lateTime s)).setOwl o) :=
  ⟨_, by rw [exec_epochCommit, hostRun_of_served h, owlSees_frame]⟩

/-- VOX_EPOCH with COMMIT alone is a commit: COMMIT_DROP is not cleared. -/
theorem voxWrite_commit (s : State) : voxWrite 0x10 0x80000000 s = commit s := by
  have hkeep : (s.epoch.commitDrop && !bit (0x80000000 : Word) 28) = s.epoch.commitDrop := by
    rw [show bit (0x80000000 : Word) 28 = false from by decide, Bool.not_false, Bool.and_true]
  have hwrite : voxWrite 0x10 0x80000000 s =
      commit { s with epoch := { s.epoch with commitDrop := s.epoch.commitDrop && !bit (0x80000000 : Word) 28 } } := rfl
  rw [hwrite, hkeep]

/-- VOX_EPOCH lies in no memory and not in the roost store: a word written there is written to VOX. -/
theorem mapWrite_voxEpoch (r : Requester) (src : BitVec 4) (v : Word) (s : State) :
    mapWrite r src 0x00050010 4 v false s = voxWrite 0x10 v s := by
  have hmem : memOf 0x00050010 = none := by decide
  have hroost : inRoost 0x00050010 = false := by decide
  simp [mapWrite, hmem, hroost, blockWrite, laneWord]

/-- An internal write of VOX_EPOCH.COMMIT that ends with data is a commit. -/
theorem exec_internalWrite_commit {r : Requester} {s : State} (hw : accessWaits s 0x00050010 true = false)
    (he : ending s r 0x00050010 (.write 4 0x80000000 false) = .data) :
    exec (.registerWrite (.internal r 0x00050010 0x80000000)) s =
      .next (commit (if r = .jtag then { s with free := s.free + 1 } else s)) := by
  have haddr : (0x00050010 : Word).toNat = 0x00050010 := rfl
  rw [exec_internalWrite_data (addr := 0x00050010) hw he, haddr, accessEffect_of_data he, mapWrite_voxEpoch,
    voxWrite_commit]
  split <;> rfl

/-! ## The end of a migration (R264) -/

theorem exec_epochMigrationDone (s : State) : exec .epochMigrationDone s = .next (migrationDone s) := rfl

/-- The epoch after the last step: the new set is current. -/
def Epoch.migrated (e : Epoch) : Epoch := { e with cur := !e.cur, num := e.num + 1, mig := false, stepNo := none }

/-- The migration has ended, and a waiting vacate proceeds; a held commit comes next. -/
def atMigrated (s : State) : State := leaveEpochWait (raise .epoch (s.setEpoch s.epoch.migrated))

theorem migrationDone_last {s : State} (hmig : s.epoch.mig = true) (hlast : s.epoch.stepNo = some 32) :
    migrationDone s = acceptHeld (atMigrated s) := if_pos (by simp [hmig, hlast])

theorem migrationDone_early {s : State} (h : s.epoch.mig = false ∨ s.epoch.stepNo ≠ some 32) : migrationDone s = s :=
  if_neg (by simpa [imp_iff_not_or] using h)

theorem atMigrated_spec (s : State) :
    (atMigrated s).epoch = s.epoch.migrated ∧ (atMigrated s).mode = s.mode ∧ (atMigrated s).mem = s.mem ∧
      raised .epoch (atMigrated s) = true := by
  obtain ⟨hcore, hraised⟩ := leaveEpochWait_carries (Carries.refl (raise .epoch (s.setEpoch s.epoch.migrated)))
  simp only [State.core, Prod.mk.injEq] at hcore
  obtain ⟨hmode, hmem, -, -, -, -, hepoch⟩ := hcore
  exact ⟨hepoch, hmode, hmem, hraised _ (raised_raise .epoch _)⟩

/-- With no vacate in progress the voices stand as they were. -/
theorem atMigrated_vox {s : State} (h : s.gate.vacating = none) : (atMigrated s).vox = s.vox := by
  have hgate : (raise .epoch (s.setEpoch s.epoch.migrated)).gate.vacating = none := h
  simp only [atMigrated, leaveEpochWait, hgate]
  rfl

/-- Accepting a held commit changes the epochs alone. -/
theorem acceptHeld_frame (s : State) : acceptHeld s = s.setEpoch (acceptHeld s).epoch := by
  unfold acceptHeld
  split <;> rfl

/-- With no migration running, a held commit is accepted unless a transition is in progress (R262). -/
theorem acceptHeld_epoch {s : State} (hmig : s.epoch.mig = false) :
    (acceptHeld s).epoch = if s.epoch.held && !s.mode.busy then s.epoch.accept else s.epoch := by
  simp only [acceptHeld, hmig, Bool.not_false, Bool.and_true]
  split <;> rfl

theorem acceptHeld_spec {s : State} (hmig : s.epoch.mig = false) :
    (acceptHeld s).epoch.mig = (s.epoch.held && !s.mode.busy) ∧ (acceptHeld s).epoch.cur = s.epoch.cur ∧
      (acceptHeld s).epoch.num = s.epoch.num ∧
      (s.epoch.held = true → s.mode.busy = false → (acceptHeld s).epoch.held = false ∧ (acceptHeld s).epoch.snap = true) := by
  rw [acceptHeld_epoch hmig]
  cases hgoes : s.epoch.held && !s.mode.busy
  case true => simp
  case false =>
    refine ⟨hmig, rfl, rfl, fun hheld hbusy => ?_⟩
    simp [hheld, hbusy] at hgoes

/-- Settles O35: a commit case by case (`commit_dropped`, `commit_held`, `commit_accepted`), made by the host's write or by an
internal one (`exec_internalWrite_commit`), and the end of a migration as `acceptHeld` of `atMigrated`. -/
theorem epochCommitsAndMigrations : Obligations.EpochCommitsAndMigrations := by
  unfold Obligations.EpochCommitsAndMigrations
  intro commits
  have hcommits : ∀ c s u o, (u.mode.code = .roost → exec c s = .next u) →
      exec c s = .next ((commit u).setOwl o) → commits c s u := by
    intro c s u o hroost hexec
    refine ⟨hroost, fun hcode hheld => ⟨_, hexec, ?dropped⟩, fun hcode hheld hbusy => ⟨_, hexec, ?held⟩,
      fun hcode hheld hfree => ⟨_, hexec, ?accepted⟩⟩
    case dropped =>
      rw [commit_dropped hcode hheld]
      refine ⟨rfl, raised_raise .comdrop _, ?_⟩
      exact congrArg (State.setOwl · o) (raise_frame_of_no_pendBit rfl _)
    case held => rw [commit_held hcode hheld hbusy]; rfl
    case accepted =>
      rw [commit_accepted hcode hheld hfree]
      exact ⟨rfl, Epoch.accept_frame hheld, u.epoch.accept_sets⟩
  refine ⟨fun s hserved => ?host, fun r s hw he => ?internal, fun s => rfl, fun s hearly => ?early, fun s hmig hlast => ?last⟩
  case host =>
    obtain ⟨o, hexec⟩ := exec_epochCommit_of_served hserved
    obtain ⟨-, -, hrunning⟩ := hserved
    exact hcommits _ _ _ _ (fun hroost => absurd hroost hrunning) hexec
  case internal =>
    have hexec := exec_internalWrite_commit hw he
    exact hcommits _ _ _ _ (fun hroost => by rw [hexec, commit_discarded hroost]) hexec
  case early => rw [exec_epochMigrationDone, migrationDone_early hearly]
  case last =>
    obtain ⟨hepoch, hmode, hmem, hraised⟩ := atMigrated_spec s
    obtain ⟨hmig', hcur, hnum, hnext⟩ := acceptHeld_spec (s := atMigrated s) (by rw [hepoch]; rfl)
    rw [hepoch] at hcur hnum
    rw [hepoch, hmode] at hmig' hnext
    refine ⟨_, exec_epochMigrationDone s, ?_⟩
    rw [migrationDone_last hmig hlast]
    refine ⟨hmig', hcur, hnum, ?_⟩
    rw [acceptHeld_frame]
    exact ⟨hraised, hnext, atMigrated_vox, hmem⟩

end Sys2Proof.Machine

/-! SUPPORT. Kestrel instructions of registers alone and their traps, on whatever the fetch leaves (R267, R274, R276, Table
11.3), and the arithmetic and logic of Table 11.2. -/

namespace Sys2Proof.Machine

/-! ## An instruction by what it does to its kestrel -/

theorem Kestrel.setReg_zero (c : Kestrel) (v : Word) (m : Bool) : c.setReg 0 v m = c := if_pos rfl

theorem Kestrel.reg_zero (c : Kestrel) : c.reg 0 = 0 := if_pos rfl

theorem Kestrel.ne_zero_of_bad {c : Kestrel} {r : Fin 16} (h : c.bad r = true) : r ≠ 0 := by
  rintro rfl
  exact Bool.false_ne_true h

theorem traps_of_trap {k : KIdx} {s : State} {e : Ecc} {x : Word} (he : FetchedEcc k s e) (hg : Going s k)
    (cause : BitVec 4) (info : Word) : Traps k cause info s (trap k cause info (s.fetching e x)) :=
  ⟨fun hin => trap_trapped he hg hin cause info, fun hin => trap_doubleFaulted he hin cause info⟩

section

variable {k : KIdx} {s : State} {i : KInstr} {sel : KInstr → Option (Word → State → State)} {f : Word → State → State}
  (h : Executes s k i) (hs : sel i = some f)

include h hs

/-- An instruction that changes its kestrel by `g` wrote what `g` puts into `rd` of the kestrel as it stands. -/
theorem kRun_wrote {g : Kestrel → Kestrel} {rd : Fin 16} {v : Word} {m : Bool} {pc : BitVec 14} {n : Nat}
    (hf : ∀ u, kes u k = kes s k → f (fetched s k).1 u = complete k g u)
    (hg : g (kes s k) = ((kes s k).setReg rd v m).done pc n) : Wrote k rd v m pc s (kRun k sel s) := by
  have hkes : kes (memReadEffect (kSrc k) (fetchAddr s k) s) k = kes s k := by rw [(fetch_frame h.2.2).1]; rfl
  rw [kRun_spec sel f h hs, hf _ hkes]
  have hsame : complete k g (memReadEffect (kSrc k) (fetchAddr s k) s) =
      complete k (fun c => (c.setReg rd v m).done pc n) (memReadEffect (kSrc k) (fetchAddr s k) s) :=
    congrArg (afterInstr k) (modK_congr (by rw [hkes]; exact hg))
  rw [hsame]
  exact complete_wrote h rd v m pc n

/-- An instruction that meets a trap of its own (Table 11.3). -/
theorem kRun_traps {cause : BitVec 4} {info : Word}
    (hf : ∀ u, kes u k = kes s k → f (fetched s k).1 u = trap k cause info u) : Traps k cause info s (kRun k sel s) := by
  obtain ⟨e, x, he, hrun⟩ := kRun_fetching h hs
  rw [hrun, hf (s.fetching e x) rfl]
  exact traps_of_trap he h.going.1 cause info

end

/-! ## The operations of format A (Table 11.2) -/

/-- The operations in the order of their fn codes. -/
def Alu.all : List Alu :=
  [.add, .sub, .and, .ior, .eor, .lsl, .lsr, .asr, .clt, .cltu, .mlo, .mhi, .mhiu, .min, .max]

/-- The row of an operation (Table 11.2). -/
def Alu.row (f : Alu) (k : KIdx) : Instr :=
  match f with
  | .add => .kAdd k
  | .sub => .kSub k
  | .and => .kAnd k
  | .ior => .kIor k
  | .eor => .kEor k
  | .lsl => .kLsl k
  | .lsr => .kLsr k
  | .asr => .kAsr k
  | .clt => .kClt k
  | .cltu => .kCltu k
  | .mlo => .kMlo k
  | .mhi => .kMhi k
  | .mhiu => .kMhiu k
  | .min => .kMin k
  | .max => .kMax k

theorem exec_alu_row (f : Alu) (k : KIdx) (s : State) : exec (f.row k) s = .next (kAlu f k s) := by cases f <;> rfl

theorem Alu.moves_iff {f : Alu} {rb : Fin 16} : f.moves rb = true ↔ rb = 0 ∧ (f = .add ∨ f = .ior ∨ f = .eor) := by
  simp [Alu.moves, or_assoc]

/-- A move gives its source. -/
theorem Alu.eval_zero {f : Alu} (h : f = .add ∨ f = .ior ∨ f = .eor) (a : Word) : f.eval a 0 = a := by
  obtain rfl | rfl | rfl := h
  · exact BitVec.add_zero a
  · exact BitVec.or_zero
  · exact BitVec.xor_zero

section

variable {k : KIdx} {f : Alu} {rd ra rb : Fin 16} {s : State} (h : Executes s k (.alu f rd ra rb))

include h

/-- A move keeps the marker of its source (R276). -/
theorem alu_moves (hmove : f.moves rb = true) :
    Gives (f.row k) s (Wrote k rd ((kes s k).reg ra) ((kes s k).bad ra) ((kes s k).pc + 4) s) :=
  ⟨_, exec_alu_row f k s, kRun_wrote h (if_pos rfl) (fun _ _ => if_pos hmove) rfl⟩

theorem alu_writes (hra : (kes s k).bad ra = false) (hrb : (kes s k).bad rb = false) :
    Gives (f.row k) s (Wrote k rd (f.eval ((kes s k).reg ra) ((kes s k).reg rb)) false ((kes s k).pc + 4) s) := by
  by_cases hmove : f.moves rb = true
  · obtain ⟨rfl, hf⟩ := Alu.moves_iff.mp hmove
    have hwrote := alu_moves h hmove
    rwa [hra, ← Alu.eval_zero hf ((kes s k).reg ra), ← (kes s k).reg_zero] at hwrote
  · refine ⟨_, exec_alu_row f k s, kRun_wrote h (if_pos rfl)
      (fun u hu => (if_neg hmove).trans (orTrap_of_false ?_ _ _ u)) rfl⟩
    rw [hu, hra, hrb]
    rfl

theorem alu_traps (hmove : f.moves rb ≠ true) (hbad : (kes s k).bad ra = true ∨ (kes s k).bad rb = true) :
    Gives (f.row k) s (Traps k 4 (fetched s k).1 s) := by
  refine ⟨_, exec_alu_row f k s, kRun_traps h (if_pos rfl) fun u hu => (if_neg hmove).trans ?_⟩
  exact orTrap_of_true (by rw [hu]; exact (Bool.or_eq_true _ _).mpr hbad) _ _ u

end

/-! ## The operations with a constant (Table 11.2) -/

/-- The operations with a constant, in the order of Table 11.2. -/
def AluK.all : List AluK := [.addk, .andk, .iork, .eork, .cltk, .cltuk, .lslk, .lsrk, .asrk]

/-- The row of an operation with a constant (Table 11.2). -/
def AluK.row (f : AluK) (k : KIdx) : Instr :=
  match f with
  | .addk => .kAddk k
  | .andk => .kAndk k
  | .iork => .kIork k
  | .eork => .kEork k
  | .cltk => .kCltk k
  | .cltuk => .kCltuk k
  | .lslk => .kLslk k
  | .lsrk => .kLsrk k
  | .asrk => .kAsrk k

theorem exec_aluk_row (f : AluK) (k : KIdx) (s : State) : exec (f.row k) s = .next (kAluk f k s) := by cases f <;> rfl

theorem AluK.moves_iff {f : AluK} {v : BitVec 18} : f.moves v = true ↔ v = 0 ∧ (f = .addk ∨ f = .iork ∨ f = .eork) := by
  simp [AluK.moves, or_assoc]

/-- A move gives its source. -/
theorem AluK.eval_zero {f : AluK} (h : f = .addk ∨ f = .iork ∨ f = .eork) (a : Word) : f.eval a 0 = a := by
  obtain rfl | rfl | rfl := h
  · exact BitVec.add_zero a
  · exact BitVec.or_zero
  · exact BitVec.xor_zero

section

variable {k : KIdx} {f : AluK} {rd ra : Fin 16} {v : BitVec 18} {s : State} (h : Executes s k (.aluk f rd ra v))

include h

/-- A move keeps the marker of its source (R276). -/
theorem aluk_moves (hmove : f.moves v = true) :
    Gives (f.row k) s (Wrote k rd ((kes s k).reg ra) ((kes s k).bad ra) ((kes s k).pc + 4) s) :=
  ⟨_, exec_aluk_row f k s, kRun_wrote h (if_pos rfl) (fun _ _ => if_pos hmove) rfl⟩

theorem aluk_writes (hra : (kes s k).bad ra = false) :
    Gives (f.row k) s (Wrote k rd (f.eval ((kes s k).reg ra) v) false ((kes s k).pc + 4) s) := by
  by_cases hmove : f.moves v = true
  · obtain ⟨rfl, hf⟩ := AluK.moves_iff.mp hmove
    have hwrote := aluk_moves h hmove
    rwa [hra, ← AluK.eval_zero hf ((kes s k).reg ra)] at hwrote
  · exact ⟨_, exec_aluk_row f k s, kRun_wrote h (if_pos rfl)
      (fun u hu => (if_neg hmove).trans (orTrap_of_false (by rw [hu, hra]) _ _ u)) rfl⟩

theorem aluk_traps (hmove : f.moves v ≠ true) (hbad : (kes s k).bad ra = true) :
    Gives (f.row k) s (Traps k 4 (fetched s k).1 s) := by
  refine ⟨_, exec_aluk_row f k s, kRun_traps h (if_pos rfl) fun u hu => (if_neg hmove).trans ?_⟩
  exact orTrap_of_true (by rw [hu, hbad]) _ _ u

end

/-! ## The statement -/

theorem oneIf_decide (p : Prop) [Decidable p] : oneIf (decide p) = if p then 1 else 0 := by
  by_cases h : p <;> simp [oneIf, h]

theorem shiftCount_eq (b : Word) : b.toNat % 32 = fld b 0 5 := by
  simp [fld]

/-- Settles O48: the results by `alu_writes` and `aluk_writes`, the moves by `alu_moves` and `aluk_moves`, and POISON by
`alu_traps` and `aluk_traps`, where an operation with a poisoned rb is no move. -/
theorem kestrelArithmetic : Obligations.KestrelArithmetic := by
  intro k rd ra rb v s
  refine ⟨fun hra hrb => ?alu, fun hra => ?aluk, fun c h => ?khi, fun x hx h => ?move, fun x hx h => ?movek,
    fun x hx hbad h => ?trap, fun x hx hbad hv h => ?trapk⟩
  case alu =>
    have row (f : Alu) {w : Word} (hw : f.eval ((kes s k).reg ra) ((kes s k).reg rb) = w)
        (h : Executes s k (.alu f rd ra rb)) : Gives (f.row k) s (Wrote k rd w false ((kes s k).pc + 4) s) := by
      rw [← hw]
      exact alu_writes h hra hrb
    have hcount := shiftCount_eq ((kes s k).reg rb)
    simp only [List.forall_mem_cons, List.not_mem_nil, false_implies, implies_true, and_true]
    exact ⟨row .add rfl, row .sub rfl, row .and rfl, row .ior rfl, row .eor rfl,
      row .lsl (by rw [← hcount]; rfl), row .lsr (by rw [← hcount]; rfl), row .asr (by rw [← hcount]; rfl),
      row .clt (oneIf_decide _), row .cltu (oneIf_decide _), row .mlo rfl, row .mhi rfl, row .mhiu rfl,
      row .min (by simp [Alu.eval, BitVec.slt]), row .max (by simp [Alu.eval, BitVec.slt])⟩
  case aluk =>
    have row (f : AluK) {w : Word} (hw : f.eval ((kes s k).reg ra) v = w)
        (h : Executes s k (.aluk f rd ra v)) : Gives (f.row k) s (Wrote k rd w false ((kes s k).pc + 4) s) := by
      rw [← hw]
      exact aluk_writes h hra
    have hsign : (v.signExtend 32).toInt = v.toInt := BitVec.toInt_signExtend_of_le (by decide)
    simp only [List.forall_mem_cons, List.not_mem_nil, false_implies, implies_true, and_true]
    exact ⟨row .addk rfl, row .andk rfl, row .iork rfl, row .eork rfl, row .cltk (by rw [← hsign]; exact oneIf_decide _),
      row .cltuk (oneIf_decide _), row .lslk rfl, row .lsrk rfl, row .asrk rfl⟩
  case khi =>
    have hshift : c ++ (0 : BitVec 10) = c.setWidth 32 <<< 10 := by
      ext
      grind
    rw [← hshift]
    exact ⟨_, rfl, kRun_wrote h rfl (fun _ _ => rfl) rfl⟩
  case move =>
    obtain ⟨f, hf, rfl⟩ : ∃ f ∈ [Alu.add, .ior, .eor], (f.row k, f) = x := List.mem_map.mp hx
    exact alu_moves h (Alu.moves_iff.mpr ⟨rfl, by simpa using hf⟩)
  case movek =>
    obtain ⟨f, hf, rfl⟩ : ∃ f ∈ [AluK.addk, .iork, .eork], (f.row k, f) = x := List.mem_map.mp hx
    exact aluk_moves h (AluK.moves_iff.mpr ⟨rfl, by simpa using hf⟩)
  case trap =>
    obtain ⟨f, -, rfl⟩ : ∃ f ∈ Alu.all, (f.row k, f) = x := List.mem_map.mp hx
    refine alu_traps h (fun hmove => ?_) (hbad.symm.imp_left And.left)
    obtain ⟨rfl, hf⟩ := Alu.moves_iff.mp hmove
    obtain hrb | ⟨-, hne | ⟨hadd, hior, heor⟩⟩ := hbad
    · exact Kestrel.ne_zero_of_bad hrb rfl
    · exact hne rfl
    · exact hf.elim hadd fun hf => hf.elim hior heor
  case trapk =>
    obtain ⟨f, -, rfl⟩ : ∃ f ∈ AluK.all, (f.row k, f) = x := List.mem_map.mp hx
    refine aluk_traps h (fun hmove => ?_) hbad
    obtain ⟨hzero, hf⟩ := AluK.moves_iff.mp hmove
    obtain hne | ⟨haddk, hiork, heork⟩ := hv
    · exact hne hzero
    · exact hf.elim haddk fun hf => hf.elim hiork heork

end Sys2Proof.Machine

/-! SUPPORT. Kestrel control flow (R268, R272, R274, R276, R293): jumps, branches, RTT and BRK, and the words that decode to
nothing. -/

namespace Sys2Proof.Machine

/-! ## Jumps and calls (R268, R276) -/

/-- What a jump or call does to its kestrel: a call links to k15. -/
theorem linked_eq (link : Bool) (c : Kestrel) (pc : BitVec 14) :
    (if link then c.setReg 15 (c.pcWord + 4) false else c).done pc 2 =
      (c.setReg (if link then 15 else 0) (if link then c.pcWord + 4 else 0) false).done pc 2 := by
  cases link <;> rfl

section

variable {k : KIdx} {ra : Fin 16} {v : BitVec 18} {s : State} {i : KInstr} {link : Bool}
  {sel : KInstr → Option (Word → State → State)} (h : Executes s k i) (hs : sel i = some (gorStep k link ra v))

include h hs

theorem gor_wrote (hra : (kes s k).bad ra = false) :
    Wrote k (if link then 15 else 0) (if link then (kes s k).pcWord + 4 else 0) false
      (pcOf ((kes s k).reg ra + v.signExtend 32)) s (kRun k sel s) :=
  kRun_wrote h hs (fun u hu => orTrap_of_false (by rw [hu, hra]) _ _ u) (linked_eq link _ _)

theorem gor_traps (hra : (kes s k).bad ra = true) : Traps k 4 (fetched s k).1 s (kRun k sel s) :=
  kRun_traps h hs fun u hu => orTrap_of_true (by rw [hu, hra]) _ _ u

end

/-! ## Branches (R268, R276) -/

/-- The conditions in the order of their codes. -/
def Cond.all : List Cond := [.eq, .ne, .lt, .ge, .ltu, .geu]

/-- The row of a branch condition (Table 11.2). -/
def Cond.row (f : Cond) (k : KIdx) : Instr :=
  match f with
  | .eq => .kBrEq k
  | .ne => .kBrNe k
  | .lt => .kBrLt k
  | .ge => .kBrGe k
  | .ltu => .kBrLtu k
  | .geu => .kBrGeu k

theorem exec_br_row (f : Cond) (k : KIdx) (s : State) : exec (f.row k) s = .next (kBr f k s) := by cases f <;> rfl

section

variable {k : KIdx} {f : Cond} {ra rb : Fin 16} {d : BitVec 15} {s : State} (h : Executes s k (.br f ra rb d))

include h

theorem br_goes (hra : (kes s k).bad ra = false) (hrb : (kes s k).bad rb = false) :
    Gives (f.row k) s (Wrote k 0 0 false (if f.holds ((kes s k).reg ra) ((kes s k).reg rb) = true
      then pcOf ((kes s k).pcWord + d.signExtend 32 * 4) else (kes s k).pc + 4) s) := by
  have hgood : ((kes s k).bad ra || (kes s k).bad rb) = false := by rw [hra, hrb]; rfl
  refine ⟨_, exec_br_row f k s, kRun_wrote h (if_pos rfl)
    (n := if f.holds ((kes s k).reg ra) ((kes s k).reg rb) then 2 else 1)
    (fun u hu => orTrap_of_false (by rw [hu]; exact hgood) _ _ u) ?_⟩
  rw [Kestrel.setReg_zero]
  split <;> rfl

theorem br_traps (hbad : (kes s k).bad ra = true ∨ (kes s k).bad rb = true) :
    Gives (f.row k) s (Traps k 4 (fetched s k).1 s) :=
  ⟨_, exec_br_row f k s, kRun_traps h (if_pos rfl) fun u hu =>
    orTrap_of_true (by rw [hu]; exact (Bool.or_eq_true _ _).mpr hbad) _ _ u⟩

end

/-! ## RTT and BRK (R274, R293) -/

/-- RTT leaves the trap (R274). -/
theorem rtt_returns {k : KIdx} {s : State} (h : Executes s k .rtt) : Gives (.kRtt k) s fun t =>
    OnlyKestrel k s t ∧ t.mgt = s.mgt ∧
      GoesOn k { kes s k with pc := (kes s k).tpc, intrap := false, cyc := (kes t k).cyc } s t := by
  obtain ⟨e, x, he, hrun⟩ := kRun_fetching (f := rttStep k)
    (sel := fun i => match i with | .rtt => some (rttStep k) | _ => none) h rfl
  obtain ⟨hg, hwait, -⟩ := h.going
  obtain ⟨hhalt, hgoes⟩ := complete_spec k (fun c => { c.done c.tpc 2 with intrap := false }) (s.fetching e x)
    (Going.modK hg) hwait
  refine ⟨_, congrArg Host.Outcome.next hrun, ?_⟩
  rw [rttStep]
  have hcyc := congrArg Kestrel.cyc hgoes.frame
  obtain ⟨honly, hmgt, -⟩ := hhalt.of_fetching he
  refine ⟨honly, hmgt, ?_⟩
  rw [hcyc]
  exact hgoes.congr rfl rfl

theorem exec_brk {k : KIdx} {s : State} (h : Executes s k .brk) : ∃ e x, FetchedEcc k s e ∧
    exec (.kBrk k) s = .next (brkStep k (fetched s k).1 (s.fetching e x)) := by
  obtain ⟨e, x, he, hrun⟩ := kRun_fetching (f := brkStep k)
    (sel := fun i => match i with | .brk => some (brkStep k) | _ => none) h rfl
  exact ⟨e, x, he, congrArg Host.Outcome.next hrun⟩

/-- With BRKH = 1 a BRK halts behind itself (R293). -/
theorem brk_halts {k : KIdx} {s : State} (h : Executes s k .brk) (hbrkh : (kes s k).brkh = true) :
    Gives (.kBrk k) s fun t => OnlyKestrel k s t ∧ raised .khalt t = true ∧
      kes t k = { kes s k with
        pc := (kes s k).pc + 4, cyc := (kes t k).cyc, halted := true, hcause := 2, haltReq := false, stepping := false
        skipBrk := false } := by
  obtain ⟨e, x, he, hexec⟩ := exec_brk h
  obtain ⟨u, hu⟩ : ∃ u, u = modK k (fun c => c.done c.next 1) (s.fetching e x) := ⟨_, rfl⟩
  have hstep : brkStep k (fetched s k).1 (s.fetching e x) = debugHalt k 2 u := by rw [hu]; exact if_pos hbrkh
  have hself : kes u k = (kes s k).done (kes s k).next 1 := by rw [hu]; exact kes_modK_self k _ _
  have hwait : (kes u k).wait = .none := by rw [hself]; exact h.going.2.1
  obtain ⟨hhalt, hraised, -⟩ := debugHalt_spec k 2 u
  have hkes := debugHalt_idle hwait 2
  have hcyc := congrArg Kestrel.cyc hkes
  rw [hself] at hkes hcyc
  have honly : OnlyKestrel k s (debugHalt k 2 u) :=
    (((hu ▸ modK_haltOnly k _ (s.fetching e x) : HaltOnly k (s.fetching e x) u).trans hhalt).of_fetching he).1
  refine ⟨_, hexec, ?_⟩
  rw [hstep]
  refine ⟨honly, hraised, ?_⟩
  rw [hcyc]
  exact hkes

/-! ## Words that decode to nothing (R272, R274) -/

theorem going_of_kIssues {k : KIdx} {s : State} (h : kIssues s k = true) : Going s k := by
  simp only [kIssues, kReady, Bool.and_eq_true, Bool.not_eq_true'] at h
  obtain ⟨⟨⟨⟨⟨⟨⟨⟨-, hrst⟩, -⟩, hhalted⟩, -⟩, hdfault⟩, -⟩, -⟩, -⟩ := h
  exact ⟨hrst, hhalted, hdfault⟩

/-- A read of a poisoned word counts nothing (R304). -/
theorem memReadEffect_poison {a : Nat} {s : State} (h : eccClass (rawWord s.mem a) = .poison) (src : BitVec 4) :
    memReadEffect src a s = s := by
  unfold memReadEffect
  split
  · rfl
  · simp only [h]

section

variable {k : KIdx} {s : State} (hissues : kIssues s k = true) (hdecode : kDecode (fetched s k).1 = none)

include hissues hdecode

theorem exec_illegal : exec (.illegalInstruction k) s = .next
    (if (fetched s k).2 then trap k 5 (kes s k).pcWord (memReadEffect (kSrc k) (fetchAddr s k) s)
      else trap k 1 (fetched s k).1 (memReadEffect (kSrc k) (fetchAddr s k) s)) :=
  congrArg Host.Outcome.next (if_pos ⟨hissues, hdecode⟩)

theorem illegal_traps (hclean : (fetched s k).2 = false) :
    Gives (.illegalInstruction k) s (Traps k 1 (fetched s k).1 s) := by
  refine ⟨_, exec_illegal hissues hdecode, ?_⟩
  obtain ⟨hframe, hecc⟩ := fetch_frame hclean
  rw [if_neg (ne_true_of_eq_false hclean), hframe]
  exact traps_of_trap hecc (going_of_kIssues hissues) 1 _

theorem illegal_poisoned (hpoison : eccClass (rawWord s.mem (fetchAddr s k)) = .poison) :
    Gives (.illegalInstruction k) s (Traps k 5 (kes s k).pcWord s) := by
  refine ⟨_, exec_illegal hissues hdecode, ?_⟩
  have hmarker : (fetched s k).2 = true := by simp [fetched, memWord32, memData, eccMarker, hpoison]
  rw [if_pos hmarker, memReadEffect_poison hpoison]
  exact traps_of_trap (e := s.ecc) (x := s.host.isr) (fun _ => rfl) (going_of_kIssues hissues) 5 _

end

/-! ## The statement -/

/-- Settles O49: jumps and calls by `linked_eq`, branches by `br_goes`, RTT and BRK by what they do to their kestrel, and the
words that decode to nothing by `exec_illegal`. -/
theorem kestrelControlFlow : Obligations.KestrelControlFlow := by
  intro k ra rb s
  refine ⟨fun d => ⟨fun h => ?go, fun h => ?call⟩, fun v hra => ⟨fun h => ?gor, fun h => ?callr⟩,
    fun d hra hrb => ?br, fun v d => ⟨fun hra x hx h => ?base, fun hbad x hx h => ?operand⟩, rtt_returns, brk_halts,
    fun h hbrkh => ?brk, fun hissues hdecode => ⟨illegal_traps hissues hdecode, illegal_poisoned hissues hdecode⟩⟩
  case go => exact ⟨_, rfl, kRun_wrote h rfl (fun _ _ => rfl) (linked_eq false _ _)⟩
  case call => exact ⟨_, rfl, kRun_wrote h rfl (fun _ _ => rfl) (linked_eq true _ _)⟩
  case gor => exact ⟨_, rfl, gor_wrote (link := false) (v := v) h rfl hra⟩
  case callr => exact ⟨_, rfl, gor_wrote (link := true) (v := v) h rfl hra⟩
  case br =>
    have row (f : Cond) {b : Bool} (hb : f.holds ((kes s k).reg ra) ((kes s k).reg rb) = b)
        (h : Executes s k (.br f ra rb d)) : Gives (f.row k) s (Wrote k 0 0 false
          (if b = true then pcOf ((kes s k).pcWord + d.signExtend 32 * 4) else (kes s k).pc + 4) s) := by
      rw [← hb]
      exact br_goes h hra hrb
    simp only [List.forall_mem_cons, List.not_mem_nil, false_implies, implies_true, and_true]
    exact ⟨row .eq rfl, row .ne decide_not.symm, row .lt rfl, row .ge (by simp [Cond.holds, BitVec.slt, ← decide_not]),
      row .ltu rfl, row .geu (by simp [Cond.holds, BitVec.ult, ← decide_not])⟩
  case base =>
    simp only [List.mem_cons, List.not_mem_nil, or_false] at hx
    obtain rfl | rfl := hx
    · exact ⟨_, rfl, gor_traps h rfl hra⟩
    · exact ⟨_, rfl, gor_traps h rfl hra⟩
  case operand =>
    obtain ⟨f, -, rfl⟩ : ∃ f ∈ Cond.all, (f.row k, f) = x := List.mem_map.mp hx
    exact br_traps h hbad
  case brk =>
    refine ⟨_, rfl, kRun_traps h rfl fun u hu => ?_⟩
    rw [brkStep, hu, if_neg (ne_true_of_eq_false hbrkh)]

end Sys2Proof.Machine

/-! SUPPORT. The three statements about every step, and the values after reset. -/

namespace Sys2Proof.Machine

/-- Settles O1: a step is a match on the queue, and the second branch is the front command. -/
theorem stepRunsFrontCommand : Obligations.StepRunsFrontCommand := by
  intro c rest s hs
  simp only [step, hs]

/-- Settles O3: the queue is the first of the three parts that every command upholds (`exec_ends`). -/
theorem commandsLeaveQueueAlone : Obligations.CommandsLeaveQueueAlone := by
  intro c s
  obtain ⟨t, ht, hqueue, -, -⟩ := exec_ends c s
  exact ⟨t, ht, hqueue⟩

/-- Settles O4: an idle step leaves the memories alone, and the front command upholds their form (`exec_ends`). -/
theorem everyStepKeepsMemoryForm : Obligations.EveryStepKeepsMemoryForm := by
  intro s hs
  unfold step
  split
  · obtain ⟨-, hmem, -⟩ := idle_upholds (Upholds.refl s)
    exact ⟨idle s, rfl, hmem hs⟩
  · next c rest _ =>
    obtain ⟨t, ht, -, hmem, -⟩ := exec_ends c (s.setPending rest)
    exact ⟨t, ht, hmem hs⟩

/-- Settles O7: the registers of the D-die by evaluation; the domains, islands and timers one by one. -/
theorem resetColumnValues : Obligations.ResetColumnValues := by
  refine ⟨rfl, rfl, rfl, rfl, rfl, rfl, rfl, rfl, rfl, rfl, rfl, ?icl, ?pd, ?gpt⟩
  case icl => decide
  case pd => decide
  case gpt => decide

end Sys2Proof.Machine

/-! SUPPORT. The (72,64) code is linear, so a word with one flipped bit has the syndrome of that bit (R300, R301). -/

namespace Sys2Proof.Machine

theorem checkFrom_xor (a b : Nat) (cs : List Byte) : checkFrom (a ^^^ b) cs = checkFrom a cs ^^^ checkFrom b cs := by
  induction cs generalizing a b with
  | nil => simp [checkFrom]
  | cons c cs ih =>
    have hbit : (if (a ^^^ b) % 2 = 1 then c else 0) = (if a % 2 = 1 then c else 0) ^^^ (if b % 2 = 1 then c else 0) := by
      simp only [Nat.xor_mod_two_eq_one]
      by_cases ha : a % 2 = 1 <;> by_cases hb : b % 2 = 1 <;> simp [ha, hb]
    rw [checkFrom, checkFrom, checkFrom, Nat.xor_div_two, ih, hbit]
    ac_rfl

theorem check_xor (d e : Quad) : check (d ^^^ e) = check d ^^^ check e := by
  rw [check, BitVec.toNat_xor, checkFrom_xor]
  rfl

theorem codeData_xor (c e : Code) : codeData (c ^^^ e) = codeData c ^^^ codeData e := BitVec.setWidth_xor

theorem codeCheck_xor (c e : Code) : codeCheck (c ^^^ e) = codeCheck c ^^^ codeCheck e := by
  rw [codeCheck, BitVec.ushiftRight_xor_distrib, BitVec.setWidth_xor]
  rfl

theorem syndrome_xor (c e : Code) : syndrome (c ^^^ e) = syndrome c ^^^ syndrome e := by
  rw [syndrome, codeCheck_xor, codeData_xor, check_xor, syndrome, syndrome]
  ac_rfl

theorem syndrome_cleanCode (d : Quad) : syndrome (cleanCode d) = 0 := by
  rw [syndrome, cleanCode, codeCheck_code, codeData_code]
  exact BitVec.xor_self

theorem syndrome_cleanCode_xor (d : Quad) (e : Code) : syndrome (cleanCode d ^^^ e) = syndrome e := by
  rw [syndrome_xor, syndrome_cleanCode]
  exact BitVec.zero_xor

/-- The class of a word is that of its errors. -/
theorem eccClass_cleanCode_xor (d : Quad) (e : Code) : eccClass (cleanCode d ^^^ e) = eccClass e := by
  unfold eccClass
  rw [syndrome_cleanCode_xor]

/-- A word delivers its data, but for what the code makes of its errors. -/
theorem eccData_cleanCode_xor (d : Quad) (e : Code) : eccData (cleanCode d ^^^ e) = d ^^^ eccData e := by
  unfold eccData
  rw [syndrome_cleanCode_xor, codeData_xor, cleanCode, codeData_code]
  cases columnBit (syndrome e)
  case none => rfl
  case some i => exact BitVec.xor_assoc _ _ _

/-- Of an error in one bit nothing is left (Table 12.2). -/
theorem single_bit_corrected :
    ∀ i : Fin 72, eccClass (1 <<< i.val) = .corrected ∧ eccData (1 <<< i.val) = 0 := by decide +kernel

theorem eccClass_cleanCode (d : Quad) : eccClass (cleanCode d) = .clean := by
  rw [eccClass, syndrome_cleanCode]
  rfl

theorem eccData_cleanCode (d : Quad) : eccData (cleanCode d) = d := by
  have hcol : columnBit 0 = none := by decide
  rw [eccData, syndrome_cleanCode, hcol, cleanCode, codeData_code]

end Sys2Proof.Machine

/-! SUPPORT. The accesses of the ECC memories (R299-R306): a read by the class of its word, a write and a clear behind the patch
reads that are outstanding. -/

namespace Sys2Proof.Machine

theorem exec_mewsAccess (q : MemReq) (s : State) :
    exec (.mewsAccess q) s = .next (if clearable s q.addr then memGrant q s else s) := rfl

theorem exec_eccClearWord (a : Word) (s : State) :
    exec (.eccClearWord a) s = .next (if pdOn s 1 then clearWord a s else s) := rfl

theorem clearWord_of_not_clearable {s : State} {a : Word} (h : clearable s a = false) : clearWord a s = s :=
  if_neg (ne_true_of_eq_false h)

theorem clearable_of_memOf {s : State} {a : Word} {t : Nat} (hmem : memOf a.toNat = some t) (hon : pdOn s (memDomain t) = true) :
    clearable s a = true := by
  rw [clearable, hmem]
  exact hon

/-! ## A read by the class of its word (R301-R303, Table 12.2) -/

section

variable {s : State} {a t : Nat} (src : BitVec 4)

theorem memReadEffect_clean (h : eccClass (rawWord s.mem a) = .clean) : memReadEffect src a s = s := by
  simp only [memReadEffect, h]
  split <;> rfl

variable (hmem : memOf a = some t)

include hmem

theorem memReadEffect_corrected (h : eccClass (rawWord s.mem a) = .corrected) :
    memReadEffect src a s =
      when (bucketCrosses s.ecc t) (raise .ecccor) { s with ecc := eccCorrected s.ecc t a (rawWord s.mem a) src } := by
  simp only [memReadEffect, hmem, h]

theorem memReadEffect_uncorrectable (h : eccClass (rawWord s.mem a) = .uncorrectable) :
    memReadEffect src a s =
      raiseD .eccunc (eccUncorrectable s.ecc t a (rawWord s.mem a) src).ucap.addr.toNat
        { s with ecc := eccUncorrectable s.ecc t a (rawWord s.mem a) src
                 mem := putRaw s.mem a (poisonCode (codeData (rawWord s.mem a))) } := by
  simp only [memReadEffect, hmem, h]

end

/-- A corrected read of a bank counts in COR and in its bucket, one of another memory in KCOR (R302, R307). -/
theorem eccCorrected_counts (e : Ecc) (t a : Nat) (w : Code) (src : BitVec 4) :
    (t < 8 → (vget (eccCorrected e t a w src).bank t {}).cor = satInc (vget e.bank t {}).cor ∧
      (vget (eccCorrected e t a w src).bank t {}).bucket = satInc (vget e.bank t {}).bucket) ∧
    (8 ≤ t → (eccCorrected e t a w src).kcor = satInc e.kcor) := by
  constructor
  · intro ht
    simp only [eccCorrected, ht, if_true, vget_vmod _ _ _ _ _ ht, and_self]
  · intro ht
    simp [eccCorrected, Nat.not_lt.mpr ht]

/-- An uncorrectable one counts in UNC or in KUNC (R303). -/
theorem eccUncorrectable_counts (e : Ecc) (t a : Nat) (w : Code) (src : BitVec 4) :
    (t < 8 → (vget (eccUncorrectable e t a w src).bank t {}).unc = satInc (vget e.bank t {}).unc) ∧
    (8 ≤ t → (eccUncorrectable e t a w src).kunc = satInc e.kunc) := by
  constructor
  · intro ht
    simp only [eccUncorrectable, ht, if_true, vget_vmod _ _ _ _ _ ht]
  · intro ht
    simp [eccUncorrectable, Nat.not_lt.mpr ht]

theorem when_raise_frame (b : Bool) {c : Cause} (h : c.pendBit = none) (s : State) :
    when b (raise c) s = { s with host := (when b (raise c) s).host, mgt := (when b (raise c) s).mgt } := by
  cases b
  case false => rfl
  case true => exact raise_frame_of_no_pendBit h s

theorem corrected_read {s : State} {a t : Nat} (hmem : memOf a = some t) (h : eccClass (rawWord s.mem a) = .corrected)
    (src : BitVec 4) :
    memReadEffect src a s = { s with ecc := eccCorrected s.ecc t a (rawWord s.mem a) src
                                     host := (memReadEffect src a s).host, mgt := (memReadEffect src a s).mgt } := by
  rw [memReadEffect_corrected src hmem h]
  exact when_raise_frame _ rfl _

theorem uncorrectable_read {s : State} {a t : Nat} (hmem : memOf a = some t)
    (h : eccClass (rawWord s.mem a) = .uncorrectable) (src : BitVec 4) :
    memReadEffect src a s = { s with ecc := eccUncorrectable s.ecc t a (rawWord s.mem a) src
                                     mem := putRaw s.mem a (poisonCode (codeData (rawWord s.mem a)))
                                     host := (memReadEffect src a s).host, mgt := (memReadEffect src a s).mgt } := by
  rw [memReadEffect_uncorrectable src hmem h]
  rfl

/-! ## What reads and writes leave alone -/

/-- From `s` to `t` memories were accessed: beside what a read counts and logs, only the outstanding patch reads may differ. -/
def Accesses (s t : State) : Prop :=
  t = { s with mem := t.mem, ecc := t.ecc, host := t.host, mgt := t.mgt, dis := t.dis, free := t.free }

theorem Accesses.refl (s : State) : Accesses s s := rfl

theorem Accesses.trans {s u t : State} (h : Accesses s u) (g : Accesses u t) : Accesses s t := by
  rw [Accesses, g, h]

theorem memReadEffect_accesses (src : BitVec 4) (a : Nat) (s : State) : Accesses s (memReadEffect src a s) := by
  cases hmem : memOf a
  case none =>
    have hread : memReadEffect src a s = s := by simp only [memReadEffect, hmem]
    rw [hread]
    exact .refl s
  case some t =>
    cases hclass : eccClass (rawWord s.mem a)
    case clean =>
      rw [memReadEffect_clean src hclass]
      exact .refl s
    case poison =>
      rw [memReadEffect_poison hclass]
      exact .refl s
    case corrected =>
      rw [corrected_read hmem hclass]
      rfl
    case uncorrectable =>
      rw [uncorrectable_read hmem hclass]
      rfl

theorem readWordsEffect_accesses (src : BitVec 4) (a n : Nat) (s : State) : Accesses s (readWordsEffect src a n s) := by
  induction n generalizing a s with
  | zero => exact .refl s
  | succ n ih => exact (memReadEffect_accesses src a s).trans (ih (a + 8) _)

theorem slideOne_accesses (s : State) (r : PatchRead) : Accesses s (slideOne s r) := by
  have hread : Accesses s (r.advanceEffect ((Config.freeWord s.free).toNat % (r.left + 1)) s) := by
    unfold PatchRead.advanceEffect
    split
    · exact readWordsEffect_accesses _ _ _ s
    · exact .refl s
  exact hread.trans rfl

theorem slideReads_accesses (s : State) : Accesses s (slideReads s) := by
  rw [slideReads_eq]
  have hstart : Accesses s { s with dis := { s.dis with reads := [] } } := rfl
  generalize ({ s with dis := { s.dis with reads := [] } } : State) = u at hstart
  induction s.dis.reads generalizing u with
  | nil => exact hstart
  | cons r rs ih => exact ih (slideOne u r) (hstart.trans (slideOne_accesses u r))

/-- With no patch read outstanding there is nothing to take before a store. -/
theorem slideReads_idle {s : State} (h : s.dis.reads = []) : slideReads s = s := by
  rw [slideReads_eq, h, List.foldl_nil, ← h]

theorem writeCode_eq {a t : Nat} (hmem : memOf a = some t) (w : Code) (s : State) :
    writeCode a w s = { s with mem := putRaw s.mem a (w ^^^ flipMask s.ecc t), ecc := useFlip s.ecc t } := by
  rw [writeCode, hmem]

theorem writeCode_accesses (a : Nat) (w : Code) (s : State) : Accesses s (writeCode a w s) := by
  unfold writeCode
  split <;> rfl

theorem mergedWrite_accesses (src : BitVec 4) (a n : Nat) (v : Word) (p : Bool) (s : State) :
    Accesses s (mergedWrite src a n v p s) := (memReadEffect_accesses src a s).trans (writeCode_accesses a _ _)

/-! ## Writes (R305, R306, R313) -/

/-- Addresses of one word lie in one memory. -/
theorem memOf_same_word {a b : Nat} (h : a / 8 = b / 8) : memOf a = memOf b := by
  rw [← memOf_word a, ← memOf_word b, h]

theorem rawWord_same_word (m : Mem) {a b : Nat} (h : a / 8 = b / 8) : rawWord m a = rawWord m b := by
  rw [rawWord, rawWord, h]

theorem OtherWords.same_word {s t : State} {a b : Nat} (hword : a / 8 = b / 8) (h : OtherWords s t a) : OtherWords s t b := by
  rw [OtherWords, ← hword]
  exact h

/-- A write behind the patch reads that are outstanding: the words that it leaves are what those reads left. -/
theorem otherWords_of_slide {s t : State} {a : Nat} (h : s.mem.wf = true)
    (hother : ∀ b, b / 8 ≠ a / 8 → rawWord t.mem b = rawWord (slideReads s).mem b) : OtherWords s t a := by
  refine ⟨fun b hb => ?_, fun hreads b hb => ?_⟩
  · have hsame := (slideReads_reads h).word b
    rw [SameWord, ← hother b hb] at hsame
    exact hsame
  · rw [hother b hb, slideReads_idle hreads]

/-- A whole word written behind the outstanding patch reads (R282, R305). -/
theorem writeCode_slide {s : State} (h : s.mem.wf = true) {a t : Nat} (hmem : memOf a = some t) (w : Code) :
    rawWord (writeCode (a / 8 * 8) w (slideReads s)).mem a = w ^^^ flipMask s.ecc t ∧
      OtherWords s (writeCode (a / 8 * 8) w (slideReads s)) a := by
  have hword : a / 8 * 8 / 8 = a / 8 := Nat.mul_div_cancel _ (by decide)
  have hslide := slideReads_reads h
  rw [writeCode_eq ((memOf_same_word hword).trans hmem), hslide.flip]
  constructor
  · rw [rawWord_putRaw _ _ _ _ hslide.wf, if_pos hword.symm]
  · refine otherWords_of_slide h fun b hb => ?_
    rw [rawWord_putRaw _ _ _ _ hslide.wf, hword, if_neg hb]

/-- With no patch read outstanding such a write touches the memories and the ECC block alone. -/
theorem writeCode_slide_idle {s : State} (h : s.dis.reads = []) (a : Nat) (w : Code) :
    writeCode a w (slideReads s) =
      { s with mem := (writeCode a w (slideReads s)).mem, ecc := (writeCode a w (slideReads s)).ecc } := by
  rw [slideReads_idle h]
  unfold writeCode
  split <;> rfl

/-- A merged write of an aligned part of a word behind the outstanding patch reads (R282, R305). -/
theorem mergedWrite_slide {s : State} (h : s.mem.wf = true) {a b t : Nat} (hword : a / 8 = b / 8) (hmem : memOf b = some t)
    (src : BitVec 4) (n : Nat) (v : Word) (p : Bool) :
    rawWord (mergedWrite src a n v p (slideReads s)).mem b = mergedWord s t a n v p ∧
      OtherWords s (mergedWrite src a n v p (slideReads s)) b := by
  have hslide := slideReads_reads h
  obtain ⟨hself, hother⟩ := mergedWrite_spec hslide.wf ((memOf_same_word hword).trans hmem) src n v p
  constructor
  · rw [← rawWord_same_word _ hword, hself, mergedWord_congr hslide]
  · exact (otherWords_of_slide h hother).same_word hword

/-- Aligning an address to a part of a word stays in the word. -/
theorem align_same_word (a : Nat) (c : Fin 4) : a / 2 ^ c.val * 2 ^ c.val / 8 = a / 8 := by
  have hpow : 2 ^ c.val ∣ 8 := ⟨2 ^ (3 - c.val), by fin_cases c <;> rfl⟩
  obtain ⟨k, hk⟩ := hpow
  rw [hk, ← Nat.div_div_eq_div_mul, Nat.mul_div_cancel _ (Nat.two_pow_pos _), Nat.div_div_eq_div_mul]

theorem memGrant_read (src : BitVec 4) (a : Word) (s : State) : memGrant ⟨src, a, none⟩ s = memReadEffect src a.toNat s := rfl

theorem memGrant_part {c : Fin 4} (hc : c ≠ 3) (src : BitVec 4) (a : Word) (v : Quad) (p : Bool) (s : State) :
    memGrant ⟨src, a, some (c, v, p)⟩ s =
      mergedWrite src (a.toNat / 2 ^ c.val * 2 ^ c.val) (2 ^ c.val) (v.setWidth 32) p (slideReads s) := if_neg hc

theorem memGrant_accesses (src : BitVec 4) (a : Word) (c : Fin 4) (v : Quad) (p : Bool) (s : State) :
    Accesses s (memGrant ⟨src, a, some (c, v, p)⟩ s) := by
  refine (slideReads_accesses s).trans ?_
  by_cases hc : c = 3
  · subst hc
    exact writeCode_accesses _ _ _
  · rw [memGrant_part hc]
    exact mergedWrite_accesses _ _ _ _ _ _

end Sys2Proof.Machine

/-! SUPPORT. The scrubber, the leak of the buckets and the armed flip (R307, R309, R313), and the statement about the ECC
memories. -/

namespace Sys2Proof.Machine

theorem exec_scrub (s : State) :
    exec .scrub s = .next (if pdOn s 1 && bit s.ecc.cfg 31 then
      (List.range 8).foldl (fun s m => if pdOn s (46 + m) then scrubBank m s else s) s else s) := rfl

theorem exec_bucketLeak (s : State) :
    exec .bucketLeak s = .next (if pdOn s 1 then { s with ecc := { s.ecc with
        bank := s.ecc.bank.map Bank.leak
        corst := (List.range 8).foldl (fun c m => if leakClears s.ecc m then setBit c m false else c) s.ecc.corst } }
      else s) := rfl

theorem exec_flipArm (v : Word) (s : State) : exec (.flipArm v) s = .next (if pdOn s 1 then writeFlipctl v s else s) := rfl

/-! ## The scrubber (R309) -/

/-- The place of the scrubber in bank `m`. -/
def scrubPlace (s : State) (m : Nat) : Nat := (vget s.ecc.bank m {}).scrub

theorem scrubAddr_congr {s t : State} {m : Nat} (h : scrubPlace t m = scrubPlace s m) : scrubAddr t m = scrubAddr s m := by
  rw [scrubAddr, scrubAddr, ← scrubPlace, ← scrubPlace, h]

/-- The scrubber's words in two banks are different words. -/
theorem scrubAddr_word_ne {s t : State} {i j : Nat} (h : i ≠ j) : scrubAddr s i / 8 ≠ scrubAddr t j / 8 := by
  have hi := Nat.mod_lt (vget s.ecc.bank i {}).scrub (show 0 < 65536 by decide)
  have hj := Nat.mod_lt (vget t.ecc.bank j {}).scrub (show 0 < 65536 by decide)
  unfold scrubAddr
  omega

/-- Reads count, and leave the scrubber where it is. -/
theorem scrubPlace_memReadEffect (src : BitVec 4) (a : Nat) (s : State) (m : Nat) :
    scrubPlace (memReadEffect src a s) m = scrubPlace s m := by
  cases hmem : memOf a
  case none => simp only [memReadEffect, hmem]
  case some t =>
    cases hclass : eccClass (rawWord s.mem a)
    case clean => rw [memReadEffect_clean src hclass]
    case poison => rw [memReadEffect_poison hclass]
    case corrected =>
      rw [corrected_read hmem hclass]
      by_cases ht : t < 8
      · simp only [scrubPlace, eccCorrected, ht, if_true, vget_vmod _ _ _ _ _ ht]
        split <;> simp [*]
      · simp [scrubPlace, eccCorrected, ht]
    case uncorrectable =>
      rw [uncorrectable_read hmem hclass]
      by_cases ht : t < 8
      · simp only [scrubPlace, eccUncorrectable, ht, if_true, vget_vmod _ _ _ _ _ ht]
        split <;> simp [*]
      · simp [scrubPlace, eccUncorrectable, ht]

/-- What scrubbing bank `m` does: it moves its own place on, and of the words it changes its own alone. -/
structure ScrubsBank (m : Nat) (s t : State) : Prop where
  gate : t.gate = s.gate
  wf : t.mem.wf = true
  place : ∀ j, scrubPlace t j = if j = m then (scrubPlace s m + 1) % 65536 else scrubPlace s j
  other : ∀ b, b / 8 ≠ scrubAddr s m / 8 → rawWord t.mem b = rawWord s.mem b
  own : eccClass (rawWord s.mem (scrubAddr s m)) = .corrected →
    rawWord t.mem (scrubAddr s m) = cleanCode (eccData (rawWord s.mem (scrubAddr s m)))

theorem scrubRewrite_spec (a : Nat) (w : Code) {s : State} (h : s.mem.wf = true) :
    scrubRewrite a w s = s.setMem (scrubRewrite a w s).mem ∧ (scrubRewrite a w s).mem.wf = true ∧
      (∀ b, b / 8 ≠ a / 8 → rawWord (scrubRewrite a w s).mem b = rawWord s.mem b) ∧
      (eccClass w = .corrected → rawWord (scrubRewrite a w s).mem a = cleanCode (eccData w)) := by
  unfold scrubRewrite
  split
  · exact ⟨rfl, putRaw_wf _ _ _ h, fun b hb => (rawWord_putRaw _ _ _ _ h).trans (if_neg hb),
      fun _ => (rawWord_putRaw _ _ _ _ h).trans (if_pos rfl)⟩
  · next hclass => exact ⟨rfl, h, fun _ _ => rfl, fun hc => absurd hc hclass⟩

theorem scrub_scrubNext {m : Nat} (hm : m < 8) (e : Ecc) (j : Nat) :
    (vget (scrubNext m e).bank j {}).scrub =
      if j = m then ((vget e.bank m {}).scrub + 1) % 65536 else (vget e.bank j {}).scrub := by
  rw [scrubNext, vget_vmod _ _ _ _ _ hm]
  split <;> rfl

theorem scrubBank_scrubs {m : Nat} (hm : m < 8) {s : State} (h : s.mem.wf = true) : ScrubsBank m s (scrubBank m s) := by
  obtain ⟨hread, hother⟩ := memReadEffect_reads 10 (scrubAddr s m) h
  have hplace := scrubPlace_memReadEffect 10 (scrubAddr s m) s
  have haccess := memReadEffect_accesses 10 (scrubAddr s m) s
  generalize hu : memReadEffect 10 (scrubAddr s m) s = u at hread hother hplace haccess
  obtain ⟨hframe, hwf, hkeep, hclean⟩ := scrubRewrite_spec (scrubAddr s m) (rawWord s.mem (scrubAddr s m)) hread.wf
  have hscrub : scrubBank m s = (scrubRewrite (scrubAddr s m) (rawWord s.mem (scrubAddr s m)) u).setEcc
      (scrubNext m (scrubRewrite (scrubAddr s m) (rawWord s.mem (scrubAddr s m)) u).ecc) := by rw [scrubBank, hu]
  generalize scrubRewrite (scrubAddr s m) (rawWord s.mem (scrubAddr s m)) u = t at hframe hwf hkeep hclean hscrub
  have hecc : t.ecc = u.ecc := by rw [hframe, State.setMem_ecc]
  have hgate : t.gate = s.gate := by rw [hframe, State.setMem_gate, haccess]
  rw [hscrub]
  refine ⟨hgate, hwf, fun j => ?_, fun b hb => (hkeep b hb).trans (hother b hb), hclean⟩
  · rw [← hplace, ← hplace, scrubPlace, scrubPlace, scrubPlace, ← hecc]
    exact scrub_scrubNext hm t.ecc j

/-- The scrubber has been at the ON banks below `k`. -/
structure ScrubbedTo (k : Nat) (s t : State) : Prop where
  gate : t.gate = s.gate
  wf : t.mem.wf = true
  place : ∀ m, scrubPlace t m = if m < k ∧ pdOn s (46 + m) = true then (scrubPlace s m + 1) % 65536 else scrubPlace s m
  ahead : ∀ m, k ≤ m → rawWord t.mem (scrubAddr s m) = rawWord s.mem (scrubAddr s m)
  done : ∀ m, m < k → pdOn s (46 + m) = true → eccClass (rawWord s.mem (scrubAddr s m)) = .corrected →
    rawWord t.mem (scrubAddr s m) = cleanCode (eccData (rawWord s.mem (scrubAddr s m)))

/-- One bank further. -/
theorem ScrubbedTo.next {k : Nat} (hk : k < 8) {s u : State} (h : ScrubbedTo k s u) :
    ScrubbedTo (k + 1) s (if pdOn u (46 + k) then scrubBank k u else u) := by
  obtain ⟨hgate, hwf, hplace, hahead, hdone⟩ := h
  have hon : pdOn u (46 + k) = pdOn s (46 + k) := by rw [pdOn, pdOn, hgate]
  have hlt (m : Nat) (hm : m ≠ k) : m < k + 1 ↔ m < k := by omega
  by_cases h : pdOn s (46 + k) = true
  · rw [if_pos (hon.trans h)]
    obtain ⟨ggate, gwf, gplace, gother, gown⟩ := scrubBank_scrubs hk hwf
    have haddr : scrubAddr u k = scrubAddr s k := scrubAddr_congr ((hplace k).trans (if_neg (by omega)))
    have hkeep (m : Nat) (hm : m ≠ k) : rawWord (scrubBank k u).mem (scrubAddr s m) = rawWord u.mem (scrubAddr s m) :=
      gother _ (scrubAddr_word_ne hm)
    refine ⟨ggate.trans hgate, gwf, fun m => ?_, fun m hm => ?_, fun m hm hm' hc => ?_⟩
    · rw [gplace, hplace, hplace]
      by_cases hm : m = k
      · subst hm
        simp [h]
      · simp [hm, hlt m hm]
    · rw [hkeep m (by omega)]
      exact hahead m (by omega)
    · by_cases hmk : m = k
      · subst hmk
        have hword := hahead m (Nat.le_refl m)
        rw [haddr, hword] at gown
        exact gown hc
      · rw [hkeep m hmk]
        exact hdone m ((hlt m hmk).mp hm) hm' hc
  · rw [if_neg (by rwa [hon])]
    refine ⟨hgate, hwf, fun m => ?_, fun m hm => hahead m (by omega), fun m hm hm' => ?_⟩
    · rw [hplace]
      by_cases hm : m = k
      · subst hm
        simp [h]
      · simp [hlt m hm]
    · exact hdone m ((hlt m fun hmk => h (hmk ▸ hm')).mp hm) hm'

theorem scrub_scrubs {s : State} (h : s.mem.wf = true) {k : Nat} (hk : k ≤ 8) :
    ScrubbedTo k s ((List.range k).foldl (fun s m => if pdOn s (46 + m) then scrubBank m s else s) s) := by
  induction k with
  | zero => exact ⟨rfl, h, fun m => by simp, fun _ _ => rfl, fun m hm => absurd hm (Nat.not_lt_zero m)⟩
  | succ k ih =>
    rw [List.range_succ, List.foldl_append]
    exact (ih (Nat.le_of_lt hk)).next hk

/-! ## The leak and the armed flip (R307, R313) -/

theorem leak_bank (b : Bank) : b.leak.bucket.toNat = b.bucket.toNat - 1 ∧ b.leak.cor = b.cor := by
  refine ⟨?_, rfl⟩
  rw [Bank.leak, BitVec.toNat_ofNat]
  exact Nat.mod_eq_of_lt (by omega)

theorem bit_writeFlipctl (v : Word) (s : State) :
    bit (writeFlipctl v s).ecc.flipctl 31 = (bit v 31 && s.mode.code == .service) :=
  (bit_setBit _ _ _ _ (by decide)).trans (if_pos rfl)

/-! ## The statement -/

/-- Settles O52: the code by its linearity (`eccClass_cleanCode_xor`), a read by the class of its word, a write and a clear by
what they leave behind the outstanding patch reads, and the scrubber bank by bank (`ScrubbedTo.next`). -/
theorem eccMemories : Obligations.EccMemories := by
  refine ⟨fun d => ⟨eccClass_cleanCode d, eccData_cleanCode d, eccClass_poisonCode d, eccData_poisonCode d⟩,
    fun d i => ?flipped, fun q s h => ⟨?off, ?clearOff⟩, fun src a t s hwf hmem hon => ?access,
    fun s => ⟨fun h => ?scrubOff, fun h1 hen _ => ?scrub, fun h1 => ⟨?leakOff, fun v => ?armOff⟩,
      fun h1 => ⟨?leak, fun v => ?arm⟩⟩⟩
  case flipped =>
    obtain ⟨hclass, hdata⟩ := single_bit_corrected i
    exact ⟨(eccClass_cleanCode_xor d _).trans hclass, (eccData_cleanCode_xor d _).trans (by rw [hdata]; exact BitVec.xor_zero)⟩
  case off => rw [exec_mewsAccess, h, if_neg Bool.false_ne_true]
  case clearOff => rw [exec_eccClearWord, clearWord_of_not_clearable h, ite_self]
  case access =>
    have hclear := clearable_of_memOf hmem hon
    have hgrant (op : Option (Fin 4 × Quad × Bool)) :
        exec (.mewsAccess ⟨src, a, op⟩) s = .next (memGrant ⟨src, a, op⟩ s) := by rw [exec_mewsAccess, if_pos hclear]
    refine ⟨fun h => ?same, fun h => ⟨_, hgrant none, ?_⟩, fun h => ⟨_, hgrant none, ?_⟩,
      fun c v p => ⟨_, hgrant _, ?_⟩, fun h1 => ⟨_, by rw [exec_eccClearWord, if_pos h1], ?_⟩⟩
    case same =>
      rw [hgrant, memGrant_read]
      rcases h with h | h
      · rw [memReadEffect_clean src h]
      · rw [memReadEffect_poison h]
    · have hcounts := eccCorrected_counts s.ecc t a.toNat (rawWord s.mem a.toNat) src
      rw [memGrant_read, corrected_read hmem h]
      exact ⟨rfl, hcounts⟩
    · have hcounts := eccUncorrectable_counts s.ecc t a.toNat (rawWord s.mem a.toNat) src
      have hword (b : Nat) := rawWord_putRaw s.mem a.toNat b (poisonCode (codeData (rawWord s.mem a.toNat))) hwf
      have hraised : raised .eccunc (memReadEffect src a.toNat s) = true := by
        rw [memReadEffect_uncorrectable src hmem h]
        exact (raiseD_raises _ _ _).2
      rw [memGrant_read]
      refine ⟨?_, hraised, fun b hb => ?_, ?_⟩ <;> rw [uncorrectable_read hmem h]
      · exact (hword _).trans (if_pos rfl)
      · exact (hword b).trans (if_neg hb)
      · exact ⟨rfl, hcounts⟩
    · refine ⟨?_, ?_, memGrant_accesses src a c v p s, fun hc hreads => ?_⟩
      · by_cases hc : c = 3
        · subst hc
          exact (writeCode_slide hwf hmem _).1
        · rw [if_neg hc, memGrant_part hc]
          exact (mergedWrite_slide hwf (align_same_word _ c) hmem _ _ _ _).1
      · by_cases hc : c = 3
        · subst hc
          exact (writeCode_slide hwf hmem _).2
        · rw [memGrant_part hc]
          exact (mergedWrite_slide hwf (align_same_word _ c) hmem _ _ _ _).2
      · subst hc
        exact writeCode_slide_idle hreads _ _
    · have hword : clearWord a s = writeCode (a.toNat / 8 * 8) (cleanCode 0) (slideReads s) := if_pos hclear
      rw [hword]
      obtain ⟨hself, hother⟩ := writeCode_slide hwf hmem (cleanCode 0)
      exact ⟨hself, hother, fun hreads => writeCode_slide_idle hreads _ _⟩
  case scrubOff => obtain h | h := h <;> simp [exec_scrub, h]
  case scrub h =>
    obtain ⟨-, -, hplace, -, hdone⟩ := scrub_scrubs h (Nat.le_refl 8)
    refine ⟨_, by rw [exec_scrub, h1, hen]; rfl, fun m => ⟨?_, hdone m m.isLt⟩⟩
    have hm := hplace m
    simpa [scrubPlace] using hm
  case leakOff => simp [exec_bucketLeak, h1]
  case armOff => simp [exec_flipArm, h1]
  case leak =>
    refine ⟨_, by rw [exec_bucketLeak, if_pos h1], rfl, fun m => ?_⟩
    rw [vget_map _ _ {} _ m.isLt]
    exact leak_bank _
  case arm => exact ⟨writeFlipctl v s, by rw [exec_flipArm, if_pos h1], rfl, bit_writeFlipctl v s⟩

end Sys2Proof.Machine

/-! SUPPORT. The pulse widths of the emitters (R330, R331) and the wrap of a flight (R329, R333, R334). -/

namespace Sys2Proof.Machine

/-- An element inside a vector needs no default. -/
theorem vget_fin {α : Type} {n : Nat} (v : Vector α n) (i : Fin n) (d : α) : vget v i d = v[i] := by simp [vget]

theorem vget_mapIdx {α β : Type} {n : Nat} (v : Vector α n) (f : Nat → α → β) (i : Fin n) (a : α) (b : β) :
    vget (v.mapIdx f) i b = f i (vget v i a) := by
  rw [vget_fin, vget_fin]
  exact Vector.getElem_mapIdx i.isLt

/-! ## Rows that act on a condition -/

section

variable {c : Instr} {s t u : State} {p : Prop} [Decidable p] (hrow : exec c s = .next (if p then t else u))

include hrow

theorem exec_of_pos (h : p) : exec c s = .next t := hrow.trans (congrArg Host.Outcome.next (if_pos h))

theorem exec_of_neg (h : ¬p) : exec c s = .next u := hrow.trans (congrArg Host.Outcome.next (if_neg h))

theorem gives_of_pos {P : State → Prop} (h : p) (ht : P t) : Gives c s P := ⟨t, exec_of_pos hrow h, ht⟩

theorem gives_of_neg {P : State → Prop} (h : ¬p) (hu : P u) : Gives c s P := ⟨u, exec_of_neg hrow h, hu⟩

end

theorem exec_emtWrap (f : Fin 4) (s : State) :
    exec (.emtWrap f) s =
      .next (if pdOn s 59 && islandUp s 4 && !(s.mode.code == .roost) then emtWrap f s else s) := rfl

/-! ## Pulse widths -/

/-- The extra cycle of a pulse, spread over sixteen periods (R330). -/
theorem sum_spread (q : Nat) :
    ∀ r : Fin 16, ((List.range 16).map fun k => if bitrev4 (k % 16) < r.val then q + 1 else q).sum = 16 * q + r.val := by
  intro r
  have hcount : ∀ r : Fin 16, ((List.range 16).map fun k => if bitrev4 (k % 16) < r.val then 1 else 0).sum = r.val := by decide
  have hsplit : ∀ l : List Nat, (l.map fun k => if bitrev4 (k % 16) < r.val then q + 1 else q).sum =
      l.length * q + (l.map fun k => if bitrev4 (k % 16) < r.val then 1 else 0).sum := by
    intro l
    induction l with
    | nil => simp
    | cons k l ih =>
      simp only [List.map_cons, List.sum_cons, List.length_cons, ih]
      split <;> ring
  rw [hsplit, hcount, List.length_range]

theorem sum_pulseWidth (l p : Nat) : ((List.range 16).map (pulseWidth l p)).sum = (l + l / 524288) * p / 65536 := by
  have hsum := sum_spread ((l + l / 524288) * p / 65536 / 16) ⟨(l + l / 524288) * p / 65536 % 16, Nat.mod_lt _ (by decide)⟩
  exact hsum.trans (Nat.div_add_mod _ _)

/-- No pulse sent is shorter than 8 cycles (R331). -/
theorem pulse_width (a w : Nat) : (pulse a w).2.1 = 0 ∨ 8 ≤ (pulse a w).2.1 := by
  unfold pulse
  split
  · assumption
  · split
    · exact .inr (Nat.le_refl 8)
    · exact .inl rfl

/-- What a short pulse does not send, it keeps (R331). -/
theorem pulse_keeps {a w : Nat} (hpos : 0 < w) (hlt : w < 8) : (pulse a w).1 + (pulse a w).2.1 = a + w := by
  have hshort : ¬(w = 0 ∨ 8 ≤ w) := by omega
  rw [pulse, if_neg hshort]
  split
  · dsimp only
    omega
  · rfl

/-! ## A wrap -/

theorem gangOf_lt (g : Word) {i : Nat} (h : i < 16) : (gangOf g i).1 < 16 := by
  unfold gangOf
  split_ifs <;> dsimp only <;> omega

/-- Each channel of a period that begins: its gang's leader gives the level, and the pulse has a legal width. -/
theorem Flight.begin_ch (l : Flight) (k : Nat) (level : Nat → BitVec 20) (i : Fin 16) :
    ((l.begin k level).ch[i]).level = level (gangOf l.actGang i).1 ∧
      (((l.begin k level).ch[i]).width = 0 ∨ 8 ≤ ((l.begin k level).ch[i]).width) := by
  have hlead := gangOf_lt l.actGang i.isLt
  have hlevel : (vget (l.ch.mapIdx fun i (c : EmtCh) => { c with level := level i }) (gangOf l.actGang i).1 {}).level =
      level (gangOf l.actGang i).1 := by
    rw [show (gangOf l.actGang i).1 = (⟨(gangOf l.actGang i).1, hlead⟩ : Fin 16).val from rfl, vget_mapIdx _ _ _ {}]
  simp only [Flight.begin, Fin.getElem_fin, Vector.getElem_mapIdx]
  exact ⟨hlevel, pulse_width _ _⟩

theorem Flight.begin_act (l : Flight) (k : Nat) (level : Nat → BitVec 20) :
    (l.begin k level).actEn = l.actEn ∧ (l.begin k level).actGang = l.actGang ∧ (l.begin k level).actCfg = l.actCfg := by
  simp only [Flight.begin, and_self]

/-- With the levels presented before the latest boundary, a wrap loads them (R29). -/
theorem loadLevel_pre {s : State} (hlook : s.ros.look = false) (htick : s.emt.preTick < s.chn.ticks) (l : Flight) (f i : Nat) :
    loadLevel s f (loadsNew s l) i = (vget (vget s.emt.fl f {}).ch i {}).pre := by
  simp [loadLevel, loadsNew, hlook, htick]

/-- The flight that a wrap leaves: its preloads taken, and a period begun. -/
theorem emtWrap_flight (f : Fin 4) (s : State) :
    ∃ k w x t, (emtWrap f s).emt.fl[f] = { (s.emt.fl[f]).copyPreloads.begin k
      (loadLevel s f (loadsNew s (s.emt.fl[f]).copyPreloads)) with wraps := w, frameIdx := x, took := t } := by
  rw [← vget_fin s.emt.fl f {}]
  exact ⟨_, _, _, _, Vector.getElem_setIfInBounds_self _⟩

theorem emtWrap_other {f g : Fin 4} (h : g ≠ f) (s : State) : (emtWrap f s).emt.fl[g] = s.emt.fl[g] :=
  Vector.getElem_setIfInBounds_ne _ fun hval => h (Fin.ext hval.symm)

theorem Flight.copyPreloads_cfg {l : Flight} (h : bit l.fcfg 31 = false) : l.copyPreloads.actCfg = l.fcfg :=
  if_neg (ne_true_of_eq_false h)

/-- What a wrap leaves in its flight (R329, R331, R333). -/
theorem emtWrap_spec (f : Fin 4) (s : State) :
    ((emtWrap f s).emt.fl[f]).actEn = (s.emt.fl[f]).en ∧ ((emtWrap f s).emt.fl[f]).actGang = (s.emt.fl[f]).gang ∧
      (bit (s.emt.fl[f]).fcfg 31 = false → ((emtWrap f s).emt.fl[f]).actCfg = (s.emt.fl[f]).fcfg) ∧
      (∀ i : Fin 16, (((emtWrap f s).emt.fl[f]).ch[i]).width = 0 ∨ 8 ≤ (((emtWrap f s).emt.fl[f]).ch[i]).width) ∧
      (s.ros.look = false → s.emt.preTick < s.chn.ticks → ∀ i : Fin 16, (((emtWrap f s).emt.fl[f]).ch[i]).level =
        (vget (s.emt.fl[f]).ch (gangOf (s.emt.fl[f]).gang i).1 {}).pre) := by
  obtain ⟨k, w, x, t, hflight⟩ := emtWrap_flight f s
  rw [hflight]
  have hch := Flight.begin_ch (s.emt.fl[f]).copyPreloads k (loadLevel s f (loadsNew s (s.emt.fl[f]).copyPreloads))
  obtain ⟨hen, hgang, hcfg⟩ :=
    Flight.begin_act (s.emt.fl[f]).copyPreloads k (loadLevel s f (loadsNew s (s.emt.fl[f]).copyPreloads))
  refine ⟨hen, hgang, fun hlock => hcfg.trans (Flight.copyPreloads_cfg hlock), fun i => (hch i).2, fun hlook htick i => ?_⟩
  rw [← vget_fin s.emt.fl f {}] at hch ⊢
  exact (hch i).1.trans (loadLevel_pre hlook htick _ _ _)

end Sys2Proof.Machine

/-! SUPPORT. Faults, ties, the scan and the link hood of the D-die (R337-R342), and the statement about the emitters. -/

namespace Sys2Proof.Machine

theorem exec_shortTrip (n : Fin 64) (s : State) : exec (.shortTrip n) s = .next (shortTrip n s) := rfl

theorem exec_openTrip (n : Fin 64) (s : State) :
    exec (.openTrip n) s = .next (if fld (drvEm s (leaderOf s n)).cfg 0 8 = 0 then s
      else report (.fault n) (modEm n (fun e => { e with
        open_ := true, fcnt := satInc e.fcnt, openHood := e.openHood || bit (drvEm s (leaderOf s n)).cfg 31 }) s)) := rfl

theorem exec_hiccupExpiry (n : Fin 64) (s : State) :
    exec (.hiccupExpiry n) s = .next (modEm n (fun e => if e.latched then e else { e with shortHood := none }) s) := rfl

theorem exec_shortClear (n : Fin 64) (s : State) :
    exec (.shortClear n) s = .next (if drvLink s then shortClear n s else s) := rfl

theorem exec_openClear (n : Fin 64) (s : State) :
    exec (.openClear n) s = .next (if drvLink s then openClear n s else s) := rfl

theorem exec_tieAck (hi : Bool) (m : Word) (s : State) :
    exec (.tieAck hi m) s = .next (if drvLink s then tieAck hi m s else s) := rfl

theorem exec_runtimeTie (n : Fin 64) (s : State) :
    exec (.runtimeTie n) s =
      .next (if s.pins.vfield && !((drvEm s n).valid && (drvEm s n).scan == 1) && !emHood s n then
        report (.tie n) (modEm n (fun e => { e with rtie := true, fcnt := satInc e.fcnt, rtieHood := true }) s)
      else s) := rfl

theorem exec_scanStart (s : State) : exec .scanStart s = .next (if drvLink s then scanStart s else s) := rfl

theorem exec_scanChannel (m : ScanMeas) (s : State) :
    exec (.scanChannel m) s = .next (if s.drv.scanBusy && decide (s.drv.scanPos < 64) then
      { s with drv := { s.drv with
          scanRes := s.drv.scanRes ++
            [classifyScan (fld (drvEm s (leaderOf s s.drv.scanPos)).cfg 16 6) s.drv.scanPos m]
          scanPos := s.drv.scanPos + 1 } }
      else s) := rfl

theorem exec_linkHoodRelease (s : State) : exec .linkHoodRelease s = .next (linkHoodRelease s) := rfl

/-! ## One emitter in the state -/

@[simp] theorem drvEm_modEm_self (n : Fin 64) (f : DrvEm → DrvEm) (s : State) : drvEm (modEm n f s) n = f (drvEm s n) :=
  (vget_vmod _ _ _ _ _ n.isLt).trans (if_pos rfl)

theorem drvEm_modEm_other {n m : Fin 64} (h : m ≠ n) (f : DrvEm → DrvEm) (s : State) :
    drvEm (modEm n f s) m = drvEm s m :=
  (vget_vmod _ _ _ _ _ n.isLt).trans (if_neg (Fin.val_ne_of_ne h))

@[simp] theorem drvEm_report (r : DrvReport) (s : State) (m : Nat) : drvEm (report r s) m = drvEm s m := rfl

/-- The bits of a TIEACK word among the 64 channels (R341). -/
theorem bit_tieMask (hi : Bool) (m : Word) (n : Fin 64) :
    bit (if hi then m.setWidth 64 <<< 32 else m.setWidth 64 : Quad) n = (n.val / 32 == hi.toNat && bit m (n.val % 32)) := by
  have hn := n.isLt
  cases hi
  case false =>
    by_cases hlow : n.val < 32
    · simp [bit, Nat.div_eq_of_lt hlow, Nat.mod_eq_of_lt hlow, hn]
    · have hdiv : n.val / 32 = 1 := by omega
      simp [bit, hdiv, BitVec.getLsbD_of_ge m n.val (by omega)]
  case true =>
    by_cases hlow : n.val < 32
    · simp [bit, Nat.div_eq_of_lt hlow, hlow]
    · have hdiv : n.val / 32 = 1 := by omega
      have hmod : n.val % 32 = n.val - 32 := by omega
      simp [bit, hdiv, hmod, hlow, hn]

theorem drvEm_tieAck (hi : Bool) (m : Word) (n : Fin 64) (s : State) :
    drvEm (tieAck hi m s) n =
      if (n.val / 32 == hi.toNat && bit m (n.val % 32)) = true then { drvEm s n with rtieHood := false } else drvEm s n := by
  rw [← bit_tieMask]
  exact vget_mapIdx s.drv.em _ n _ _

theorem drvEm_scanComplete (n : Fin 64) (s : State) :
    drvEm (scanComplete s) n = (drvEm s n).scanned (s.drv.scanRes.getD n (0, 0)) :=
  vget_mapIdx s.drv.em (fun n (e : DrvEm) => e.scanned (s.drv.scanRes.getD n (0, 0))) n {} {}

/-! ## The statement -/

/-- Settles O53: a wrap by the flight that it leaves (`emtWrap_spec`), the widths by `sum_pulseWidth` and `pulse_keeps`, and
every fault by the change of its own emitter. -/
theorem emittersAndFaults : Obligations.EmittersAndFaults := by
  refine ⟨fun f s => ⟨fun h => ?wrapOff, fun hpd hclk hmode => ?wrap⟩, sum_pulseWidth, fun a w => pulse_keeps,
    fun n s => ⟨?short, fun h => ?openOff, fun h => ?opened, ?hiccup, fun h => ?linkOff,
      fun h => ⟨?clear, ?clearOpen, fun hi m => ?ack⟩,
      fun h => ?tieOff, fun hv hscan hhood => ?tie⟩,
    fun s => ⟨fun h => ?startOff, fun hlink hmode hidle => ?start, fun m => ⟨fun h => ?channelOff, fun hbusy hpos => ?channel⟩,
      fun h => ?completeOff, fun hbusy hpos => ?complete, fun h => ?release, fun h => ?releaseOff⟩⟩
  case wrapOff => rcases h with h | h | h <;> simp [exec_emtWrap, h]
  case wrap =>
    obtain ⟨hen, hgang, hcfg, hwidth, hlevel⟩ := emtWrap_spec f s
    exact ⟨emtWrap f s, by simp [exec_emtWrap, hpd, hclk, hmode], rfl, fun g hg => emtWrap_other hg s, hen, hgang, hcfg, hwidth,
      hlevel⟩
  case short =>
    refine ⟨_, exec_shortTrip n s, ?_, ?_, ?_, ?_, rfl, fun m hm => drvEm_modEm_other hm _ s, rfl⟩ <;> simp [shortTrip]
  case openOff => exact exec_of_pos (exec_openTrip n s) h
  case opened =>
    exact gives_of_neg (exec_openTrip n s) h ⟨drvEm_modEm_self n _ s, rfl, fun m hm => drvEm_modEm_other hm _ s⟩
  case hiccup =>
    refine ⟨_, exec_hiccupExpiry n s, ?_, ?_, fun m hm => drvEm_modEm_other hm _ s, rfl⟩ <;>
      rw [drvEm_modEm_self] <;> split <;> rfl
  case linkOff =>
    refine ⟨?_, ?_, fun hi m => ?_⟩
    · simp [exec_shortClear, h]
    · simp [exec_openClear, h]
    · simp [exec_tieAck, h]
  case clear =>
    exact gives_of_pos (exec_shortClear n s) h ⟨drvEm_modEm_self n _ s, fun m hm => drvEm_modEm_other hm _ s, rfl⟩
  case clearOpen =>
    exact gives_of_pos (exec_openClear n s) h ⟨drvEm_modEm_self n _ s, fun m hm => drvEm_modEm_other hm _ s, rfl⟩
  case ack => exact gives_of_pos (exec_tieAck hi m s) h ⟨rfl, drvEm_tieAck hi m n s, rfl⟩
  case tieOff =>
    refine exec_of_neg (exec_runtimeTie n s) (ne_true_of_eq_false ?_)
    rcases h with h | h | h <;> rw [h]
    · rfl
    · rw [Bool.not_true, Bool.and_false, Bool.false_and]
    · exact Bool.and_false _
  case tie =>
    exact gives_of_pos (exec_runtimeTie n s) (by rw [hv, hscan, hhood]; rfl)
      ⟨drvEm_modEm_self n _ s, rfl, fun m hm => drvEm_modEm_other hm _ s⟩
  case startOff =>
    rcases h with h | h | h
    · simp [exec_scanStart, h]
    · simp [exec_scanStart, scanStart, h]
    · simp [exec_scanStart, scanStart, h]
  case start =>
    rw [exec_scanStart, if_pos hlink, scanStart, hmode, hidle]
    cases hv : s.pins.vfield <;> simp [beginScan, hv]
  case channelOff =>
    rcases h with h | h
    · simp [exec_scanChannel, h]
    · simp [exec_scanChannel, Nat.not_lt.mpr h]
  case channel => simp [exec_scanChannel, hbusy, hpos]
  case completeOff => rcases h with h | h <;> simp [exec_scanComplete, h]
  case complete =>
    have hems (n : Fin 64) : (drvEm (scanComplete s) n).valid = true ∧
        (drvEm (scanComplete s) n).scan = (s.drv.scanRes.getD n (0, 0)).1 ∧ (drvEm (scanComplete s) n).rtieHood = false ∧
        (drvEm (scanComplete s) n).short = ((drvEm s n).short || (s.drv.scanRes.getD n (0, 0)).1 == 2) ∧
        (drvEm (scanComplete s) n).open_ = ((drvEm s n).open_ || (s.drv.scanRes.getD n (0, 0)).1 == 1) := by
      rw [drvEm_scanComplete]
      exact ⟨rfl, rfl, rfl, rfl, rfl⟩
    refine gives_of_pos (exec_scanComplete s) (by rw [hbusy, hpos]; rfl) ?_
    cases hstep : inStep s 3
    case false => exact ⟨rfl, rfl, rfl, fun _ => rfl, hems⟩
    case true =>
      have hboot : s.mode.code = .boot := by
        simp only [inStep, Bool.and_eq_true, beq_iff_eq] at hstep
        exact hstep.1.1
      exact ⟨rfl, rfl, rfl, fun hne => absurd hboot hne, hems⟩
  case release => simp [exec_linkHoodRelease, linkHoodRelease, h]
  case releaseOff => simp [exec_linkHoodRelease, linkHoodRelease, h]

end Sys2Proof.Machine

/-! SUPPORT. One analog channel at a period boundary and at a strobe (R344-R349), one output stage (R352-R355, R417), and the
statement about the analog outputs. -/

namespace Sys2Proof.Machine

theorem vmod_getElem_self {α : Type} {n : Nat} (v : Vector α n) (i : Fin n) (f : α → α) : (vmod v i f)[i] = f v[i] := by
  rw [← vget_fin (vmod v i f) i v[i], vget_vmod _ _ _ _ _ i.isLt, if_pos rfl, vget_fin]

theorem vmod_getElem_other {α : Type} {n : Nat} (v : Vector α n) {i j : Fin n} (h : j ≠ i) (f : α → α) :
    (vmod v i f)[j] = v[j] := by
  rw [← vget_fin (vmod v i f) j v[j], vget_vmod _ _ _ _ _ i.isLt, if_neg (Fin.val_ne_of_ne h), vget_fin]

theorem fld_lt {n : Nat} (w : BitVec n) (lo len : Nat) : fld w lo len < 2 ^ len := Nat.mod_lt _ (Nat.two_pow_pos len)

/-! ## The rows -/

theorem exec_aoPeriod (s : State) :
    exec .aoPeriod s = .next (if aouRuns s then { s with aou := { s.aou with
        q := (s.aou.q + 1) % 16, ch := s.aou.ch.mapIdx fun n (c : AouCh) => c.period s.aou (lookCode s n) } } else s) := rfl

theorem exec_aoQueueWrite (n : Fin 16) (v : Half) (s : State) :
    exec (.aoQueueWrite n v) s = .next (if aouOn s then { s with aou := s.aou.queueWrite n v } else s) := rfl

theorem exec_aoQueueClear (n : Fin 16) (s : State) :
    exec (.aoQueueClear n) s = .next (if aouOn s then { s with aou := s.aou.queueClear n } else s) := rfl

theorem exec_aoStrobeFire (s : State) :
    exec .aoStrobeFire s = .next (if aouOn s then { s with aou := s.aou.strobeAll } else s) := rfl

theorem exec_aoStrobeMark (s : State) :
    exec .aoStrobeMark s = .next (if aouRuns s && s.aou.arm && s.aou.src == 2 then
      reachTime s.aou.mark { s with aou := { s.aou.strobeAll with arm := false } } else s) := rfl

theorem exec_aoStrobeLoad (s : State) :
    exec .aoStrobeLoad s = .next (if aouRuns s && s.aou.src == 3 then { s with aou := s.aou.strobeAll } else s) := rfl

theorem exec_aoMarkLoad (hi : Word) (s : State) :
    exec (.aoMarkLoad hi) s = .next (if aouOn s then { s with aou := s.aou.loadMark hi } else s) := rfl

theorem exec_aoStageChange (n : Fin 16) (m r : Bool) (s : State) :
    exec (.aoStageChange n m r) s = .next (if drvLink s then stageChange n m r s else s) := rfl

theorem exec_aoOvervoltage (n : Fin 16) (s : State) :
    exec (.aoOvervoltage n) s = .next (if aoIso s n then s else overvoltage n s) := rfl

theorem exec_aoReconnect (n : Fin 16) (h : Bool) (s : State) :
    exec (.aoReconnect n h) s = .next (if (vget s.drv.ao n {}).iso then
      (if h then overvoltage n (modAo n (fun a => { a with iso := false }) s)
        else modAo n (fun a => { a with iso := false }) s)
      else s) := rfl

/-! ## The limiter (R349) -/

theorem stepToward_near {code target : Half} (step : Nat) :
    let next : Half := BitVec.ofNat 16 (stepToward code.toNat target.toNat step)
    next.toNat ≤ code.toNat + step ∧ code.toNat ≤ next.toNat + step := by
  have hcode := code.isLt
  have htarget := target.isLt
  simp only [BitVec.toNat_ofNat, stepToward]
  split <;> rw [Nat.mod_eq_of_lt (by omega)] <;> omega

/-- The limiter moves the code alone, to the target when STEP is 0 and else by at most STEP. -/
theorem AouCh.limit_spec (c : AouCh) :
    c.limit = { c with code := c.limit.code, since := c.limit.since } ∧
      (fld c.cfg 16 16 = 0 → c.limit.code = c.target) ∧ (c.code = c.target → c.limit.code = c.code) ∧
      (fld c.cfg 16 16 ≠ 0 → c.limit.code.toNat ≤ c.code.toNat + fld c.cfg 16 16 ∧
        c.code.toNat ≤ c.limit.code.toNat + fld c.cfg 16 16) := by
  unfold AouCh.limit
  dsimp only
  split
  · next hstep => exact ⟨rfl, fun _ => rfl, fun h => h.symm, fun hne => absurd hstep hne⟩
  · next hstep =>
    split
    · exact ⟨rfl, fun h0 => absurd h0 hstep, fun _ => rfl, fun _ => ⟨Nat.le_add_right _ _, Nat.le_add_right _ _⟩⟩
    · next hwait =>
      exact ⟨rfl, fun h0 => absurd h0 hstep, fun h => absurd (.inl h) hwait, fun _ => stepToward_near _⟩

/-! ## A period boundary (R344, R348) -/

/-- The channel that meets the limiter: its MODE taken, and the target of this boundary. -/
def AouCh.arisen (a : Aou) (c : AouCh) : AouCh :=
  let m := BitVec.ofNat 2 (fld c.cfg 0 2)
  let keep := if m = c.mode then c.target else c.code
  let d := { c with target := c.next.getD keep, next := none, mode := m
                    phase := if m = 3 ∧ c.mode ≠ 3 then c.ph0 else c.phase }
  if m = 3 then { d with target := a.sineCode d, phase := d.phase + d.inc } else d

theorem AouCh.period_free (a : Aou) (c : AouCh) : c.period a none = (c.arisen a).limit.newMode c.mode := rfl

theorem AouCh.arisen_kept (a : Aou) (c : AouCh) :
    (c.arisen a).cfg = c.cfg ∧ (c.arisen a).code = c.code ∧ (c.arisen a).next = none ∧
      (c.arisen a).mode = BitVec.ofNat 2 (fld c.cfg 0 2) := by
  unfold AouCh.arisen
  dsimp only
  split <;> exact ⟨rfl, rfl, rfl, rfl⟩

/-- Under a look the limiter meets the channel with the saved code as its target (R408). -/
theorem AouCh.period_look (a : Aou) (v : Half) (c : AouCh) :
    ∃ d : AouCh, c.period a (some v) = d.limit ∧ d.target = v ∧ d.cfg = c.cfg ∧ d.code = c.code ∧ d.next = none ∧
      d.mode = BitVec.ofNat 2 (fld c.cfg 0 2) :=
  ⟨_, rfl, rfl, c.arisen_kept a⟩

theorem AouCh.arisen_target (a : Aou) {c : AouCh} (h : fld c.cfg 0 2 ≠ 3) :
    (c.arisen a).target = c.next.getD (if fld c.cfg 0 2 = c.mode.toNat then c.target else c.code) := by
  have hlt := fld_lt c.cfg 0 2
  have hmode (m : BitVec 2) : BitVec.ofNat 2 (fld c.cfg 0 2) = m ↔ fld c.cfg 0 2 = m.toNat := by
    rw [← BitVec.toNat_inj, BitVec.toNat_ofNat, Nat.mod_eq_of_lt hlt]
  unfold AouCh.arisen
  dsimp only
  rw [if_neg (fun h3 => h ((hmode 3).mp h3)), if_congr (hmode c.mode) rfl rfl]

/-- A new MODE may make the code the target, and changes nothing else. -/
theorem AouCh.newMode_kept (old : BitVec 2) (c : AouCh) :
    (c.newMode old).next = c.next ∧ (c.newMode old).mode = c.mode ∧ (c.newMode old).code = c.code ∧
      (c.code = c.target → (c.newMode old).target = c.target) := by
  unfold AouCh.newMode
  split
  · exact ⟨rfl, rfl, rfl, fun _ => rfl⟩
  · exact ⟨rfl, rfl, rfl, id⟩

/-- What a period boundary does to every channel. -/
theorem AouCh.period_spec (a : Aou) (look : Option Half) (c : AouCh) :
    (c.period a look).next = none ∧ (c.period a look).mode.toNat = fld c.cfg 0 2 ∧
      (fld c.cfg 16 16 = 0 → (c.period a look).code = (c.period a look).target) ∧
      (fld c.cfg 16 16 ≠ 0 → (c.period a look).code.toNat ≤ c.code.toNat + fld c.cfg 16 16 ∧
        c.code.toNat ≤ (c.period a look).code.toNat + fld c.cfg 16 16) := by
  have hmode : (BitVec.ofNat 2 (fld c.cfg 0 2)).toNat = fld c.cfg 0 2 := Nat.mod_eq_of_lt (fld_lt c.cfg 0 2)
  obtain ⟨hcfg, hcode, hnext, hm⟩ := c.arisen_kept a
  cases look
  case some v =>
    obtain ⟨d, hd, -, dcfg, dcode, dnext, dmode⟩ := c.period_look a v
    obtain ⟨hframe, hzero, -, hnear⟩ := d.limit_spec
    rw [dcfg, dcode] at hnear
    rw [dcfg] at hzero
    rw [hd]
    refine ⟨by rw [hframe, ← dnext], by rw [hframe, ← hmode, ← dmode], fun h => ?_, hnear⟩
    rw [hzero h, hframe]
  case none =>
    obtain ⟨hframe, hzero, -, hnear⟩ := (c.arisen a).limit_spec
    obtain ⟨gnext, gmode, gcode, gtarget⟩ := (c.arisen a).limit.newMode_kept c.mode
    rw [hcfg, hcode] at hnear
    rw [hcfg] at hzero
    have htarget : (c.arisen a).limit.target = (c.arisen a).target := by rw [hframe]
    rw [AouCh.period_free, gnext, gmode, gcode]
    refine ⟨by rw [hframe, ← hnext], by rw [hframe, ← hmode, ← hm], fun h => ?_, hnear⟩
    have hreached := (hzero h).trans htarget.symm
    rw [gtarget hreached, hreached]

theorem AouCh.period_look_target (a : Aou) (v : Half) (c : AouCh) : (c.period a (some v)).target = v := by
  obtain ⟨d, hd, htarget, -⟩ := c.period_look a v
  obtain ⟨hframe, -⟩ := d.limit_spec
  rw [hd, hframe, htarget]

/-- In a MODE other than SINE that stays, a waiting target code becomes the target. -/
theorem AouCh.period_same_mode (a : Aou) {c : AouCh} (hsine : fld c.cfg 0 2 ≠ 3) (h : fld c.cfg 0 2 = c.mode.toNat) :
    (c.period a none).target = c.next.getD c.target := by
  obtain ⟨hframe, -⟩ := (c.arisen a).limit_spec
  obtain ⟨-, -, -, hm⟩ := c.arisen_kept a
  have hmode : (c.arisen a).limit.mode = c.mode := by rw [hframe, hm, h, BitVec.ofNat_toNat, BitVec.setWidth_eq]
  have htarget : (c.arisen a).limit.target = (c.arisen a).target := by rw [hframe]
  rw [AouCh.period_free, AouCh.newMode, if_pos (.inl hmode), htarget, AouCh.arisen_target a hsine, if_pos h]

/-- A new MODE other than SINE waits with the code that stands (R344). -/
theorem AouCh.period_new_mode (a : Aou) {c : AouCh} (hsine : fld c.cfg 0 2 ≠ 3) (h : fld c.cfg 0 2 ≠ c.mode.toNat) :
    (c.period a none).target = (c.period a none).code ∧ (c.next = none → (c.period a none).code = c.code) := by
  obtain ⟨hframe, -, hstay, -⟩ := (c.arisen a).limit_spec
  obtain ⟨-, hcode, -, hm⟩ := c.arisen_kept a
  have hlimit : (c.arisen a).limit.mode.toNat = fld c.cfg 0 2 := by
    rw [hframe, hm]
    exact Nat.mod_eq_of_lt (fld_lt c.cfg 0 2)
  have hmode : ¬((c.arisen a).limit.mode = c.mode ∨ (c.arisen a).limit.mode = 3) := by
    rintro (heq | heq)
    · exact h (by rw [← hlimit, heq])
    · exact hsine (by rw [← hlimit, heq]; rfl)
  rw [AouCh.period_free, AouCh.newMode, if_neg hmode]
  refine ⟨rfl, fun hnext => ?_⟩
  have htarget := AouCh.arisen_target a hsine
  rw [hnext, if_neg h, Option.getD_none] at htarget
  exact (hstay (hcode.trans htarget.symm)).trans hcode

/-! ## Strobes and the queue (R345, R346) -/

/-- What a strobe does to channel `n` of an array. -/
def Strobes (a : Aou) (ch : Vector AouCh 16) : Prop := ∀ n : Fin 16,
  (bit a.smask n = false ∨ (a.ch[n]).mode = 0 ∨ (a.ch[n]).mode = 1 → ch[n] = a.ch[n]) ∧
  (bit a.smask n = true → (a.ch[n]).mode = 2 →
    ch[n] = { a.ch[n] with next := some (if bit (a.ch[n]).cfg 4 then (a.ch[n]).merge else (a.ch[n]).stg) }) ∧
  (bit a.smask n = true → (a.ch[n]).mode = 3 → ch[n] = { a.ch[n] with phase := (a.ch[n]).ph0 })

theorem AouCh.strobe_none {c : AouCh} (h : c.mode = 0 ∨ c.mode = 1) : c.strobe = c := by
  rcases h with h | h <;> simp [AouCh.strobe, h]

theorem AouCh.strobe_sine {c : AouCh} (h : c.mode = 3) : c.strobe = { c with phase := c.ph0 } := by
  simp [AouCh.strobe, h]

theorem Aou.strobeAll_strobes (a : Aou) : Strobes a a.strobeAll.ch := by
  intro n
  have hch : a.strobeAll.ch[n] = if bit a.smask n then (a.ch[n]).strobe else a.ch[n] := Vector.getElem_mapIdx n.isLt
  rw [hch]
  refine ⟨fun h => ?_, fun hmask hmode => ?_, fun hmask hmode => ?_⟩
  · rcases h with h | h
    · rw [h, if_neg Bool.false_ne_true]
    · rw [AouCh.strobe_none h, ite_self]
  · rw [if_pos hmask, AouCh.strobe, if_pos hmode]
  · rw [if_pos hmask, AouCh.strobe_sine hmode]

theorem Aou.queueWrite_room {a : Aou} {n : Fin 16} (h : (a.ch[n]).fifo.length < 32) (v : Half) :
    a.queueWrite n v = a.mod n fun c => { c with fifo := c.fifo ++ [v] } := by
  rw [Aou.queueWrite, vget_fin, if_neg (Nat.not_le.mpr h)]

theorem Aou.queueWrite_full {a : Aou} {n : Fin 16} (h : 32 ≤ (a.ch[n]).fifo.length) (v : Half) :
    a.queueWrite n v = { a with ovr := setBit a.ovr n true } := by
  rw [Aou.queueWrite, vget_fin, if_pos h]

/-! ## One output stage -/

theorem modAo_self (n : Fin 16) (f : DrvAo → DrvAo) (s : State) : (modAo n f s).drv.ao[n] = f s.drv.ao[n] :=
  vmod_getElem_self _ n f

theorem modAo_other {n m : Fin 16} (h : m ≠ n) (f : DrvAo → DrvAo) (s : State) : (modAo n f s).drv.ao[m] = s.drv.ao[m] :=
  vmod_getElem_other _ h f

theorem overvoltage_spec (n : Fin 16) (s : State) :
    (overvoltage n s).drv.ao[n] = { s.drv.ao[n] with ov := true, iso := true, ovcnt := satInc (s.drv.ao[n]).ovcnt } ∧
      (overvoltage n s).drv.reports = s.drv.reports ++ [.analog n] :=
  ⟨modAo_self n _ s, rfl⟩

/-- The two bits of a stage's configuration (R352). -/
theorem bit_stageCfg (w : Word) (m r : Bool) :
    bit (setBit (setBit w 31 m) 30 r) 31 = m ∧ bit (setBit (setBit w 31 m) 30 r) 30 = r := by
  simp [bit_setBit]

/-! ## The statement -/

/-- Settles O54: a period channel by channel (`AouCh.period_spec`), the strobes by `Aou.strobeAll_strobes`, and the stages by the
change of their own output. -/
theorem analogOutputs : Obligations.AnalogOutputs := by
  refine ⟨fun s => ⟨fun h => ?still, fun h => ?period⟩, fun n v hi s h => ?off,
    fun s h => ⟨fun n v => ⟨fun hroom => ?room, fun hfull => ?full, ?clear⟩, fun c hc hruns hmark hload => ?strobe,
      fun hno => ?noMark,
      fun hno => ?noLoad, fun hi => ?loadMark⟩,
    fun n s => ⟨fun m r => ⟨fun h => ?noChange, fun h => ?change⟩, ?changeover, ?contention,
      fun h => ?isolated, fun h => ?excess,
      fun h b => ?connected, fun h => ⟨?low, ?high⟩⟩, fun s => ⟨rfl, rfl⟩⟩
  case still =>
    simp only [List.forall_mem_cons, List.not_mem_nil, false_implies, implies_true, and_true]
    exact ⟨by simp [exec_aoPeriod, h], by simp [exec_aoStrobeMark, h], by simp [exec_aoStrobeLoad, h]⟩
  case period =>
    refine gives_of_pos (exec_aoPeriod s) h ⟨rfl, fun n => ?_⟩
    have hch : (s.aou.ch.mapIdx fun n (c : AouCh) => c.period s.aou (lookCode s n))[n] =
        (s.aou.ch[n]).period s.aou (lookCode s n) := Vector.getElem_mapIdx n.isLt
    rw [hch]
    obtain ⟨hnext, hmode, hzero, hnear⟩ := (s.aou.ch[n]).period_spec s.aou (lookCode s n)
    refine ⟨hnext, hmode, fun v hlook => ?_, fun hlook hsine => ?_, hzero, hnear⟩
    · rw [hlook]
      exact AouCh.period_look_target _ v _
    · rw [hlook]
      exact ⟨AouCh.period_same_mode _ hsine, AouCh.period_new_mode _ hsine⟩
  case off =>
    simp only [List.forall_mem_cons, List.not_mem_nil, false_implies, implies_true, and_true]
    exact ⟨by simp [exec_aoQueueWrite, h], by simp [exec_aoQueueClear, h], by simp [exec_aoStrobeFire, h],
      by simp [exec_aoMarkLoad, h]⟩
  case room =>
    refine gives_of_pos (exec_aoQueueWrite n v s) h ?_
    rw [Aou.queueWrite_room hroom]
    exact ⟨vmod_getElem_self _ n _, fun m hm => vmod_getElem_other _ hm _, rfl⟩
  case full => rw [exec_of_pos (exec_aoQueueWrite n v s) h, Aou.queueWrite_full hfull]
  case clear =>
    exact gives_of_pos (exec_aoQueueClear n s) h ⟨vmod_getElem_self _ n _, fun m hm => vmod_getElem_other _ hm _, rfl⟩
  case strobe =>
    have hstrobes := s.aou.strobeAll_strobes
    simp only [List.mem_cons, List.not_mem_nil, or_false] at hc
    obtain rfl | rfl | rfl := hc
    · exact gives_of_pos (exec_aoStrobeFire s) h ⟨rfl, nofun, fun _ => ⟨rfl, rfl⟩, hstrobes⟩
    · obtain ⟨harm, hsrc⟩ := hmark rfl
      obtain ⟨hreached, -, hframe⟩ := reachTime_spec s.aou.mark { s with aou := { s.aou.strobeAll with arm := false } }
      refine gives_of_pos (exec_aoStrobeMark s) ?_ ?_
      · rw [hruns nofun, harm, Aou.src, hsrc]
        rfl
      · have hch : (reachTime s.aou.mark { s with aou := { s.aou.strobeAll with arm := false } }).aou.ch = s.aou.strobeAll.ch := by
          rw [hframe]
        refine ⟨?_, fun _ => ⟨?_, hreached⟩, fun hne => absurd rfl hne, by rw [hch]; exact hstrobes⟩ <;> rw [hframe]
        rfl
    · refine gives_of_pos (exec_aoStrobeLoad s) ?_ ⟨rfl, nofun, fun _ => ⟨rfl, rfl⟩, hstrobes⟩
      rw [hruns nofun, Aou.src, hload rfl]
      rfl
  case noMark =>
    refine exec_of_neg (exec_aoStrobeMark s) (ne_true_of_eq_false ?_)
    rcases hno with hno | hno
    · rw [hno, Bool.and_false, Bool.false_and]
    · rw [Aou.src, beq_eq_false_iff_ne.mpr hno, Bool.and_false]
  case noLoad =>
    refine exec_of_neg (exec_aoStrobeLoad s) (ne_true_of_eq_false ?_)
    rw [Aou.src, beq_eq_false_iff_ne.mpr hno, Bool.and_false]
  case loadMark => exact exec_of_pos (exec_aoMarkLoad hi s) h
  case noChange => simp [exec_aoStageChange, h]
  case change =>
    obtain ⟨hmode, hrange⟩ := bit_stageCfg (s.drv.ao[n]).cfg m r
    refine gives_of_pos (exec_aoStageChange n m r s) h ⟨?_, ?_, ?_, fun j hj => modAo_other hj _ s, rfl⟩ <;>
      rw [stageChange, modAo_self]
    · exact hmode
    · exact hrange
  case changeover => exact ⟨_, rfl, modAo_self n _ s, rfl⟩
  case contention => exact ⟨_, rfl, modAo_self n _ s, rfl⟩
  case isolated => exact exec_of_pos (exec_aoOvervoltage n s) h
  case excess => exact gives_of_neg (exec_aoOvervoltage n s) (ne_true_of_eq_false h) (overvoltage_spec n s)
  case connected =>
    refine exec_of_neg (exec_aoReconnect n b s) (ne_true_of_eq_false ?_)
    rw [vget_fin, h]
  case low =>
    exact gives_of_pos (exec_aoReconnect n false s) (by rw [vget_fin, h]) ⟨modAo_self n _ s, rfl⟩
  case high =>
    obtain ⟨hstage, hreports⟩ := overvoltage_spec n (modAo n (fun a => { a with iso := false }) s)
    refine gives_of_pos (exec_aoReconnect n true s) (by rw [vget_fin, h]) ⟨?_, ?_, hreports⟩ <;>
      rw [if_pos rfl, hstage, modAo_self]

end Sys2Proof.Machine

/-! SUPPORT. The end of a refresh and of a DMX packet (R357, R397-R399), and the statement about the pixel and DMX ports. -/

namespace Sys2Proof.Machine

theorem exec_pixRefreshEnd (p : Fin 4) (s : State) :
    exec (.pixRefreshEnd p) s = .next (if (vget s.pix.port p {}).busy && !(vget s.pix.port p {}).gap then
      when (bit (vget (vget s.pix.port p {}).act 0 0) 27) (raise .pix)
        { s with pix := { s.pix with port := vmod s.pix.port p fun x => { x with gap := true } } } else s) := rfl

theorem exec_pixGapEnd (p : Fin 4) (s : State) :
    exec (.pixGapEnd p) s = .next { s with pix := { s.pix with port := vmod s.pix.port p fun x =>
      if x.gap then { x with busy := false, gap := false } else x } } := rfl

theorem exec_dmxPacketEnd (p : Fin 2) (bytes : List Byte) (e : Bool) (s : State) :
    exec (.dmxPacketEnd p bytes e) s = .next (if dmxInputPort s p then dmxPacket p bytes e s else s) := rfl

theorem exec_dmxLost (p : Fin 2) (s : State) :
    exec (.dmxLost p) s = .next (if dmxInputPort s p && !(dmxPort s p).lost then
      raise .dmx (modDmx p (fun x => { x with lost := true }) s) else s) := rfl

theorem exec_dmxTxPacketEnd (p : Fin 2) (s : State) :
    exec (.dmxTxPacketEnd p) s = .next (if dmxOn s && (dmxPort s p).txBusy then
      modDmx p (fun x => { x with txBusy := false, pkts := satInc x.pkts }) s else s) := rfl

/-! ## One pixel port -/

/-- Replacing an element by itself. -/
theorem vmod_of_fixed {α : Type} {n : Nat} (v : Vector α n) (i : Fin n) {f : α → α} (h : f v[i] = v[i]) : vmod v i f = v := by
  ext j hj
  by_cases hij : (⟨j, hj⟩ : Fin n) = i
  · subst hij
    exact (vmod_getElem_self v _ f).trans h
  · exact vmod_getElem_other v hij f

theorem when_raise_raises (b : Bool) (c : Cause) (s : State) :
    Raises s (when b (raise c) s) ∧ (b = true → raised c (when b (raise c) s) = true) ∧
      (b = false → when b (raise c) s = s) := by
  cases b
  case false => exact ⟨Raises.refl s, nofun, fun _ => rfl⟩
  case true => exact ⟨raise_raises c s, fun _ => raised_raise c s, nofun⟩

/-! ## One DMX port -/

@[simp] theorem dmxPort_modDmx_self (p : Fin 2) (f : DmxPort → DmxPort) (s : State) :
    dmxPort (modDmx p f s) p = f (dmxPort s p) := by simp [dmxPort, modDmx]

@[simp] theorem dmxPort_modDmx_other (p : Fin 2) (f : DmxPort → DmxPort) (s : State) :
    dmxPort (modDmx p f s) (1 - p) = dmxPort s (1 - p) := by
  have hne : ∀ p : Fin 2, p.val ≠ (1 - p : Fin 2).val := by decide
  simp [dmxPort, modDmx, Vector.getElem_set_ne _ _ (hne p)]

@[simp] theorem dmxPort_raise (p : Fin 2) (c : Cause) (s : State) : dmxPort (raise c s) p = dmxPort s p := rfl

/-- A framing error counts (R397). -/
def countFraming (p : Fin 2) (e : Bool) (s : State) : State := when e (modDmx p fun x => { x with frerr := satInc x.frerr }) s

theorem countFraming_spec (p : Fin 2) (e : Bool) (s : State) :
    countFraming p e s = { s with dmx := { s.dmx with port := (countFraming p e s).dmx.port } } ∧
      dmxPort (countFraming p e s) p =
        { dmxPort s p with frerr := if e then satInc (dmxPort s p).frerr else (dmxPort s p).frerr } ∧
      dmxPort (countFraming p e s) (1 - p) = dmxPort s (1 - p) := by
  cases e
  case false => exact ⟨rfl, rfl, rfl⟩
  case true =>
    exact ⟨rfl, dmxPort_modDmx_self p (fun x => { x with frerr := satInc x.frerr }) s,
      dmxPort_modDmx_other p (fun x => { x with frerr := satInc x.frerr }) s⟩

/-! ## A packet by its start code (R397) -/

theorem dmxPacket_null (p : Fin 2) (slots : List Byte) (e : Bool) (s : State) :
    dmxPacket p (0 :: slots) e s =
      dmxLevels p slots (modDmx p (fun x => { x with pkts := satInc x.pkts, lost := false }) (countFraming p e s)) := rfl

theorem dmxPacket_nonnull {c : Byte} (hnull : c ≠ 0) (p : Fin 2) (slots : List Byte) (e : Bool) (s : State) :
    dmxPacket p (c :: slots) e s =
      if c = 0xCC ∧ bit (dmxPort s p).cfg 29 = true then countFraming p e s
      else modDmx p (fun x => { x with altsc := satInc x.altsc }) (countFraming p e s) := by
  obtain ⟨-, hport, -⟩ := countFraming_spec p e s
  have hcfg : (dmxPort (countFraming p e s) p).cfg = (dmxPort s p).cfg := by rw [hport]
  rw [← hcfg]
  exact if_neg hnull

/-- An RDM request is left to the responder (log entry 39). -/
theorem dmxPacket_rdm {p : Fin 2} {s : State} (h : bit (dmxPort s p).cfg 29 = true) (slots : List Byte) (e : Bool) :
    dmxPacket p (0xCC :: slots) e s = countFraming p e s := by
  rw [dmxPacket_nonnull (by decide), if_pos ⟨rfl, h⟩]

theorem dmxPacket_altsc {p : Fin 2} {c : Byte} {s : State} (hnull : c ≠ 0)
    (h : c ≠ 0xCC ∨ bit (dmxPort s p).cfg 29 = false) (slots : List Byte) (e : Bool) :
    dmxPacket p (c :: slots) e s = modDmx p (fun x => { x with altsc := satInc x.altsc }) (countFraming p e s) := by
  rw [dmxPacket_nonnull hnull, if_neg]
  rintro ⟨hcc, hrdm⟩
  exact h.elim (absurd hcc) fun hoff => Bool.false_ne_true (hoff.symm.trans hrdm)

/-! ## The levels of a NULL packet (R398) -/

/-- What accepting a level leaves alone beside merge and the sessions. -/
theorem acceptLevel_leaves (n : SIdx) (target level : Nat) (key : Option CellKey) (tick : Nat) (s : State) :
    ((acceptLevel n target level key tick s).dmx, (acceptLevel n target level key tick s).mem,
      (acceptLevel n target level key tick s).emt) = (s.dmx, s.mem, s.emt) := by
  unfold acceptLevel
  dsimp only
  split
  · rfl
  · split
    · rfl
    · split <;> rfl

theorem dmxLevels_leaves (p : Fin 2) (slots : List Byte) (s : State) :
    ((dmxLevels p slots s).dmx, (dmxLevels p slots s).mem, (dmxLevels p slots s).emt) = (s.dmx, s.mem, s.emt) := by
  unfold dmxLevels
  dsimp only
  split
  · rfl
  · refine foldl_keep (fun s : State => (s.dmx, s.mem, s.emt)) _ (fun s k => ?_) _ s
    split
    · split
      · exact acceptLevel_leaves _ _ _ _ _ s
      · rfl
    · rfl

/-- With merge off or no mapped target nothing waits. -/
theorem dmxLevels_idle {p : Fin 2} {s : State} (h : pdOn s 12 = false ∨ fld (dmxPort s p).map 0 10 = 0) (slots : List Byte) :
    (dmxLevels p slots s).mrg = s.mrg := by
  unfold dmxLevels
  dsimp only
  rcases h with h | h
  · rw [h]
    rfl
  · split
    · rfl
    · rw [h]
      have hwait : orderDmx p s.mrg.wait.length s.mrg.wait = s.mrg.wait := by simp [orderDmx]
      exact congrArg (fun w => { s.mrg with wait := w }) hwait

theorem dmxPacket_null_spec (p : Fin 2) (slots : List Byte) (e : Bool) (s : State) :
    let t := dmxPacket p (0 :: slots) e s
    dmxPort t p = { dmxPort s p with
      frerr := if e then satInc (dmxPort s p).frerr else (dmxPort s p).frerr
      pkts := satInc (dmxPort s p).pkts, lost := false } ∧
      dmxPort t (1 - p) = dmxPort s (1 - p) ∧ t.mem = s.mem ∧ t.emt = s.emt ∧
      (pdOn s 12 = false ∨ fld (dmxPort s p).map 0 10 = 0 → t.mrg = s.mrg) := by
  obtain ⟨hframe, hport, hother⟩ := countFraming_spec p e s
  rw [dmxPacket_null]
  generalize countFraming p e s = u at hframe hport hother
  have hself := dmxPort_modDmx_self p (fun x => { x with pkts := satInc x.pkts, lost := false }) u
  have hmod := dmxPort_modDmx_other p (fun x => { x with pkts := satInc x.pkts, lost := false }) u
  have hon : pdOn (modDmx p (fun x => { x with pkts := satInc x.pkts, lost := false }) u) 12 = pdOn s 12 := by rw [hframe]; rfl
  have hmem : (modDmx p (fun x => { x with pkts := satInc x.pkts, lost := false }) u).mem = s.mem := by rw [hframe]; rfl
  have hemt : (modDmx p (fun x => { x with pkts := satInc x.pkts, lost := false }) u).emt = s.emt := by rw [hframe]; rfl
  have hmrg : (modDmx p (fun x => { x with pkts := satInc x.pkts, lost := false }) u).mrg = s.mrg := by rw [hframe]; rfl
  generalize modDmx p (fun x => { x with pkts := satInc x.pkts, lost := false }) u = v at hself hmod hon hmem hemt hmrg
  have hleaves := dmxLevels_leaves p slots v
  simp only [Prod.mk.injEq] at hleaves
  obtain ⟨ldmx, lmem, lemt⟩ := hleaves
  have hlevels (q : Fin 2) : dmxPort (dmxLevels p slots v) q = dmxPort v q := by rw [dmxPort, ldmx, dmxPort]
  rw [hport] at hself
  refine ⟨(hlevels p).trans hself, (hlevels _).trans (hmod.trans hother), lmem.trans hmem, lemt.trans hemt, fun h => ?_⟩
  refine (dmxLevels_idle (h.imp (fun h => hon.trans h) fun h => ?_) slots).trans hmrg
  rw [hself]
  exact h

/-! ## The statement -/

/-- Settles O55: a pixel port by its own change, a packet by its start code (`dmxPacket_null`, `dmxPacket_other`,
`dmxPacket_rdm`) on what `countFraming` leaves. -/
theorem pixelAndDmxPorts : Obligations.PixelAndDmxPorts := by
  refine ⟨fun p s => ⟨fun h => ?noRefresh, fun hbusy hgap => ?refresh, fun h => ?noGap, fun h => ?gap⟩,
    fun p s => ⟨fun h => ⟨fun b e => ?noPacket, ?noLost⟩, fun h e slots => ⟨?empty, fun c => ?packet⟩, fun h hlost => ?lost,
      fun h => ?lostAlready, fun h => ?noTx, fun hon hbusy => ?tx⟩⟩
  case noRefresh =>
    refine exec_of_neg (exec_pixRefreshEnd p s) (ne_true_of_eq_false ?_)
    rw [vget_fin]
    rcases h with h | h <;> rw [h]
    · rfl
    · exact Bool.and_false _
  case refresh =>
    refine gives_of_pos (exec_pixRefreshEnd p s) (by rw [vget_fin, hbusy, hgap]; rfl) ?_
    have hact : vget (vget s.pix.port p {}).act 0 0 = (s.pix.port[p]).act[0] := by rw [vget_fin]; rfl
    rw [hact]
    obtain ⟨⟨hframe, -⟩, hraised, hquiet⟩ := when_raise_raises (bit ((s.pix.port[p]).act[0]) 27) .pix
      { s with pix := { s.pix with port := vmod s.pix.port p fun x => { x with gap := true } } }
    refine ⟨?_, fun q hq => ?_, hraised, fun h => ?_⟩
    · rw [hframe]
      exact vmod_getElem_self _ p _
    · rw [hframe]
      exact vmod_getElem_other _ hq _
    · rw [hquiet h]
  case noGap =>
    have hport := vmod_of_fixed s.pix.port p (f := fun x => if x.gap then { x with busy := false, gap := false } else x)
      (if_neg (ne_true_of_eq_false h))
    rw [exec_pixGapEnd, hport]
  case gap =>
    exact ⟨_, exec_pixGapEnd p s, (vmod_getElem_self _ p _).trans (if_pos h), fun q hq => vmod_getElem_other _ hq _, rfl⟩
  case noPacket => simp [exec_dmxPacketEnd, h]
  case noLost => simp [exec_dmxLost, h]
  case empty =>
    obtain ⟨hframe, hport, -⟩ := countFraming_spec p e s
    exact gives_of_pos (exec_dmxPacketEnd p [] e s) h ⟨hframe, hport⟩
  case packet =>
    refine gives_of_pos (exec_dmxPacketEnd p (c :: slots) e s) h ?_
    obtain ⟨hframe, hport, hother⟩ := countFraming_spec p e s
    by_cases hnull : c = 0
    · subst hnull
      obtain ⟨nport, nother, nmem, nemt, nmrg⟩ := dmxPacket_null_spec p slots e s
      refine ⟨by rw [nport], nother, nmem, nemt, fun _ => ?_, fun hne => absurd rfl hne, nofun⟩
      rw [nport]
      exact ⟨rfl, rfl, rfl, nmrg⟩
    · by_cases hrdm : c = 0xCC ∧ bit (dmxPort s p).cfg 29 = true
      · obtain ⟨rfl, hon⟩ := hrdm
        rw [dmxPacket_rdm hon]
        refine ⟨by rw [hport], hother, by rw [hframe], by rw [hframe], fun h0 => absurd h0 hnull,
          fun _ hne => absurd hon (by simpa using hne), fun _ _ => ⟨hframe, by rw [hport], by rw [hport]⟩⟩
      · have hcase : c ≠ 0xCC ∨ bit (dmxPort s p).cfg 29 = false := by
          rwa [not_and_or, Bool.not_eq_true] at hrdm
        rw [dmxPacket_altsc hnull hcase, dmxPort_modDmx_self, dmxPort_modDmx_other]
        generalize countFraming p e s = u at hframe hport hother
        refine ⟨by rw [hport], hother, by rw [hframe]; rfl, by rw [hframe]; rfl, fun h0 => absurd h0 hnull,
          fun _ _ => ⟨by rw [hframe]; rfl, by rw [hport], by rw [hport], by rw [hport]⟩,
          fun hcc hon => absurd ⟨hcc, hon⟩ hrdm⟩
  case lost =>
    refine gives_of_pos (exec_dmxLost p s) (by rw [h, hlost]; rfl) ⟨?_, ?_, raised_raise _ _⟩
    · rw [dmxPort_raise, dmxPort_modDmx_self]
    · rw [dmxPort_raise, dmxPort_modDmx_other]
  case lostAlready =>
    refine exec_of_neg (exec_dmxLost p s) (ne_true_of_eq_false ?_)
    rw [h]
    exact Bool.and_false _
  case noTx =>
    refine exec_of_neg (exec_dmxTxPacketEnd p s) (ne_true_of_eq_false ?_)
    rcases h with h | h <;> simp [h]
  case tx =>
    exact gives_of_pos (exec_dmxTxPacketEnd p s) (by rw [hon, hbusy]; rfl)
      ⟨dmxPort_modDmx_self p _ s, dmxPort_modDmx_other p _ s, rfl⟩

end Sys2Proof.Machine

/-! SUPPORT. The RDM responder (R400, R401, Table 16.7): a request that names it is answered after its effect. -/

namespace Sys2Proof.Machine

/-! ## Fields that are replaced -/

theorem fld_setFld_same {n : Nat} (w : BitVec n) {lo len v : Nat} (hfits : lo + len ≤ n) (hv : v < 2 ^ len) :
    fld (setFld w lo len v) lo len = v := by
  refine Nat.eq_of_testBit_eq fun j => ?_
  rw [testBit_fld, bit_setFld _ _ _ _ _ hfits]
  by_cases hj : j < len
  · simp [hj]
  · have hzero : v.testBit j = false :=
      Nat.testBit_lt_two_pow (Nat.lt_of_lt_of_le hv (Nat.pow_le_pow_right (by decide) (Nat.le_of_not_lt hj)))
    simp [hj, hzero]

theorem fld_setFld_below {n : Nat} (w : BitVec n) {lo len : Nat} (v : Nat) (hfits : lo + len ≤ n) :
    fld (setFld w lo len v) 0 lo = fld w 0 lo := by
  refine Nat.eq_of_testBit_eq fun j => ?_
  rw [testBit_fld, testBit_fld, bit_setFld _ _ _ _ _ hfits]
  by_cases hj : j < lo
  · have hbelow : ¬(lo ≤ 0 + j ∧ 0 + j < lo + len) := by omega
    rw [if_neg hbelow]
  · simp [hj]

/-! ## A request -/

section

variable {p : Fin 2} {q : RdmReq} {s : State}

theorem rdm_of_other (h : rdmAddressed s p q = false) (effect : State → State) (a : RdmAnswer) :
    rdm p q effect a s = .next s := by rw [rdm, h]; rfl

theorem rdm_of_addressed (h : rdmAddressed s p q = true) (effect : State → State) (a : RdmAnswer) :
    rdm p q effect a s = .next (effect (answer q a s)) := by rw [rdm, if_pos h]

theorem ite_next {c : Prop} [Decidable c] {o o' : Host.Outcome State Fault Refusal} (ho : o = .next s) (ho' : o' = .next s) :
    (if c then o else o') = .next s := by
  split
  · exact ho
  · exact ho'

variable {reply : RdmAnswer → RdmAnswer} (hreply : ∀ a, reply a = if rdmBroadcast s q then .silent else a)

include hreply

/-- The answer of a request; a broadcast gets none (R400). -/
theorem answer_eq (a : RdmAnswer) : answer q a s = { s with dmx := { s.dmx with answer := reply a } } := by
  rw [hreply]
  rfl

theorem rdm_answers (h : rdmAddressed s p q = true) (a : RdmAnswer) :
    rdm p q id a s = .next { s with dmx := { s.dmx with answer := reply a } } := by
  rw [rdm_of_addressed h, answer_eq hreply]
  rfl

end

/-! ## The requests that act -/

section

variable (p : Fin 2) (q : RdmReq) (s : State)

theorem exec_deviceLabelSet (lab : List Byte) :
    exec (.deviceLabelSet p q lab) s = if lab.length ≤ 32 then rdm p q (storeLabel lab) (.ack 0x0082 []) s
      else rdm p q id (.nack 0x0082 6) s := rfl

theorem exec_dmxStartAddressSet (w : Half) :
    exec (.dmxStartAddressSet p q w) s = if 1 ≤ w.toNat ∧ w.toNat ≤ 512 then
      rdm p q (fun s => raise .dmx (modDmx p (fun x => { x with map := setFld x.map 16 10 w.toNat }) s)) (.ack 0x00F0 []) s
      else rdm p q id (.nack 0x00F0 6) s := rfl

theorem exec_identifyDeviceSet (b : Byte) :
    exec (.identifyDeviceSet p q b) s = if b.toNat ≤ 1 then
      rdm p q (fun s => raise .dmx (modDmx p (fun x => { x with ident := b == 1 }) s)) (.ack 0x1000 []) s
      else rdm p q id (.nack 0x1000 6) s := rfl

theorem exec_resetDevice (b : Byte) :
    exec (.resetDevice p q b) s = if !bit (dmxPort s p).cfg 26 then rdm p q id (.nack 0x1001 4) s
      else if b = 0x01 then rdm p q (softReset true) (.ack 0x1001 []) s
      else if b = 0xFF then rdm p q (softReset false) (.ack 0x1001 []) s
      else rdm p q id (.nack 0x1001 6) s := rfl

theorem exec_rdmForward (req : List Byte) :
    exec (.rdmForward p q req) s = if bit (dmxPort s p).cfg 28 && !s.dmx.rxrdy then
      rdm p q (fun s => raise .dmx { s with dmx := { s.dmx with
        rxrdy := true, rdmrx := req.take 257, fwdPort := p, fwdPid := requestPid req, fwdBcast := rdmBroadcast s q } }) .silent s
      else rdm p q id (.nack (requestPid req) 0) s := rfl

theorem exec_discUniqueBranch (lo hi : BitVec 48) :
    exec (.discUniqueBranch p q lo hi) s = .next (if rdmAddressed s p q then { s with dmx := { s.dmx with
      answer := if !(dmxPort s p).muted && decide (lo ≤ rdmUid s) && decide (rdmUid s ≤ hi) then .discovery (rdmUid s)
        else .silent } } else s) := rfl

theorem exec_rdmResponseGo (n : BitVec 9) :
    exec (.rdmResponseGo n) s =
      .next (if dmxOn s then { s with dmx := writeRdmctl n.toNat true s.dmx } else s) := rfl

theorem exec_rdmForwardTimeout :
    exec .rdmForwardTimeout s = .next (if dmxOn s && s.dmx.rxrdy then
      { s with dmx := forwardAnswer (.nack s.dmx.fwdPid 0) s.dmx } else s) := rfl

end

/-- A soft reset by the responder (R400): BOOT begins with its cause. -/
theorem softReset_resets (keep : Bool) {s : State} (hpor : s.mode.inPor = false) (hroost : s.mode.code ≠ .roost)
    (hdormant : s.mode.code ≠ .dormant) :
    (softReset keep s).mode.code = .boot ∧ (softReset keep s).mode.bcause = 2 ∧ (softReset keep s).mode.keepBoot = keep := by
  have hreset : softReset keep s = resetState (if keep then .softKeep else .soft) 2 2 s := by
    simp [softReset, hpor, hroost, hdormant]
  rw [hreset]
  cases keep <;> exact ⟨rfl, rfl, rfl⟩

/-- DMX_RDMCTL with GO: the length is stored, and a waiting request answered (R401). -/
theorem writeRdmctl_go (n : Nat) (d : Dmx) :
    writeRdmctl n true d = { d with
      txlen := BitVec.ofNat 9 (min n 257), rxrdy := false
      answer := if d.rxrdy then (if d.fwdBcast then .silent
          else .raw ((List.range (min n 257)).map fun i => cget zeroCell d.rdmtx i)) else d.answer } := by
  cases hready : d.rxrdy <;> simp [writeRdmctl, forwardAnswer, hready]

/-- Settles O56: a request for another responder by `rdm_of_other`; one for this one by `rdm_answers` when it only answers, and
else by its effect on the state that holds the answer (`rdm_of_addressed`). -/
theorem rdmResponderAnswers : Obligations.RdmResponderAnswers := by
  intro p q s
  refine ⟨fun h lo hi lab req w b => ?other, fun h lo hi => exec_of_pos (exec_discUniqueBranch p q s lo hi) h,
    fun h reply hreply => ⟨?fixed, ?mute, fun lab hlab => ?label, fun lab hlab => ?labelLong,
      fun w => ⟨fun hw => ?start, fun hw => ?startOut⟩,
      fun b => ⟨fun hb => ?ident, fun hb => ?identOut⟩, fun b hen => ?noReset, fun b hen h1 hff => ?resetOut,
      fun x hx hen hpor hroost hdormant => ?reset, fun req hen hfree => ?forward, fun req hno => ?forwardOut⟩,
    fun h => ⟨fun n => ?goOff, ?timeoutOff⟩, fun n h => ?go, fun h => ?timeoutIdle, fun h hready => ?timeout⟩
  case other =>
    simp only [List.forall_mem_cons, List.not_mem_nil, false_implies, implies_true, and_true]
    have hrdm := rdm_of_other h
    refine ⟨exec_of_neg (exec_discUniqueBranch p q s lo hi) (ne_true_of_eq_false h), hrdm _ _, hrdm _ _, hrdm _ _, hrdm _ _,
      hrdm _ _, hrdm _ _, hrdm _ _, ?_, hrdm _ _, hrdm _ _, ?_, hrdm _ _, ?_, ?_, ?_⟩
    · exact ite_next (hrdm _ _) (hrdm _ _)
    · exact ite_next (hrdm _ _) (hrdm _ _)
    · exact ite_next (hrdm _ _) (hrdm _ _)
    · exact ite_next (hrdm _ _) (ite_next (hrdm _ _) (ite_next (hrdm _ _) (hrdm _ _)))
    · exact ite_next (hrdm _ _) (hrdm _ _)
  case fixed =>
    simp only [List.forall_mem_cons, List.not_mem_nil, false_implies, implies_true, and_true]
    have hrdm := rdm_answers (p := p) hreply h
    exact ⟨hrdm _, hrdm _, hrdm _, hrdm _, hrdm _, hrdm _, hrdm _, hrdm _⟩
  case mute =>
    have hmute (muted : Bool) (a : RdmAnswer) :
        ∃ t, rdm p q (modDmx p fun x => { x with muted := muted }) a s = .next t ∧
          t = { s with dmx := { s.dmx with port := t.dmx.port, answer := reply a } } ∧
          dmxPort t p = { dmxPort s p with muted := muted } ∧ dmxPort t (1 - p) = dmxPort s (1 - p) := by
      refine ⟨_, rdm_of_addressed h _ a, ?_⟩
      rw [answer_eq hreply]
      exact ⟨rfl, dmxPort_modDmx_self p _ _, dmxPort_modDmx_other p _ _⟩
    simp only [List.forall_mem_cons, List.not_mem_nil, false_implies, implies_true, and_true]
    exact ⟨hmute true _, hmute false _⟩
  case label =>
    refine ⟨_, (exec_deviceLabelSet p q s lab).trans ((if_pos hlab).trans (rdm_of_addressed h _ _)), raised_raise _ _, ?_⟩
    rw [answer_eq hreply]
    rfl
  case labelLong => rw [exec_deviceLabelSet, if_neg (Nat.not_le.mpr hlab), rdm_answers hreply h]
  case start =>
    refine ⟨_, (exec_dmxStartAddressSet p q s w).trans ((if_pos hw).trans (rdm_of_addressed h _ _)), ?_⟩
    beta_reduce
    rw [answer_eq hreply, dmxPort_raise, dmxPort_raise, dmxPort_modDmx_self, dmxPort_modDmx_other]
    exact ⟨fld_setFld_same _ (by decide) (by omega), fld_setFld_below _ _ (by decide), rfl, raised_raise _ _, rfl⟩
  case startOut =>
    have hout : ¬(1 ≤ w.toNat ∧ w.toNat ≤ 512) := by omega
    rw [exec_dmxStartAddressSet, if_neg hout, rdm_answers hreply h]
  case ident =>
    refine ⟨_, (exec_identifyDeviceSet p q s b).trans ((if_pos hb).trans (rdm_of_addressed h _ _)), ?_⟩
    beta_reduce
    rw [answer_eq hreply, dmxPort_raise, dmxPort_raise, dmxPort_modDmx_self, dmxPort_modDmx_other]
    exact ⟨rfl, rfl, raised_raise _ _, rfl⟩
  case identOut => rw [exec_identifyDeviceSet, if_neg (Nat.not_le.mpr hb), rdm_answers hreply h]
  case noReset => rw [exec_resetDevice, hen, if_pos (by rfl), rdm_answers hreply h]
  case resetOut => rw [exec_resetDevice, hen, if_neg (by decide), if_neg h1, if_neg hff, rdm_answers hreply h]
  case reset =>
    have hreset (keep : Bool) := softReset_resets keep (s := answer q (.ack 0x1001 []) s) hpor hroost hdormant
    simp only [List.mem_cons, List.not_mem_nil, or_false] at hx
    rcases hx with rfl | rfl
    · exact ⟨_, by rw [exec_resetDevice, hen, if_neg (by decide), if_pos rfl, rdm_of_addressed h], hreset true⟩
    · exact ⟨_, by rw [exec_resetDevice, hen, if_neg (by decide), if_neg (by decide), if_pos rfl, rdm_of_addressed h], hreset false⟩
  case forward =>
    have hcase : (bit (dmxPort s p).cfg 28 && !s.dmx.rxrdy) = true := by rw [hen, hfree]; rfl
    refine ⟨_, (exec_rdmForward p q s req).trans ((if_pos hcase).trans (rdm_of_addressed h _ _)), ?_⟩
    have hsilent : answer q .silent s = { s with dmx := { s.dmx with answer := .silent } } := by
      rw [answer, ite_self]
    rw [hsilent]
    exact ⟨rfl, rfl, rfl, rfl, raised_raise _ _, rfl⟩
  case forwardOut =>
    have hcase : ¬(bit (dmxPort s p).cfg 28 && !s.dmx.rxrdy) = true := by
      rcases hno with hno | hno <;> simp [hno]
    rw [exec_rdmForward, if_neg hcase, rdm_answers hreply h]
  case goOff => exact exec_of_neg (exec_rdmResponseGo s n) (ne_true_of_eq_false h)
  case timeoutOff => simp [exec_rdmForwardTimeout, h]
  case go => rw [exec_of_pos (exec_rdmResponseGo s n) h, writeRdmctl_go]
  case timeoutIdle => simp [exec_rdmForwardTimeout, h]
  case timeout => exact exec_of_pos (exec_rdmForwardTimeout s) (by rw [h, hready]; rfl)

end Sys2Proof.Machine

/-! SUPPORT. The general timers (R375-R381): what one timer does on a match, an overflow, a capture and a counted edge, and what
leaves the timers with it, its triggers and its cause. -/

namespace Sys2Proof.Machine

/-! ## One timer in the state -/

theorem gpt_modGpt (n : Fin 8) (f : Gpt → Gpt) (s : State) (m : Nat) :
    gpt (modGpt n f s) m = if m = n.val then f (gpt s n) else gpt s m := vget_vmod _ _ _ _ _ n.isLt

@[simp] theorem gpt_modGpt_self (n : Fin 8) (f : Gpt → Gpt) (s : State) : gpt (modGpt n f s) n = f (gpt s n) := by
  rw [gpt_modGpt, if_pos rfl]

theorem gpt_modGpt_other {n m : Fin 8} (h : m ≠ n) (f : Gpt → Gpt) (s : State) : gpt (modGpt n f s) m = gpt s m := by
  rw [gpt_modGpt, if_neg (Fin.val_ne_of_ne h)]

/-- From `s` to `t` timer `n` alone acted, and no raised cause is lost. -/
structure TimerOnly (n : Fin 8) (s t : State) : Prop where
  other : ∀ m : Fin 8, m ≠ n → gpt t m = gpt s m
  pins : t.pins = s.pins
  raised : KeepsRaised s t

theorem TimerOnly.refl (n : Fin 8) (s : State) : TimerOnly n s s := ⟨fun _ _ => rfl, rfl, fun _ h => h⟩

theorem TimerOnly.trans {n : Fin 8} {s u t : State} (h : TimerOnly n s u) (g : TimerOnly n u t) : TimerOnly n s t :=
  ⟨fun m hm => (g.other m hm).trans (h.other m hm), g.pins.trans h.pins, fun c hc => g.raised c (h.raised c hc)⟩

theorem modGpt_timerOnly (n : Fin 8) (f : Gpt → Gpt) (s : State) : TimerOnly n s (modGpt n f s) :=
  ⟨fun _ hm => gpt_modGpt_other hm f s, rfl, fun _ h => h⟩

/-- From `s` to `t` a timer has triggered and raised its cause: the timers and the pins are as they were (R346, R365, R381). -/
def Signals (s t : State) : Prop :=
  t = { s with host := t.host, mgt := t.mgt, kst := t.kst, aou := t.aou, sns := t.sns } ∧ KeepsRaised s t

theorem Signals.gpt {s t : State} (h : Signals s t) (m : Nat) : gpt t m = Machine.gpt s m := by
  rw [h.1]
  rfl

theorem Signals.timerOnly {s t : State} (h : Signals s t) (n : Fin 8) : TimerOnly n s t :=
  ⟨fun m _ => h.gpt m, by rw [h.1], h.2⟩

theorem when_raiseGpt_signals (b : Bool) (n : Nat) (s : State) :
    Signals s (when b (raiseGpt n) s) ∧ (b = true → raised .gpt (when b (raiseGpt n) s) = true) ∧
      (b = false → when b (raiseGpt n) s = s) := by
  cases b
  case false => exact ⟨⟨rfl, fun _ h => h⟩, nofun, fun _ => rfl⟩
  case true => exact ⟨⟨rfl, (raiseWith_raises .gpt 0 (some (4 + n)) s).2⟩,
    fun _ => raised_raiseWith .gpt 0 (some (4 + n)) s, nofun⟩

theorem timerStrobe_frame (n : Nat) (s : State) : timerStrobe n s = { s with aou := (timerStrobe n s).aou } := by
  unfold timerStrobe
  split <;> rfl

theorem snsTimerTrigger_frame (n : Nat) (s : State) : snsTimerTrigger n s = { s with sns := (snsTimerTrigger n s).sns } := by
  unfold snsTimerTrigger snsTrigger
  split
  · split <;> rfl
  · rfl

/-- The triggers of a match reach the strobe of AOU and the sequencer of SNS alone. -/
theorem triggers_frame (n : Nat) (s : State) :
    snsTimerTrigger n (timerStrobe n s) = { s with
      aou := (snsTimerTrigger n (timerStrobe n s)).aou, sns := (snsTimerTrigger n (timerStrobe n s)).sns } := by
  have hstrobe := timerStrobe_frame n s
  have hsns := snsTimerTrigger_frame n (timerStrobe n s)
  generalize snsTimerTrigger n (timerStrobe n s) = t at hsns
  rw [hsns, hstrobe]

/-! ## Match, overflow and capture (R378-R381) -/

/-- A timer after its match. -/
def Gpt.matched (t : Gpt) : Gpt := { t with mf := true, count := t.match_, out := flipFlop (fld t.cfg 5 2) t.out }

/-- A timer after its overflow. -/
def Gpt.overflowed (t : Gpt) : Gpt :=
  { t with ovf := true, count := 0, out := flipFlop (fld t.cfg 3 2) t.out
           top := t.topNext.getD t.top, match_ := t.matchNext.getD t.match_, topNext := none, matchNext := none }

/-- A timer after a capture of `c`. -/
def Gpt.captures (c : Word) (t : Gpt) : Gpt := { t with cap := c, ovr := t.ovr || t.capf, capf := true }

theorem gptMatch_idle {n : Nat} {s : State} (h : (gpt s n).top.toNat < (gpt s n).match_.toNat) : gptMatch n s = s :=
  if_neg (Nat.not_le.mpr h)

theorem gptMatch_signals (n : Fin 8) {s : State} (h : (gpt s n).match_.toNat ≤ (gpt s n).top.toNat) :
    Signals (modGpt n Gpt.matched s) (gptMatch n s) ∧
      (bit (gpt s n).cfg 2 = true → raised .gpt (gptMatch n s) = true ∧
        ∀ k : KIdx, bit (kes (gptMatch n s) k).pend (4 + n.val) = true) := by
  have hmatch : gptMatch n s =
      when (bit (gpt s n).cfg 2) (raiseGpt n) (snsTimerTrigger n (timerStrobe n (modGpt n Gpt.matched s))) := if_pos h
  have hframe := triggers_frame n (modGpt n Gpt.matched s)
  rw [hmatch]
  generalize snsTimerTrigger n (timerStrobe n (modGpt n Gpt.matched s)) = u at hframe
  obtain ⟨⟨gframe, gkeeps⟩, graised, -⟩ := when_raiseGpt_signals (bit (gpt s n).cfg 2) n u
  have hisr : u.host.isr = (modGpt n Gpt.matched s).host.isr := by rw [hframe]
  refine ⟨⟨?_, fun c hc => gkeeps c (KeepsRaised.of_isr hisr c hc)⟩, fun hbit => ⟨graised hbit, fun k => ?_⟩⟩
  · rw [gframe, hframe]
  · rw [hbit, kes, vget_fin]
    exact bit_setPendAll (4 + n.val) (by omega) u.kst k

theorem gptOverflow_signals (n : Fin 8) (s : State) :
    Signals (modGpt n Gpt.overflowed s) (gptOverflow n s) ∧
      (bit (gpt s n).cfg 1 = true → raised .gpt (gptOverflow n s) = true) ∧
      (bit (gpt s n).cfg 1 = false → gptOverflow n s = modGpt n Gpt.overflowed s) :=
  when_raiseGpt_signals (bit (gpt s n).cfg 1) n (modGpt n Gpt.overflowed s)

theorem gptCapture_signals (n : Fin 8) (c : Word) (s : State) :
    Signals (modGpt n (Gpt.captures c) s) (gptCapture n c s) ∧
      (bit (gpt s n).cfg 0 = true → raised .gpt (gptCapture n c s) = true) ∧
      (bit (gpt s n).cfg 0 = false → gptCapture n c s = modGpt n (Gpt.captures c) s) :=
  when_raiseGpt_signals (bit (gpt s n).cfg 0) n (modGpt n (Gpt.captures c) s)

theorem Signals.timerOnly_modGpt {n : Fin 8} {f : Gpt → Gpt} {s t : State} (h : Signals (modGpt n f s) t) :
    TimerOnly n s t ∧ Machine.gpt t n = f (Machine.gpt s n) :=
  ⟨(modGpt_timerOnly n f s).trans (h.timerOnly n), (h.gpt n).trans (gpt_modGpt_self n f s)⟩

/-! ## An edge that is counted (R375, R378) -/

/-- What counting leaves alone of its timer. -/
def Gpt.held (t : Gpt) : Word × Word × Bool × Bool := (t.cfg, t.cap, t.capf, t.ovr)

theorem Gpt.held_eq_iff (t u : Gpt) :
    t.held = u.held ↔ t.cfg = u.cfg ∧ t.cap = u.cap ∧ t.capf = u.capf ∧ t.ovr = u.ovr := by
  simp [held]

/-- Timer `n` alone acted, and counted at most. -/
def CountsOnly (n : Fin 8) (s t : State) : Prop := TimerOnly n s t ∧ (gpt t n).held = (gpt s n).held

theorem CountsOnly.trans {n : Fin 8} {s u t : State} (h : CountsOnly n s u) (g : CountsOnly n u t) : CountsOnly n s t :=
  ⟨h.1.trans g.1, g.2.trans h.2⟩

theorem modGpt_countsOnly (n : Fin 8) {f : Gpt → Gpt} {s : State} (h : (f (gpt s n)).held = (gpt s n).held) :
    CountsOnly n s (modGpt n f s) := by
  refine ⟨modGpt_timerOnly n f s, ?_⟩
  rw [gpt_modGpt_self, h]

/-- A match at the count that stands leaves it (R378). -/
theorem gptMatch_counts (n : Fin 8) (s : State) :
    CountsOnly n s (gptMatch n s) ∧
      ((gpt s n).count = (gpt s n).match_ → (gpt (gptMatch n s) n).count = (gpt s n).count) := by
  rcases Nat.lt_or_ge (gpt s n).top.toNat (gpt s n).match_.toNat with h | h
  · rw [gptMatch_idle h]
    exact ⟨⟨TimerOnly.refl n s, rfl⟩, fun _ => rfl⟩
  · obtain ⟨honly, hself⟩ := (gptMatch_signals n h).1.timerOnly_modGpt
    refine ⟨⟨honly, ?_⟩, fun heq => ?_⟩ <;> rw [hself]
    · rfl
    · exact heq.symm

theorem gptOverflow_counts (n : Fin 8) (s : State) :
    CountsOnly n s (gptOverflow n s) ∧ (gpt (gptOverflow n s) n).count = 0 ∧ (gpt (gptOverflow n s) n).ovf = true := by
  obtain ⟨honly, hself⟩ := (gptOverflow_signals n s).1.timerOnly_modGpt
  refine ⟨⟨honly, ?_⟩, ?_, ?_⟩ <;> rw [hself] <;> rfl

theorem gptWrap_counts (n : Fin 8) (s : State) :
    CountsOnly n s (gptWrap n s) ∧ (gpt (gptWrap n s) n).count = 0 ∧ (gpt (gptWrap n s) n).ovf = true := by
  unfold gptWrap
  extract_lets u
  have hu : CountsOnly n s u := modGpt_countsOnly n rfl
  clear_value u
  obtain ⟨hover, hcount, hovf⟩ := gptOverflow_counts n (if (gpt u n).match_ = 0 then gptMatch n u else u)
  refine ⟨hu.trans (CountsOnly.trans ?_ hover), hcount, hovf⟩
  split
  · exact (gptMatch_counts n u).1
  · exact ⟨TimerOnly.refl n u, rfl⟩

/-- A clock edge with the prescaler at its end moves the count on, or wraps it. -/
theorem countEdge_counts (n : Fin 8) (s : State) :
    CountsOnly n s (countEdge n s) ∧ (fld (gpt s n).cfg 8 8 ≤ (gpt s n).pre →
      ((gpt s n).count ≠ (gpt s n).top → (gpt (countEdge n s) n).count = (gpt s n).count + 1) ∧
      ((gpt s n).count = (gpt s n).top → (gpt (countEdge n s) n).count = 0 ∧ (gpt (countEdge n s) n).ovf = true)) := by
  unfold countEdge
  extract_lets t u v
  by_cases hpre : t.pre < fld t.cfg 8 8
  · rw [if_pos hpre]
    exact ⟨modGpt_countsOnly n rfl, fun h => absurd hpre (Nat.not_lt.mpr h)⟩
  · have hu : CountsOnly n s u := modGpt_countsOnly n rfl
    rw [if_neg hpre]
    by_cases htop : t.count = t.top
    · obtain ⟨hwrap, hcount, hovf⟩ := gptWrap_counts n u
      rw [if_pos htop]
      exact ⟨hu.trans hwrap, fun _ => ⟨fun hne => absurd htop hne, fun _ => ⟨hcount, hovf⟩⟩⟩
    · have hv : CountsOnly n u v := modGpt_countsOnly n rfl
      have hself : gpt v n = { t with pre := 0, count := t.count + 1 } := by
        rw [show v = modGpt n (fun t => { t with count := t.count + 1 }) u from rfl, gpt_modGpt_self,
          show u = modGpt n (fun t => { t with pre := 0 }) s from rfl, gpt_modGpt_self]
      rw [if_neg htop]
      split
      · next hmatch =>
        obtain ⟨hcounts, hcount⟩ := gptMatch_counts n v
        refine ⟨(hu.trans hv).trans hcounts, fun _ => ⟨fun _ => ?_, fun heq => absurd heq htop⟩⟩
        rw [hcount (hmatch.trans (by rw [hself])), hself]
      · refine ⟨hu.trans hv, fun _ => ⟨fun _ => ?_, fun heq => absurd heq htop⟩⟩
        rw [hself]

/-! ## An edge of the input (R375, R379) -/

/-- A cue to the kestrels freezes no timer and releases none. -/
theorem frozen_raiseGpt (n : Nat) (s : State) (x : Gpt) : frozen (raiseGpt n s) x = frozen s x := by
  have hcore : vget (raiseGpt n s).kst.core (fld x.cfg 25 2) {} =
      { vget s.kst.core (fld x.cfg 25 2) {} with pend := setBit (vget s.kst.core (fld x.cfg 25 2) {}).pend (4 + n) true } :=
    vget_map s.kst.core _ _ _ (fld_lt x.cfg 25 2)
  unfold frozen
  rw [hcore]

theorem running_when_raiseGpt (b : Bool) (n : Nat) (s : State) (x : Gpt) : running (when b (raiseGpt n) s) x = running s x := by
  cases b
  case false => rfl
  case true => exact congrArg (bit x.cfg 31 && !·) (frozen_raiseGpt n s x)

/-- The edge `r` is one that PEDGE selects for counting (R376). -/
def Gpt.countsEdge (t : Gpt) (r : Bool) : Bool := match fld t.cfg 19 2 with | 0 => r | 1 => !r | _ => true

theorem pinCount_eq (r : Bool) (n : Nat) (s : State) :
    pinCount r n s = if gptRuns s && running s (gpt s n) && fld (gpt s n).cfg 29 2 == 3 && (gpt s n).countsEdge r &&
      gateOpen s (gpt s n) then countEdge n s else s := rfl

theorem pinCount_idle {r : Bool} {n : Nat} {s : State} (h : fld (gpt s n).cfg 29 2 ≠ 3 ∨ running s (gpt s n) = false) :
    pinCount r n s = s := by
  rw [pinCount_eq, if_neg]
  rcases h with h | h <;> simp [h]

theorem pinCount_stopped {r : Bool} {n : Nat} {s : State} (h : gptRuns s = false) : pinCount r n s = s := by
  rw [pinCount_eq, h]
  rfl

theorem pinCount_countsOnly (r : Bool) (n : Fin 8) (s : State) : CountsOnly n s (pinCount r n s) := by
  rw [pinCount_eq]
  split
  · exact (countEdge_counts n s).1
  · exact ⟨TimerOnly.refl n s, rfl⟩

theorem Gpt.countsEdge_of_selected {t : Gpt} {r : Bool} (hrise : fld t.cfg 19 2 = 0 → r = true)
    (hfall : fld t.cfg 19 2 = 1 → r = false) : t.countsEdge r = true := by
  unfold countsEdge
  split
  · next h => exact hrise h
  · next h => rw [hfall h]; rfl
  · rfl

/-- The input of timer `n` at its new level `r`. -/
def edgeAt (n : Nat) (r : Bool) (s : State) : State :=
  { s with pins := { s.pins with gt := setBit s.pins.gt (fld (gpt s n).cfg 16 3) r } }

/-- CAPE selects the edge `r` (R379). -/
def Gpt.captureSelected (t : Gpt) (r : Bool) : Bool := bit t.cfg (if r then 21 else 22)

/-- The state once the edge has captured, where CAPE selects it. -/
def edgeCaptured (n : Nat) (r : Bool) (c : Word) (s : State) : State :=
  if gptRuns s && (gpt s n).captureSelected r then gptCapture n (captured s (gpt s n) c) (edgeAt n r s) else edgeAt n r s

theorem exec_gptCapture (n : Fin 8) (r : Bool) (c : Word) (s : State) :
    exec (.gptCapture n r c) s = .next (pinCount r n (edgeCaptured n r c s)) := rfl

theorem edgeCaptured_not_selected {n : Nat} {r : Bool} {s : State} (c : Word)
    (h : gptRuns s = false ∨ (gpt s n).captureSelected r = false) : edgeCaptured n r c s = edgeAt n r s := by
  refine if_neg ?_
  rcases h with h | h <;> simp [h]

theorem edgeCaptured_selected {n : Nat} {r : Bool} {s : State} (c : Word) (hruns : gptRuns s = true)
    (h : (gpt s n).captureSelected r = true) :
    edgeCaptured n r c s = gptCapture n (captured s (gpt s n) c) (edgeAt n r s) :=
  if_pos (by rw [hruns, h]; rfl)

theorem gpt_edgeAt (n : Nat) (r : Bool) (s : State) (m : Nat) : gpt (edgeAt n r s) m = gpt s m := rfl

/-- The timer that an edge has captured runs as before: only its capture registers differ. -/
theorem edgeCaptured_spec (n : Fin 8) (r : Bool) (c : Word) (s : State) :
    TimerOnly n (edgeAt n r s) (edgeCaptured n r c s) ∧ gptRuns (edgeCaptured n r c s) = gptRuns s ∧
      (∀ x : Gpt, running (edgeCaptured n r c s) x = running s x) ∧
      (gpt (edgeCaptured n r c s) n = gpt s n ∨
        gpt (edgeCaptured n r c s) n = (gpt s n).captures (captured s (gpt s n) c)) := by
  unfold edgeCaptured
  split
  · obtain ⟨hsignals, -, -⟩ := gptCapture_signals n (captured s (gpt s n) c) (edgeAt n r s)
    obtain ⟨honly, hself⟩ := hsignals.timerOnly_modGpt
    refine ⟨honly, ?_, fun x => ?_, .inr hself⟩
    · rw [hsignals.1]; rfl
    · exact running_when_raiseGpt _ n _ x
  · exact ⟨TimerOnly.refl n _, rfl, fun _ => rfl, .inl rfl⟩

theorem edgeCaptured_kept (n : Fin 8) (r : Bool) (c : Word) (s : State) :
    (gpt (edgeCaptured n r c s) n).cfg = (gpt s n).cfg ∧ (gpt (edgeCaptured n r c s) n).count = (gpt s n).count ∧
      (gpt (edgeCaptured n r c s) n).top = (gpt s n).top ∧ (gpt (edgeCaptured n r c s) n).pre = (gpt s n).pre ∧
      (gpt (edgeCaptured n r c s) n).out = (gpt s n).out := by
  obtain ⟨-, -, -, hself | hself⟩ := edgeCaptured_spec n r c s <;> rw [hself]
  · exact ⟨rfl, rfl, rfl, rfl, rfl⟩
  · exact ⟨rfl, rfl, rfl, rfl, rfl⟩

/-- An edge of the input moves its own timer at most. -/
theorem gptCapture_timerOnly (n : Fin 8) (r : Bool) (c : Word) (s : State) :
    TimerOnly n (edgeAt n r s) (pinCount r n (edgeCaptured n r c s)) :=
  (edgeCaptured_spec n r c s).1.trans (pinCount_countsOnly r n _).1

/-- An edge that CAPE does not select captures nothing (R379). -/
theorem gptCapture_not_selected {n : Fin 8} {r : Bool} (c : Word) {s : State} (h : (gpt s n).captureSelected r = false) :
    (gpt (pinCount r n (edgeCaptured n r c s)) n).held = (gpt s n).held := by
  rw [(pinCount_countsOnly r n _).2, edgeCaptured_not_selected c (.inr h), gpt_edgeAt]

/-- A selected edge captures, whether it is then counted or not (R379, R381). -/
theorem gptCapture_selected {n : Fin 8} {r : Bool} (c : Word) {s : State} (hruns : gptRuns s = true)
    (h : (gpt s n).captureSelected r = true) :
    (gpt (pinCount r n (edgeCaptured n r c s)) n).held = ((gpt s n).captures (captured s (gpt s n) c)).held ∧
      (bit (gpt s n).cfg 0 = true → raised .gpt (pinCount r n (edgeCaptured n r c s)) = true) := by
  obtain ⟨hcounts, hheld⟩ := pinCount_countsOnly r n (edgeCaptured n r c s)
  obtain ⟨hsignals, hraised, -⟩ := gptCapture_signals n (captured s (gpt s n) c) (edgeAt n r s)
  have heq := edgeCaptured_selected (n := n) c hruns h
  refine ⟨?_, fun hbit => hcounts.raised .gpt ?_⟩
  · rw [hheld, heq, hsignals.timerOnly_modGpt.2, gpt_edgeAt]
  · rw [heq]
    exact hraised hbit

theorem running_of_cfg {x y : Gpt} (h : x.cfg = y.cfg) (s : State) : running s x = running s y := by
  unfold running frozen
  rw [h]

theorem edgeCaptured_running (n : Fin 8) (r : Bool) (c : Word) (s : State) :
    running (edgeCaptured n r c s) (gpt (edgeCaptured n r c s) n) = running s (gpt s n) := by
  obtain ⟨-, -, hrunning, -⟩ := edgeCaptured_spec n r c s
  rw [hrunning, running_of_cfg (edgeCaptured_kept n r c s).1]

/-- An edge is not counted by a timer that is stopped or not on PIN. -/
theorem gptCapture_uncounted {n : Fin 8} {r : Bool} (c : Word) {s : State}
    (h : fld (gpt s n).cfg 29 2 ≠ 3 ∨ running s (gpt s n) = false) :
    pinCount r n (edgeCaptured n r c s) = edgeCaptured n r c s := by
  refine pinCount_idle ?_
  rw [edgeCaptured_running, (edgeCaptured_kept n r c s).1]
  exact h

/-- An edge that PEDGE selects is counted by a running timer on PIN without a gate (R376). -/
theorem gptCapture_counted {n : Fin 8} {r : Bool} (c : Word) {s : State} (hruns : gptRuns s = true)
    (hclk : fld (gpt s n).cfg 29 2 = 3) (hrunning : running s (gpt s n) = true) (hgate : bit (gpt s n).cfg 24 = false)
    (hedge : (gpt s n).countsEdge r = true) :
    pinCount r n (edgeCaptured n r c s) = countEdge n (edgeCaptured n r c s) := by
  obtain ⟨-, hsame, -, -⟩ := edgeCaptured_spec n r c s
  obtain ⟨hcfg, -⟩ := edgeCaptured_kept n r c s
  rw [pinCount_eq, if_pos]
  simp [edgeCaptured_running, hsame, hruns, hcfg, hclk, hrunning, hgate, gateOpen, Gpt.countsEdge] at hedge ⊢
  exact hedge

/-! ## The rows -/

theorem exec_gptMatch (n : Fin 8) (s : State) : exec (.gptMatch n) s = .next (if counts s n then gptMatch n s else s) := rfl

theorem exec_gptOverflow (n : Fin 8) (s : State) :
    exec (.gptOverflow n) s = .next (if counts s n then gptOverflow n s else s) := rfl

theorem exec_gptSwcap (n : Fin 8) (c : Word) (s : State) :
    exec (.gptSwcap n c) s = .next (if gptOn s then gptCapture n (captured s (gpt s n) c) s else s) := rfl

theorem exec_gptCapRead (n : Fin 8) (s : State) :
    exec (.gptCapRead n) s = .next (if gptOn s then modGpt n (fun t => { t with capf := false }) s else s) := rfl

theorem counts_of {s : State} {n : Nat} (hruns : gptRuns s = true) (hrunning : running s (gpt s n) = true)
    (hgate : gateOpen s (gpt s n) = true) : counts s n = true := by
  rw [counts, hruns, hrunning, hgate]
  rfl

theorem counts_eq_false {s : State} {n : Nat}
    (h : gptRuns s = false ∨ running s (gpt s n) = false ∨ gateOpen s (gpt s n) = false) : ¬counts s n = true := by
  rcases h with h | h | h <;> simp [counts, h]

/-- Settles O58: a match, an overflow and a capture act on their own timer by one update each, and an edge of the input is
counted after it has captured. -/
theorem generalTimers : Obligations.GeneralTimers := by
  unfold Obligations.GeneralTimers
  refine ⟨fun n c s => ⟨fun h => ⟨?matchIdle, ?overflowIdle⟩, fun h => ⟨?swcapOff, ?readOff⟩, fun r h => ?captureOff⟩,
    fun n s hruns => ⟨fun hrunning hgate hle => ?match_, fun hlt => ?matchAbove, fun hrunning hgate => ?overflow,
      fun r c => ⟨fun hsel hclk => ?edgeIdle, ?edge⟩⟩,
    fun n s hon => ⟨fun c => ?swcap, ?read⟩⟩
  case matchIdle => exact exec_of_neg (exec_gptMatch n s) (counts_eq_false h)
  case overflowIdle => exact exec_of_neg (exec_gptOverflow n s) (counts_eq_false h)
  case swcapOff => exact exec_of_neg (exec_gptSwcap n c s) (by simp [h])
  case readOff => exact exec_of_neg (exec_gptCapRead n s) (by simp [h])
  case captureOff =>
    rw [exec_gptCapture, edgeCaptured_not_selected c (.inl h), pinCount_stopped (s := edgeAt n r s) h]
    rfl
  case match_ =>
    obtain ⟨hsignals, hraised⟩ := gptMatch_signals n hle
    obtain ⟨honly, hself⟩ := hsignals.timerOnly_modGpt
    exact gives_of_pos (exec_gptMatch n s) (counts_of hruns hrunning hgate) ⟨hself, hraised, honly.other⟩
  case matchAbove => rw [exec_gptMatch, gptMatch_idle hlt, ite_self]
  case overflow =>
    obtain ⟨hsignals, hraised, hquiet⟩ := gptOverflow_signals n s
    obtain ⟨honly, hself⟩ := hsignals.timerOnly_modGpt
    exact gives_of_pos (exec_gptOverflow n s) (counts_of hruns hrunning hgate)
      ⟨hself, hraised, fun h => by rw [hquiet h]; rfl, honly.other⟩
  case edgeIdle =>
    rw [exec_gptCapture, gptCapture_uncounted c (.inl hclk), edgeCaptured_not_selected c (.inr hsel)]
    rfl
  case edge =>
    have honly := gptCapture_timerOnly n r c s
    obtain ⟨hcfg, hcount, htop, hpre, hout⟩ := edgeCaptured_kept n r c s
    refine ⟨_, exec_gptCapture n r c s, honly.other, honly.pins, ?_, fun hsel => ?_, fun hsel => ?_, fun h => ?_,
      fun hclk hrunning hgate hrise hfall hle => ?_⟩
    · exact ((Gpt.held_eq_iff _ _).mp (pinCount_countsOnly r n _).2).1.trans hcfg
    · obtain ⟨-, hcap, hcapf, hovr⟩ := (Gpt.held_eq_iff _ _).mp (gptCapture_not_selected c hsel)
      exact ⟨hcap, hcapf, hovr⟩
    · obtain ⟨hheld, hraised⟩ := gptCapture_selected c hruns hsel
      obtain ⟨-, hcap, hcapf, hovr⟩ := (Gpt.held_eq_iff _ _).mp hheld
      exact ⟨hcapf, hovr, hcap, hraised⟩
    · rw [gptCapture_uncounted c h]
      exact ⟨hcount, hpre, hout⟩
    · have hedge := (countEdge_counts n (edgeCaptured n r c s)).2
      rw [hcfg, hcount, htop, hpre] at hedge
      rw [gptCapture_counted c hruns hclk hrunning hgate (Gpt.countsEdge_of_selected hrise hfall)]
      exact hedge hle
  case swcap =>
    obtain ⟨hsignals, hraised, hquiet⟩ := gptCapture_signals n (captured s (gpt s n) c) s
    obtain ⟨honly, hself⟩ := hsignals.timerOnly_modGpt
    exact gives_of_pos (exec_gptSwcap n c s) hon ⟨hself, hraised, fun h => by rw [hquiet h]; rfl, honly.other⟩
  case read =>
    exact gives_of_pos (exec_gptCapRead n s) hon ⟨gpt_modGpt_self n _ s, fun m hm => gpt_modGpt_other hm _ s, rfl⟩

end Sys2Proof.Machine

/-! SUPPORT. The sense sequencer (R363-R370): what a sample boundary leaves of the FIFO, the maps and the flags. -/

namespace Sys2Proof.Machine

/-! ## A sample boundary -/

/-- A move of the sequencer leaves FIFO, OVF and the published values. -/
def Sns.DataKept (x y : Sns) : Prop := y.fifo = x.fifo ∧ y.ovf = x.ovf ∧ y.val = x.val

theorem Sns.after_dataKept (x : Sns) (e : Word) : DataKept x (x.after e) := by
  unfold after
  split
  · split
    · split <;> exact ⟨rfl, rfl, rfl⟩
    · exact ⟨rfl, rfl, rfl⟩
  · exact ⟨rfl, rfl, rfl⟩

/-- The word that the entry being visited makes of the converter's result (Table 15.2). -/
def Sns.word (x : Sns) (raw : Int) (clip : Bool) : Word :=
  sampleWord (decide (0 < x.tags)) (clip || clampI (-8388608) 8388607 raw != raw) (fld (x.entry x.idx) 24 5)
    (BitVec.ofInt 24 (clampI (-8388608) 8388607 raw))

theorem Sns.sample_start {x : Sns} (raw : Int) (clip : Bool) (hpass : x.pass = false) (h : (x.trig || !x.single) = true) :
    x.sample raw clip = (x.startPass, false) := by
  simp [sample, hpass, h]

theorem Sns.sample_waiting {x : Sns} (raw : Int) (clip : Bool) (hpass : x.pass = false) (h : (x.trig || !x.single) = false) :
    x.sample raw clip = (x, false) := by
  simp [sample, hpass, h]

theorem Sns.sample_discarded {x : Sns} (raw : Int) (clip : Bool) (hpass : x.pass = true) (htags : 0 < x.tags)
    (hdrop : bit x.ctrl 28 = true) : DataKept x (x.sample raw clip).1 ∧ (x.sample raw clip).2 = false := by
  have hsample : x.sample raw clip =
      (({ x with tags := x.tags - 1, prev := some (x.entry x.idx) } : Sns).after (x.entry x.idx), false) := by
    simp [sample, hpass, htags, hdrop]
  rw [hsample]
  exact ⟨after_dataKept _ _, rfl⟩

theorem Sns.publish_val_other (x : Sns) {ch : Nat} (data : BitVec 24) {i : Nat} (h : fld (vget x.map i 0) 24 5 ≠ ch) :
    vget (x.publish ch data).val i 0 = vget x.val i 0 := by
  rcases Nat.lt_or_ge i 8 with hi | hi
  · have hval : vget (x.publish ch data).val i 0 = _ := vget_mapIdx x.val _ ⟨i, hi⟩ 0 0
    rw [hval]
    exact if_neg h
  · simp [vget, hi]

theorem Sns.push_val (x : Sns) (w : Word) : (x.push w).1.val = x.val ∧ (x.push w).1.map = x.map := by
  unfold push
  split <;> exact ⟨rfl, rfl⟩

/-- A sample that is not discarded goes into the FIFO, and an untagged one to the maps of its channel. -/
theorem Sns.sample_delivered {x : Sns} (raw : Int) (clip : Bool) (hpass : x.pass = true)
    (hdrop : 0 < x.tags → bit x.ctrl 28 = false) :
    (x.sample raw clip).1.fifo = (x.push (x.word raw clip)).1.fifo ∧
      (x.sample raw clip).1.ovf = (x.push (x.word raw clip)).1.ovf ∧
      (x.sample raw clip).2 = (x.push (x.word raw clip)).2 ∧
      ∀ i, 0 < x.tags ∨ fld (vget x.map i 0) 24 5 ≠ fld (x.entry x.idx) 24 5 →
        vget (x.sample raw clip).1.val i 0 = vget x.val i 0 := by
  obtain ⟨hval, hmap⟩ := push_val x (x.word raw clip)
  by_cases htags : 0 < x.tags
  · have hsample : x.sample raw clip =
        (({ (x.push (x.word raw clip)).1 with tags := x.tags - 1, prev := some (x.entry x.idx) } : Sns).after (x.entry x.idx),
          (x.push (x.word raw clip)).2) := by
      simp [sample, word, hpass, htags, hdrop htags]
    rw [hsample]
    obtain ⟨hfifo, hovf, hkept⟩ :=
      after_dataKept { (x.push (x.word raw clip)).1 with tags := x.tags - 1, prev := some (x.entry x.idx) } (x.entry x.idx)
    exact ⟨hfifo, hovf, rfl, fun i _ => by rw [hkept, hval]⟩
  · have hsample : x.sample raw clip =
        ((({ (x.push (x.word raw clip)).1 with got := x.got + 1, prev := some (x.entry x.idx) } : Sns).publish
          (fld (x.entry x.idx) 24 5) (BitVec.ofInt 24 (clampI (-8388608) 8388607 raw))).after (x.entry x.idx),
          (x.push (x.word raw clip)).2) := by
      simp [sample, word, hpass, htags]
    rw [hsample]
    obtain ⟨hfifo, hovf, hkept⟩ := after_dataKept
      (({ (x.push (x.word raw clip)).1 with got := x.got + 1, prev := some (x.entry x.idx) } : Sns).publish
        (fld (x.entry x.idx) 24 5) (BitVec.ofInt 24 (clampI (-8388608) 8388607 raw))) (x.entry x.idx)
    refine ⟨hfifo, hovf, rfl, fun i hi => ?_⟩
    rw [hkept, publish_val_other _ _ (by simpa only [hmap] using hi.resolve_left htags), hval]

theorem Sns.push_room {x : Sns} {w : Word} (h : x.fifo.length < 256) :
    x.push w = ({ x with fifo := x.fifo ++ [w] }, x.fifo.length + 1 == fld x.ctrl 0 9) := if_neg (Nat.not_le.mpr h)

theorem Sns.push_full {x : Sns} {w : Word} (h : 256 ≤ x.fifo.length) : x.push w = ({ x with ovf := true }, true) := if_pos h

/-! ## RUN and the entries -/

theorem Sns.setRun_same (x : Sns) : x.setRun x.run = x := if_pos rfl

theorem Sns.setRun_off {x : Sns} (h : x.run = true) :
    (x.setRun false).run = false ∧ (x.setRun false).pass = false ∧ (x.setRun false).fifo = x.fifo := by
  have hset : x.setRun false =
      { x with ctrl := setBit x.ctrl 31 false, pass := false, trig := false, tags := 0, got := 0, idx := 0 } := by
    simp [setRun, h]
  rw [hset]
  exact ⟨bit_setBit x.ctrl 31 31 false (by decide), rfl, rfl⟩

/-- The control word `c` with nothing of an earlier pass. -/
def Sns.armed (x : Sns) (c : Word) : Sns := { x with ctrl := c, prev := none, trig := false }

theorem Sns.setRun_true {x : Sns} (h : x.run = false) :
    x.setRun true = if x.single then x.armed (setBit x.ctrl 31 true) else (x.armed (setBit x.ctrl 31 true)).startPass := by
  have hsingle : (x.armed (setBit x.ctrl 31 true)).single = x.single := by
    rw [armed, single, bit_setBit _ _ _ _ (by decide), if_neg (by decide), single]
  rw [← hsingle, setRun, h, if_neg (by decide), if_pos rfl, armed]

theorem Sns.visitTags_first {x : Sns} (h : x.prev = none) (e : Word) : x.visitTags e = 2 * sincOrder e := by
  rw [visitTags, h]

theorem Sns.armed_startPass (x : Sns) (c : Word) :
    (x.armed c).startPass.ctrl = c ∧ (x.armed c).startPass.pass = true ∧ (x.armed c).startPass.idx = 0 ∧
      (x.armed c).startPass.tags = 2 * sincOrder (x.entry 0) :=
  ⟨rfl, rfl, rfl, visitTags_first (x := { x.armed c with pass := true, trig := false }) rfl (x.entry 0)⟩

/-- RUN starts a pass at once in CONTINUOUS mode, and waits for a trigger in SINGLE (R365, R366). -/
theorem Sns.setRun_on {x : Sns} (h : x.run = false) :
    (x.setRun true).run = true ∧ (x.setRun true).pass = (!x.single || x.pass) ∧
      (x.single = false → (x.setRun true).idx = 0 ∧ (x.setRun true).tags = 2 * sincOrder (x.entry 0)) := by
  have hrun : bit (setBit x.ctrl 31 true) 31 = true := (bit_setBit x.ctrl 31 31 true (by decide)).trans (if_pos rfl)
  rw [setRun_true h]
  generalize setBit x.ctrl 31 true = c at hrun
  obtain ⟨hctrl, hpass, hidx, htags⟩ := armed_startPass x c
  cases hsingle : x.single
  case false =>
    rw [if_neg Bool.false_ne_true, run, hctrl, hpass]
    exact ⟨hrun, rfl, fun _ => ⟨hidx, htags⟩⟩
  case true =>
    rw [if_pos rfl]
    exact ⟨hrun, rfl, nofun⟩

theorem Sns.writeEntry_entry (x : Sns) (i : Fin 32) (v : Word) :
    (x.writeEntry i v).entry i = applyWrite sntFields (x.entry i) v ∧
      ∀ j : Fin 32, j ≠ i → (x.writeEntry i v).ent[j] = x.ent[j] := by
  refine ⟨?_, fun j hj => ?_⟩
  · rw [entry, vget_fin]
    exact Vector.getElem_setIfInBounds_self i.isLt
  · exact Vector.getElem_setIfInBounds_ne j.isLt (Fin.val_ne_of_ne hj.symm)

theorem Sns.writeEntry_tags {x : Sns} (i : Nat) (v : Word) (h : x.pass = false) : (x.writeEntry i v).tags = x.tags := by
  simp [writeEntry, h]

/-! ## The rows -/

theorem exec_snsRun (on : Bool) (s : State) :
    exec (.snsRun on) s = .next (if snsOn s then { s with sns := s.sns.setRun on } else s) := rfl

theorem exec_snsStart (s : State) :
    exec .snsStart s = .next (if snsRuns s && fld s.sns.ctrl 26 2 == 0 then { s with sns := s.sns.trigger } else s) := rfl

theorem exec_snsSample (raw : Int) (clip : Bool) (s : State) :
    exec (.snsSample raw clip) s = .next (if snsRuns s && s.sns.run then
      when (s.sns.sample raw clip).2 (raise .sns) { s with sns := (s.sns.sample raw clip).1 } else s) := rfl

theorem exec_snsEntryWrite (i : Fin 32) (v : Word) (s : State) :
    exec (.snsEntryWrite i v) s =
      .next (if enabled s 3 && pdOn s 63 then { s with sns := s.sns.writeEntry i v } else s) := rfl

theorem exec_snsFifoPop (s : State) :
    exec .snsFifoPop s =
      .next (if enabled s 3 && pdOn s 63 then { s with sns := { s.sns with fifo := s.sns.fifo.drop 1 } } else s) := rfl

/-- A sample boundary of a running sequencer leaves the sequencer's new state, and its cause where the FIFO asks for it. -/
theorem exec_snsSample_running {s : State} (raw : Int) (clip : Bool) (hruns : snsRuns s = true) (hrun : s.sns.run = true) :
    exec (.snsSample raw clip) s =
      .next (when (s.sns.sample raw clip).2 (raise .sns) { s with sns := (s.sns.sample raw clip).1 }) :=
  exec_of_pos (exec_snsSample raw clip s) (by rw [hruns, hrun]; rfl)

theorem exec_snsSample_quiet {s : State} {raw : Int} {clip : Bool} {x : Sns} (hruns : snsRuns s = true) (hrun : s.sns.run = true)
    (h : s.sns.sample raw clip = (x, false)) : exec (.snsSample raw clip) s = .next { s with sns := x } := by
  rw [exec_snsSample_running raw clip hruns hrun, h]
  rfl

theorem when_raise_sns (b : Bool) (x : Sns) (s : State) :
    (when b (raise .sns) { s with sns := x }).sns = x ∧
      (b = true → raised .sns (when b (raise .sns) { s with sns := x }) = true) ∧
      (b = false → when b (raise .sns) { s with sns := x } = { s with sns := x }) := by
  obtain ⟨⟨hframe, -⟩, hraised, hquiet⟩ := when_raise_raises b .sns { s with sns := x }
  exact ⟨by rw [hframe], hraised, hquiet⟩

/-- What the statement says of SNS that stands still. -/
theorem sns_stopped {s : State} (h : snsOn s = false) (on : Bool) (raw : Int) (clip : Bool) :
    ∀ c ∈ [Instr.snsRun on, .snsStart, .snsSample raw clip], exec c s = .next s := by
  have hruns : snsRuns s = false := by rw [snsRuns, h]; rfl
  simp [exec_snsRun, exec_snsStart, exec_snsSample, h, hruns]

end Sys2Proof.Machine

/-! SUPPORT. The audio input and the beat tracker (R371-R374). -/

namespace Sys2Proof.Machine

/-! ## Samples and LOCK -/

theorem exec_audioSample (lrck : Bool) (len : Nat) (raw : Word) (s : State) :
    exec (.audioSample lrck len raw) s = .next (if audOn s then
      { s with aud :=
          let right := lrck != bit s.aud.cfg 31
          let v := slotSample len raw
          let x := if right then { s.aud with right := v } else { s.aud with left := v }
          if right && s.aud.lock then x.pair else x }
      else s) := rfl

theorem exec_audioSample_left {lrck : Bool} {s : State} (hon : audOn s = true) (h : lrck = bit s.aud.cfg 31) (len : Nat)
    (raw : Word) : exec (.audioSample lrck len raw) s = .next { s with aud := { s.aud with left := slotSample len raw } } := by
  simp [exec_audioSample, hon, h]

/-- The right sample of a pair: the followers and the tracker take the pair under LOCK. -/
theorem exec_audioSample_right {lrck : Bool} {s : State} (hon : audOn s = true) (h : lrck ≠ bit s.aud.cfg 31) (len : Nat)
    (raw : Word) : exec (.audioSample lrck len raw) s = .next { s with
      aud := if s.aud.lock then { s.aud with right := slotSample len raw }.pair
        else { s.aud with right := slotSample len raw } } := by
  simp [exec_audioSample, hon, h]

theorem Aud.sum_le_pair (x : Aud) : x.sum ≤ x.pair.sum := Nat.le_add_right _ _

theorem audUnlock_spec (s : State) :
    (audUnlock s).aud = { s.aud with lock := false, rate := 0 } ∧ (s.aud.lock = true → raised .beat (audUnlock s) = true) ∧
      (s.aud.lock = false → audUnlock s = { s with aud := (audUnlock s).aud }) := by
  obtain ⟨⟨hframe, -⟩, hraised, hquiet⟩ :=
    when_raise_raises s.aud.lock .beat { s with aud := { s.aud with lock := false, rate := 0 } }
  have haud : (audUnlock s).aud = { s.aud with lock := false, rate := 0 } := by
    rw [audUnlock, hframe]
  exact ⟨haud, hraised, fun h => by rw [haud]; exact hquiet h⟩

theorem exec_audioLrckLoss (s : State) : exec .audioLrckLoss s = .next (if audOn s then audUnlock s else s) := rfl

theorem exec_audioRateCheck (n : Nat) (s : State) :
    exec (.audioRateCheck n) s = .next (if audOn s then
      (if rateCode n = 0 then audUnlock s else { s with aud := { s.aud with lock := true, rate := rateCode n } }) else s) := rfl

/-! ## A millisecond of the tracker -/

/-- The end of the millisecond that runs, in 1/64 ms. -/
def Aud.msEnd (x : Aud) : Int := 64 * ((x.now + 1 : Nat) : Int)

theorem Aud.ms_frame (x : Aud) :
    x.ms.1 = { x with
      prevLog := x.ms.1.prevLog, odf := x.ms.1.odf, onset := x.ms.1.onset, sum := 0, num := 0, now := x.now + 1
      lastBeat := if x.nextBeat ≤ x.msEnd then x.msEnd else x.lastBeat
      nextBeat := x.ms.1.nextBeat, pulse := x.pulse || decide (x.nextBeat ≤ x.msEnd) } := rfl

theorem Aud.ms_beat (x : Aud) : x.ms.2.1 = decide (x.nextBeat ≤ x.msEnd) := by
  rw [ms, msEnd]

/-- The tracker after a millisecond, with the time stamp of a beat. -/
def Aud.msAt (x : Aud) (ctime : Quad) : Aud :=
  if x.ms.2.1 then
    { x.ms.1 with btfrm := BitVec.ofNat 32 (fld ctime 24 32), btfrac := BitVec.ofNat 24 (fld ctime 0 24) }
  else x.ms.1

theorem exec_beatTrackMs (s : State) :
    exec .beatTrackMs s = .next (if audOn s then
      when ((s.aud.ms.2.1 && bit s.aud.cfg 27) || (s.aud.ms.2.2 && bit s.aud.cfg 26)) (raise .beat)
        (silentFollow { s with aud := s.aud.msAt s.chn.ctime }) else s) := by
  rw [exec, execBeatTrackMs, Aud.msAt]

/-- What a millisecond leaves of the tracker, the time stamp apart. -/
theorem Aud.msAt_kept (x : Aud) (ctime : Quad) :
    (x.msAt ctime).now = x.now + 1 ∧ (x.msAt ctime).num = 0 ∧ (x.msAt ctime).sum = 0 ∧ (x.msAt ctime).tau = x.tau ∧
      (x.msAt ctime).left = x.left ∧ (x.msAt ctime).right = x.right ∧ (x.msAt ctime).lock = x.lock ∧
      (x.msAt ctime).e = x.e := by
  unfold msAt
  rw [ms_frame]
  split <;> exact ⟨rfl, rfl, rfl, rfl, rfl, rfl, rfl, rfl⟩

/-- No beat falls in the millisecond. -/
theorem Aud.msAt_no_beat {x : Aud} (ctime : Quad) (h : x.msEnd < x.nextBeat) :
    (x.msAt ctime).pulse = x.pulse ∧ (x.msAt ctime).btfrm = x.btfrm ∧ (x.msAt ctime).lastBeat = x.lastBeat := by
  have hlate : ¬x.nextBeat ≤ x.msEnd := not_le.mpr h
  rw [msAt, ms_beat, decide_eq_false hlate, if_neg Bool.false_ne_true, ms_frame, if_neg hlate, decide_eq_false hlate]
  exact ⟨Bool.or_false _, rfl, rfl⟩

/-- A beat falls in the millisecond: it takes CTIME (R374). -/
theorem Aud.msAt_beat {x : Aud} (ctime : Quad) (h : x.nextBeat ≤ x.msEnd) :
    (x.msAt ctime).pulse = true ∧ (x.msAt ctime).btfrm.toNat = fld ctime 24 32 ∧
      (x.msAt ctime).btfrac.toNat = fld ctime 0 24 ∧ (x.msAt ctime).lastBeat = x.msEnd := by
  rw [msAt, ms_beat, decide_eq_true h, if_pos rfl, ms_frame, if_pos h, decide_eq_true h]
  exact ⟨Bool.or_true _, Nat.mod_eq_of_lt (fld_lt ctime 24 32), Nat.mod_eq_of_lt (fld_lt ctime 0 24), rfl⟩

/-- Silence leaves of the tracker all but the followers, which do not rise (R372). -/
theorem silentFollow_spec (s : State) :
    (silentFollow s).aud = { s.aud with e := (silentFollow s).aud.e } ∧ (s.aud.lock = true → silentFollow s = s) ∧
      ∀ k, vget (silentFollow s).aud.e k 0 ≤ vget s.aud.e k 0 := by
  cases hlock : s.aud.lock
  case true =>
    have hsame : silentFollow s = s := if_pos hlock
    rw [hsame]
    exact ⟨rfl, fun _ => rfl, fun k => le_rfl⟩
  case false =>
    have hsilent : silentFollow s = { s with
        aud := { s.aud with e := s.aud.e.mapIdx fun k (e : Nat) => (Config.freeWord (s.free + k)).toNat % (e + 1) }
        free := s.free + 4 } := by rw [silentFollow, hlock, if_neg Bool.false_ne_true]
    rw [hsilent]
    refine ⟨rfl, nofun, fun k => ?_⟩
    rcases Nat.lt_or_ge k 4 with hk | hk
    · rw [vget_mapIdx s.aud.e _ ⟨k, hk⟩ 0 0]
      exact Nat.le_of_lt_succ (Nat.mod_lt _ (Nat.succ_pos _))
    · simp [vget, hk]

/-- The tracker that a millisecond leaves: its followers hold under LOCK and do not rise without. -/
theorem beatTrackMs_spec {s : State} (hon : audOn s = true) : ∃ (t : State) (e : Vector Nat 4), exec .beatTrackMs s = .next t ∧
    t.aud = { s.aud.msAt s.chn.ctime with e := e } ∧ (s.aud.lock = true → e = s.aud.e) ∧
      (∀ k, vget e k 0 ≤ vget s.aud.e k 0) ∧
      (s.aud.nextBeat ≤ s.aud.msEnd → bit s.aud.cfg 27 = true → raised .beat t = true) := by
  obtain ⟨⟨hframe, -⟩, hraised, -⟩ :=
    when_raise_raises ((s.aud.ms.2.1 && bit s.aud.cfg 27) || (s.aud.ms.2.2 && bit s.aud.cfg 26)) .beat
      (silentFollow { s with aud := s.aud.msAt s.chn.ctime })
  obtain ⟨hsilent, hlocked, hfall⟩ := silentFollow_spec { s with aud := s.aud.msAt s.chn.ctime }
  obtain ⟨-, -, -, -, -, -, hlock, he⟩ := s.aud.msAt_kept s.chn.ctime
  refine ⟨_, (silentFollow { s with aud := s.aud.msAt s.chn.ctime }).aud.e, exec_of_pos (exec_beatTrackMs s) hon, ?_,
    fun h => ?_, fun k => ?_, fun hbeat hie => hraised ?_⟩
  · rw [hframe]
    exact hsilent
  · rw [hlocked (hlock.trans h), he]
  · rw [← he]
    exact hfall k
  · rw [Aud.ms_beat, decide_eq_true hbeat, hie]
    rfl

/-! ## The tempo -/

theorem lagScore_silent {odf : List Nat} (h : ∀ x ∈ odf, x = 0) (tau : Nat) : lagScore odf tau = 0 := by
  have hsum : ((odf.take 4096).zip (odf.drop tau)).foldl (fun a p => a + p.1 * p.2) 0 = 0 := by
    refine List.foldlRecOn (motive := (· = 0)) _ _ rfl fun b hb p hp => ?_
    rw [hb, h p.1 (List.mem_of_mem_take (List.of_mem_zip hp).1), Nat.zero_mul]
  rw [lagScore, hsum]
  simp

theorem bestLag_silent {odf : List Nat} (h : ∀ x ∈ odf, x = 0) (lo hi : Nat) : bestLag odf lo hi = none := by
  rw [bestLag, List.foldl_fixed' fun i => ?_]
  · rfl
  · simp [lagScore_silent h]

theorem exec_tempoUpdate (s : State) :
    exec .tempoUpdate s = .next (if audOn s then { s with aud := { s.aud with
      tau := (bestLag s.aud.odf ((60000 + fld s.aud.cfg 16 8 - 1) / fld s.aud.cfg 16 8) (60000 / fld s.aud.cfg 8 8)).getD
        s.aud.tau } } else s) := rfl

/-! ## The statement -/

theorem aud_stopped {s : State} (h : audOn s = false) (lrck : Bool) (n : Nat) (raw : Word) :
    ∀ c ∈ [Instr.audioSample lrck n raw, .audioRateCheck n, .audioLrckLoss, .beatTrackMs, .tempoUpdate],
      exec c s = .next s := by
  simp [exec_audioSample, exec_audioRateCheck, exec_audioLrckLoss, exec_beatTrackMs, exec_tempoUpdate, h]

theorem unlock_gives {s : State} (hon : audOn s = true) {n : Nat} (hrate : rateCode n = 0) :
    ∀ x ∈ [Instr.audioLrckLoss, .audioRateCheck n], exec x s = .next (audUnlock s) := by
  simp [exec_audioRateCheck, exec_audioLrckLoss, hon, hrate]

theorem rateCode_values : rateCode 524288 = 2 ∧ rateCode 262144 = 3 ∧ rateCode 570654 = 1 ∧ rateCode 1 = 0 := by
  simp [rateCode, dist]

/-- Settles O57: a sample boundary takes one of four courses, by the pass, the tag and the room in the FIFO; a millisecond of
the tracker takes one of two, by the next beat. -/
theorem senseAndAudio : Obligations.SenseAndAudio := by
  unfold Obligations.SenseAndAudio
  refine ⟨fun i v on raw clip s => ⟨fun h => ?off, fun h => ?roost, fun h => ?unclocked⟩,
    fun s hon => ⟨fun hrun => ?runSame, fun hrun => ?runSame', fun hrun => ?runOff, fun hrun => ?runOn⟩,
    fun s hruns => ⟨fun h => ?startIdle, fun hrun hsingle htrig => ?start, fun hrun raw clip => ?sampleStopped,
      fun raw clip hrun hpass => ⟨fun h => ?sampleStart, fun h => ?sampleWaiting⟩,
      fun raw clip hrun hpass => ⟨fun hroom hdrop => ?delivered, fun htags hfull => ?full, fun htags hdrop => ?discarded⟩⟩,
    fun s hen hpd => ⟨?pop, fun i v => ?entry⟩,
    fun lrck n raw s h => aud_stopped h lrck n raw,
    fun s hon => ⟨fun lrck len raw => ⟨fun h => exec_audioSample_left hon h len raw,
        fun h hlock => ?right, fun h hlock => ?pair⟩,
      fun c hrate => ?rate, fun c hrate x hx => ?unlock, ?ms, ?tempo⟩,
    rateCode_values⟩
  case off =>
    have hoff : (enabled s 3 && pdOn s 63) = false := by rcases h with h | h <;> simp [h]
    have hsns : snsOn s = false := by rw [snsOn, hoff]; rfl
    have hstopped := sns_stopped hsns on raw clip
    simp only [List.forall_mem_cons] at hstopped ⊢
    exact ⟨by simp [exec_snsFifoPop, hoff], by simp [exec_snsEntryWrite, hoff], hstopped⟩
  case roost => exact sns_stopped (by simp [snsOn, h]) on raw clip
  case unclocked =>
    have hruns : snsRuns s = false := by rw [snsRuns, h, Bool.and_false]
    exact ⟨by simp [exec_snsStart, hruns], by simp [exec_snsSample, hruns]⟩
  case runSame | runSame' => rw [exec_snsRun, if_pos hon, ← hrun, Sns.setRun_same]
  case runOff =>
    obtain ⟨hoff, hpass, hfifo⟩ := Sns.setRun_off hrun
    exact gives_of_pos (exec_snsRun false s) hon ⟨hoff, hpass, hfifo, rfl⟩
  case runOn =>
    obtain ⟨hset, hpass, hfirst⟩ := Sns.setRun_on hrun
    exact gives_of_pos (exec_snsRun true s) hon ⟨hset, hpass, hfirst, rfl⟩
  case startIdle =>
    rw [exec_snsStart, hruns]
    rcases h with h | h | h <;> simp [Sns.trigger, h]
  case start => simp [exec_snsStart, Sns.trigger, hruns, hrun, hsingle, htrig]
  case sampleStopped => simp [exec_snsSample, hrun]
  case sampleStart => exact exec_snsSample_quiet hruns hrun (Sns.sample_start raw clip hpass h)
  case sampleWaiting => exact exec_snsSample_quiet hruns hrun (Sns.sample_waiting raw clip hpass h)
  case delivered =>
    obtain ⟨hfifo, -, hraise, hval⟩ := Sns.sample_delivered raw clip hpass hdrop
    obtain ⟨hsns, hraised, hquiet⟩ := when_raise_sns (s.sns.sample raw clip).2 (s.sns.sample raw clip).1 s
    rw [Sns.push_room hroom] at hfifo hraise
    refine ⟨_, exec_snsSample_running raw clip hruns hrun, ?_, fun h => hraised ?_, fun h => ?_, fun i hi => ?_⟩
    · rw [hsns, hfifo, Sns.word]
    · rw [hraise, h, beq_self_eq_true]
    · rw [hsns]
      exact hquiet (hraise.trans (beq_false_of_ne h))
    · rw [hsns, hval i hi]
  case full =>
    obtain ⟨hfifo, hovf, hraise, -⟩ :=
      Sns.sample_delivered (x := s.sns) raw clip hpass fun h => absurd h (htags ▸ Nat.lt_irrefl 0)
    obtain ⟨hsns, hraised, -⟩ := when_raise_sns (s.sns.sample raw clip).2 (s.sns.sample raw clip).1 s
    rw [Sns.push_full hfull] at hfifo hovf hraise
    refine ⟨_, exec_snsSample_running raw clip hruns hrun, ?_, ?_, hraised hraise⟩ <;> rw [hsns]
    · exact hfifo
    · exact hovf
  case discarded =>
    obtain ⟨⟨hfifo, -, hval⟩, hraise⟩ := Sns.sample_discarded (x := s.sns) raw clip hpass htags hdrop
    exact ⟨_, exec_snsSample_quiet hruns hrun (Prod.ext rfl hraise), hfifo, hval, rfl⟩
  case pop => exact exec_of_pos (exec_snsFifoPop s) (by rw [hen, hpd]; rfl)
  case entry =>
    obtain ⟨hself, hother⟩ := Sns.writeEntry_entry s.sns i v
    exact gives_of_pos (exec_snsEntryWrite i v s) (by rw [hen, hpd]; rfl) ⟨rfl, hother, hself, Sns.writeEntry_tags i v⟩
  case right => rw [exec_audioSample_right hon h, hlock, if_neg Bool.false_ne_true]
  case pair =>
    refine ⟨_, exec_audioSample_right hon h len raw, ?_⟩
    rw [hlock, if_pos rfl]
    exact ⟨rfl, Aud.sum_le_pair { s.aud with right := slotSample len raw }⟩
  case rate => rw [exec_audioRateCheck, if_pos hon, if_neg hrate]
  case unlock => exact ⟨_, unlock_gives hon hrate x hx, audUnlock_spec s⟩
  case ms =>
    obtain ⟨t, e, hexec, haud, hlocked, hfall, hraised⟩ := beatTrackMs_spec hon
    obtain ⟨hnow, hnum, hsum, htau, hleft, hright, hlock, -⟩ := s.aud.msAt_kept s.chn.ctime
    refine ⟨t, hexec, ?_⟩
    beta_reduce
    rw [haud]
    refine ⟨hnow, hnum, hsum, htau, hleft, hright, hlock, hlocked, fun _ => hfall, fun h => ?_, fun h => ?_⟩
    · exact Aud.msAt_no_beat s.chn.ctime h
    · obtain ⟨hpulse, hfrm, hfrac, hlast⟩ := Aud.msAt_beat s.chn.ctime h
      exact ⟨hpulse, hfrm, hfrac, hlast, hraised h⟩
  case tempo =>
    refine gives_of_pos (exec_tempoUpdate s) hon ⟨rfl, fun h => ?_⟩
    rw [bestLag_silent h]
    rfl

end Sys2Proof.Machine

/-! SUPPORT. Of the management block, memory accesses, gate commands and commits reach the fault log alone (R391). -/

namespace Sys2Proof.Machine

/-- The management block without its fault log. -/
def State.office (s : State) : Mgt := clearLog s.mgt

theorem office_of_mgt {s t : State} (h : t.mgt = s.mgt) : t.office = s.office := congrArg clearLog h

@[simp] theorem ite_office (p : Prop) [Decidable p] (a b : State) :
    (if p then a else b).office = if p then a.office else b.office := apply_ite State.office p a b

theorem ite_office_of {p : Prop} [Decidable p] {s t u : State} (ht : t.office = s.office) (hu : u.office = s.office) :
    (if p then t else u).office = s.office := by
  split
  · exact ht
  · exact hu

theorem when_office (b : Bool) (f : State → State) (s : State) (h : (f s).office = s.office) :
    (when b f s).office = s.office := by simp [when, h]

theorem foldl_office {α : Type} (f : State → α → State) (hf : ∀ t i, (f t i).office = t.office) (l : List α) (s : State) :
    (l.foldl f s).office = s.office := foldl_keep State.office f hf l s

/-! ## Causes and memory -/

theorem logEvent_clearLog (n : Nat) (w : Word) (ctime : Quad) (mode : Mode) (m : Mgt) :
    clearLog (logEvent n w ctime mode m) = clearLog m := by
  unfold logEvent
  split <;> rfl

@[simp] theorem raiseWith_office (c : Cause) (w : Word) (pb : Option Nat) (s : State) : (raiseWith c w pb s).office = s.office := by
  show clearLog (if c.logged then logEvent c.num w s.chn.ctime s.mode.code s.mgt else s.mgt) = clearLog s.mgt
  split
  · exact logEvent_clearLog _ _ _ _ _
  · rfl

@[simp] theorem raise_office (c : Cause) (s : State) : (raise c s).office = s.office := raiseWith_office _ _ _ s

@[simp] theorem raiseD_office (c : Cause) (n : Nat) (s : State) : (raiseD c n s).office = s.office := raiseWith_office _ _ _ s

@[simp] theorem memReadEffect_office (src : BitVec 4) (a : Nat) (s : State) : (memReadEffect src a s).office = s.office := by
  unfold memReadEffect
  split
  · rfl
  · dsimp only
    split
    · rfl
    · rfl
    · exact (when_office _ _ _ (raise_office _ _)).trans (office_of_mgt rfl)
    · exact (raiseD_office _ _ _).trans (office_of_mgt rfl)

theorem readWordsEffect_office (src : BitVec 4) (a n : Nat) (s : State) : (readWordsEffect src a n s).office = s.office := by
  induction n generalizing a s with
  | zero => rfl
  | succ n ih => exact (ih (a + 8) _).trans (memReadEffect_office src a s)

@[simp] theorem slideReads_office (s : State) : (slideReads s).office = s.office := by
  rw [slideReads_eq]
  refine (foldl_office slideOne (fun t r => ?_) _ _).trans (office_of_mgt rfl)
  refine (office_of_mgt (s := r.advanceEffect _ t) rfl).trans ?_
  unfold PatchRead.advanceEffect
  split
  · exact readWordsEffect_office _ _ _ t
  · rfl

@[simp] theorem writeCode_office (a : Nat) (w : Code) (s : State) : (writeCode a w s).office = s.office := by
  unfold writeCode
  split <;> rfl

@[simp] theorem mergedWrite_office (src : BitVec 4) (a n : Nat) (v : Word) (p : Bool) (s : State) :
    (mergedWrite src a n v p s).office = s.office := (writeCode_office a _ _).trans (memReadEffect_office src a s)

theorem mewsWrite_office (a : Nat) (d : Quad) (s : State) : (mewsWrite a d s).office = s.office := by
  unfold mewsWrite
  split
  · split
    · exact (writeCode_office a _ _).trans (slideReads_office s)
    · rfl
  · rfl

theorem mewsWrites_office (a : Nat) (ds : List Quad) (s : State) : (mewsWrites a ds s).office = s.office := by
  induction ds generalizing a s with
  | nil => rfl
  | cons d ds ih => exact (ih (a + 8) _).trans (mewsWrite_office a d s)

theorem sysReadEffect_office (off : Nat) (s : State) : (sysReadEffect off s).office = s.office :=
  ite_office_of rfl (ite_office_of rfl rfl)

theorem chxReadEffect_office (p : PortIdx) (off : Nat) (s : State) : (chxReadEffect p off s).office = s.office :=
  ite_office_of (ite_office_of rfl rfl) rfl

theorem chnReadEffect_office (off : Nat) (s : State) : (chnReadEffect off s).office = s.office :=
  ite_office_of rfl (ite_office_of rfl (ite_office_of rfl rfl))

theorem gptReadEffect_office (off : Nat) (s : State) : (gptReadEffect off s).office = s.office := ite_office_of rfl rfl

theorem blockPeekEffect_office (a : Nat) (s : State) : (blockPeekEffect a s).office = s.office := by
  unfold blockPeekEffect
  split
  · exact ite_office_of (sysReadEffect_office _ s) rfl
  · exact ite_office_of (chxReadEffect_office _ _ s) rfl
  · exact ite_office_of (chnReadEffect_office _ s) rfl
  · exact gptReadEffect_office _ s
  · rfl

/-- What a READ changes at its target (R386). -/
theorem peekEffect_office (a : Nat) (s : State) : (peekEffect a s).office = s.office := by
  unfold peekEffect
  split
  · next h =>
    unfold mapReadEffect
    split
    · exact memReadEffect_office 8 a s
    · next hmem =>
      rw [if_pos ((Bool.or_eq_true _ _ ▸ h).resolve_left hmem)]
      rfl
  · exact blockPeekEffect_office a s

/-! ## Gate commands (R91-R112) -/

theorem setCkp_office (c : Ckp) (r : Bool) (s : State) : (setCkp c r s).office = s.office :=
  (when_office r _ _ (raiseD_office _ _ _)).trans (office_of_mgt rfl)

theorem redecideRef_office (s : State) : (redecideRef s).office = s.office := setCkp_office _ _ s

theorem moveTo_office (p : PortIdx) (st : PortState) (s : State) : (moveTo p st s).office = s.office := by
  unfold moveTo
  split
  · rfl
  · cases st <;> exact (raiseD_office _ _ _).trans (office_of_mgt rfl)

theorem portDefect_office (p : PortIdx) (cause : BitVec 3) (f : LanePort → LanePort) (s : State) :
    (portDefect p cause f s).office = s.office := by
  unfold portDefect
  extract_lets q st first s1 s2 dest s3
  have h3 : s3.office = s.office := moveTo_office p dest s2
  clear_value s3
  split
  · split
    · exact moveTo_office _ _ s1
    · rfl
  · split
    · exact (moveTo_office _ _ s3).trans h3
    · exact (moveTo_office _ _ s3).trans h3
    · exact h3

theorem clockDies_office (k : Clk) (s : State) : (clockDies k s).office = s.office := by
  unfold clockDies
  split
  · rfl
  · split
    · rfl
    · exact setCkp_office _ _ s

theorem stopTap_office (n : Nat) (s : State) : (stopTap n s).office = s.office := by
  unfold stopTap
  split
  · exact (redecideRef_office _).trans (office_of_mgt rfl)
  · rfl

theorem stopLane_office (n : Nat) (s : State) : (stopLane n s).office = s.office := by
  unfold stopLane
  split
  · next p l _ =>
    extract_lets q t
    have ht : t.office = s.office := portDefect_office q 6 _ s
    clear_value t
    split
    · exact ht
    · exact (clockDies_office _ t).trans ht
  · rfl

theorem gateCloses_office (c : GateCmd) (n : Nat) (s : State) : (gateCloses c n s).office = s.office := by
  unfold gateCloses
  extract_lets s1 s2
  have h1 : s1.office = s.office := by
    unfold s1
    split <;> rfl
  have h2 : s2.office = s.office := by
    refine (stopTap_office n _).trans ?_
    split
    · exact h1
    · exact (stopLane_office n s1).trans h1
  clear_value s2
  split
  · exact h2
  · split <;> exact h2

theorem vacateMove_office (e : Nat) (s : State) : (vacateMove e s).office = s.office := by
  refine (foldl_office _ (fun t i => ?_) _ _).trans (office_of_mgt rfl)
  split <;> rfl

theorem beginVacate_office (e : Nat) (s : State) : (beginVacate e s).office = s.office := by
  unfold beginVacate
  split
  · rfl
  · exact (vacateMove_office e _).trans (office_of_mgt rfl)

theorem startClose_office (c : GateCmd) (r : Requester) (n : Fin 67) (s : State) : (startClose c r n s).office = s.office := by
  unfold startClose
  extract_lets g s1
  have h1 : s1.office = s.office := rfl
  clear_value s1
  split
  · split
    · exact h1
    · exact (beginVacate_office _ s1).trans h1
  · exact (gateCloses_office c _ s1).trans h1

theorem gateOpens_office (n : Nat) (s : State) : (gateOpens n s).office = s.office := by
  unfold gateOpens
  split
  · exact redecideRef_office s
  · unfold reachOn
    split <;> rfl

theorem gateResult_office (res : BitVec 4) (c : GateCmd) (r : Requester) (n : Fin 67) (s : State) :
    (gateResult res c r n s).office = s.office := raise_office _ _

/-- The registers of the other domains are not the management block's (R98). -/
theorem assertReset_office {n : Nat} (h : n ≠ 1) (s : State) : (assertReset n s).office = s.office := by
  have hreset : (resetDomain n s).office = s.office := by
    unfold resetDomain
    rw [if_neg h]
    iterate 14 refine ite_office_of rfl ?_
    rfl
  unfold assertReset
  rw [if_neg h]
  exact hreset

/-- While PD1 is ON no command resets it at once (Table 4.3). -/
theorem gateAct_office {s : State} (hpd : s.gate.pd[(1 : Fin 67)] = .on) (c : GateCmd) (r : Requester) (n : Fin 67) :
    (gateAct c r n s).office = s.office := by
  have hclosed : pdState s n = .closed → n.val ≠ 1 := by
    intro hn hone
    rw [pdState, show n = 1 from Fin.ext hone, hpd] at hn
    exact absurd hn (by decide)
  unfold gateAct
  split
  · exact startClose_office _ _ _ _
  · exact startClose_office _ _ _ _
  · exact startClose_office _ _ _ _
  · exact gateResult_office _ _ _ _ _
  · rfl
  · rfl
  · exact gateResult_office _ _ _ _ _
  · rfl
  · next hn => exact assertReset_office (hclosed hn) (dropUpdater n s)
  · exact gateResult_office _ _ _ _ _
  · exact (gateResult_office _ _ _ _ _).trans (gateOpens_office _ _)
  · rfl

theorem gateCommand_office {s : State} (hpd : s.gate.pd[(1 : Fin 67)] = .on) (r : Requester) (c : GateCmd) (pd : BitVec 7) :
    (gateCommand r c pd s).office = s.office := by
  unfold gateCommand
  simp only [ite_office, gateResult_office, gateAct_office hpd, ite_self]

theorem commit_office (s : State) : (commit s).office = s.office := by
  unfold commit
  simp only [ite_office, raise_office]
  split_ifs <;> rfl

end Sys2Proof.Machine

/-! SUPPORT. The command at the head of the queue (R384, R387): which rows leave it there, what a check that fails leaves,
and the state in which a function acts. -/

namespace Sys2Proof.Machine

/-! ## The end of a command (R387) -/

theorem raise_mgmt_frame (s : State) : raise .mgmt s = { s with host := (raise .mgmt s).host } := rfl

/-- The state after a command's function has left `u`, with its result and RDATA, before MGMT is raised. -/
def answered (c : List Byte) (u : State) (res : Nat) (d : Word) : State := { u with mgt := u.mgt.respond c res d }

theorem mgmtEnd_eq (c : List Byte) (u : State) (res : Nat) (d : Word) :
    mgmtEnd c (u, res, d) = if 2 ≤ cmdFn c then raise .mgmt (answered c u res d) else answered c u res d := rfl

/-- The end of a command writes the response, and MGMT is all it raises. -/
theorem mgmtEnd_spec (c : List Byte) (u : State) (res : Nat) (d : Word) :
    mgmtEnd c (u, res, d) = { u with mgt := u.mgt.respond c res d, host := (mgmtEnd c (u, res, d)).host } ∧
      (2 ≤ cmdFn c → raised .mgmt (mgmtEnd c (u, res, d)) = true) ∧
      (cmdFn c < 2 → mgmtEnd c (u, res, d) = answered c u res d) := by
  rw [mgmtEnd_eq]
  split
  · next h => exact ⟨raise_mgmt_frame _, fun _ => raised_raise .mgmt _, fun hlt => absurd h (Nat.not_le.mpr hlt)⟩
  · next h => exact ⟨rfl, fun hle => absurd hle h, fun _ => rfl⟩

theorem mgmtEnd_mgt (c : List Byte) (u : State) (res : Nat) (d : Word) :
    (mgmtEnd c (u, res, d)).mgt = u.mgt.respond c res d := by rw [(mgmtEnd_spec c u res d).1]

/-! ## Rows -/

/-- The command has left the queue (R387). -/
def dequeued (s : State) (rest : List (List Byte)) : State := { s with mgt := { s.mgt with queue := rest } }

theorem mgmtRow_idle {row : List Byte → Bool} {f : List Byte → State → State × Nat × Word} {s : State}
    (h : chainRuns s = false ∨ s.mgt.queue = []) : mgmtRow row f s = s := by
  unfold mgmtRow
  split
  · rfl
  · next c rest hqueue =>
    rcases h with h | h
    · simp [h]
    · exact absurd (hqueue.symm.trans h) (List.cons_ne_nil _ _)

section

variable {row : List Byte → Bool} {f : List Byte → State → State × Nat × Word} {s : State} {c : List Byte}
  {rest : List (List Byte)} (hqueue : s.mgt.queue = c :: rest)

include hqueue

theorem mgmtRow_eq : mgmtRow row f s = if chainRuns s && row c then mgmtEval f c (dequeued s rest) else s := by
  rw [mgmtRow, hqueue, dequeued]

/-- A command of another row stays. -/
theorem mgmtRow_other (h : row c = false) : mgmtRow row f s = s := by
  rw [mgmtRow_eq hqueue, h, Bool.and_false, if_neg Bool.false_ne_true]

variable (hruns : chainRuns s = true) (hrow : row c = true)

include hruns hrow

/-- A check that fails answers with its result code and does nothing else (R384). -/
theorem mgmtRow_failed {r : Nat} (hcheck : cmdCheck s.mgt c = some r) :
    mgmtRow row f s = mgmtEnd c (dequeued s rest, r, 0) := by
  have hsame : cmdCheck (dequeued s rest).mgt c = some r := hcheck
  rw [mgmtRow_eq hqueue, hruns, hrow, mgmtEval, hsame]
  rfl

/-- What passes acts in the state that has stored MSEQ (R384). -/
theorem mgmtRow_passed (hcheck : cmdCheck s.mgt c = none) : mgmtRow row f s = mgmtEnd c (f c (Admitted s c rest)) := by
  have hsame : cmdCheck (dequeued s rest).mgt c = none := hcheck
  have hadmitted : (if authFn (dequeued s rest).mgt (cmdFn c) then
      { dequeued s rest with mgt := { (dequeued s rest).mgt with mseq := cmdSeq c } } else dequeued s rest) =
      Admitted s c rest := by
    unfold Admitted dequeued
    split
    · next h => rw [if_pos (show authFn s.mgt (cmdFn c) = true from h)]
    · next h => rw [if_neg (show ¬authFn s.mgt (cmdFn c) = true from h)]
  rw [mgmtRow_eq hqueue, hruns, hrow, Bool.and_self, if_pos rfl, mgmtEval, hsame]
  dsimp only
  rw [hadmitted]

end

/-- Instruction `i` is the row `row` of the queue with the function `f`; its command stays while `waits` says so. -/
structure QueueRow (i : Instr) (row : List Byte → Bool) (waits : State → List Byte → Bool)
    (f : List Byte → State → State × Nat × Word) : Prop where
  idle : ∀ s : State, chainRuns s = false ∨ s.mgt.queue = [] → exec i s = .next s
  other : ∀ {s : State} {c : List Byte} {rest : List (List Byte)}, s.mgt.queue = c :: rest → row c = false →
    exec i s = .next s
  stays : ∀ {s : State} {c : List Byte} {rest : List (List Byte)}, s.mgt.queue = c :: rest → cmdCheck s.mgt c = none →
    row c = true → waits s c = true → exec i s = .next s
  failed : ∀ {s : State} {c : List Byte} {rest : List (List Byte)} {r : Nat}, s.mgt.queue = c :: rest → chainRuns s = true →
    row c = true → cmdCheck s.mgt c = some r → exec i s = .next (mgmtEnd c (dequeued s rest, r, 0))
  passed : ∀ {s : State} {c : List Byte} {rest : List (List Byte)}, s.mgt.queue = c :: rest → chainRuns s = true →
    row c = true → cmdCheck s.mgt c = none → waits s c = false → exec i s = .next (mgmtEnd c (f c (Admitted s c rest)))

theorem queueRow_of_exec {i : Instr} {row : List Byte → Bool} {f : List Byte → State → State × Nat × Word}
    (h : ∀ s, exec i s = .next (mgmtRow row f s)) : QueueRow i row (fun _ _ => false) f where
  idle s hidle := by rw [h, mgmtRow_idle hidle]
  other hqueue hrow := by rw [h, mgmtRow_other hqueue hrow]
  stays _ _ _ hwaits := nomatch hwaits
  failed hqueue hruns hrow hcheck := by rw [h, mgmtRow_failed hqueue hruns hrow hcheck]
  passed hqueue hruns hrow hcheck _ := by rw [h, mgmtRow_passed hqueue hruns hrow hcheck]

/-- The access of command `c` waits, were it not for its checks (R76, R263). -/
def accessStays (s : State) (c : List Byte) : Bool := accessWaits s ((cmdAddr c).toNat / 4 * 4) (cmdFn c == 2)

theorem mgmtAccessRow_idle {fn : Nat} {f : List Byte → State → State × Nat × Word} {s : State}
    (h : chainRuns s = false ∨ s.mgt.queue = []) : mgmtAccessRow fn f s = s := by
  unfold mgmtAccessRow
  split
  · rfl
  · exact mgmtRow_idle h

theorem mgmtAccessRow_eq {fn : Nat} {f : List Byte → State → State × Nat × Word} {s : State} {c : List Byte}
    {rest : List (List Byte)} (hqueue : s.mgt.queue = c :: rest) :
    mgmtAccessRow fn f s = if cmdFn c == fn && cmdWaits s c then s else mgmtFnRow fn f s := by
  rw [mgmtAccessRow, hqueue]
  rfl

theorem queueRow_of_access {i : Instr} {fn : Nat} {f : List Byte → State → State × Nat × Word}
    (h : ∀ s, exec i s = .next (mgmtAccessRow fn f s)) : QueueRow i (cmdFn · == fn) accessStays f where
  idle s hidle := by rw [h, mgmtAccessRow_idle hidle]
  other hqueue hrow := by
    rw [h, mgmtAccessRow_eq hqueue, hrow, Bool.false_and, if_neg Bool.false_ne_true, mgmtFnRow, mgmtRow_other hqueue hrow]
  stays {s c _} hqueue hcheck hrow hwaits := by
    have hstays : cmdWaits s c = true := by rw [cmdWaits, hcheck]; exact hwaits
    rw [h, mgmtAccessRow_eq hqueue, hrow, hstays, Bool.and_self, if_pos rfl]
  failed {s c _ _} hqueue hruns hrow hcheck := by
    have hgoes : cmdWaits s c = false := by rw [cmdWaits, hcheck]; rfl
    rw [h, mgmtAccessRow_eq hqueue, hgoes, Bool.and_false, if_neg Bool.false_ne_true, mgmtFnRow,
      mgmtRow_failed hqueue hruns hrow hcheck]
  passed {s c _} hqueue hruns hrow hcheck hwaits := by
    have hgoes : cmdWaits s c = false := by rw [cmdWaits, hcheck]; exact hwaits
    rw [h, mgmtAccessRow_eq hqueue, hgoes, Bool.and_false, if_neg Bool.false_ne_true, mgmtFnRow,
      mgmtRow_passed hqueue hruns hrow hcheck]

/-- The commands of CONTENT sub-operation `sub`; the unlisted SUBs are with the first. -/
def contentCmd (sub : Nat) (c : List Byte) : Bool :=
  cmdFn c == 7 && (cmdByte c 1 == sub || (sub == 1 && (cmdByte c 1 == 0 || decide (4 < cmdByte c 1))))

theorem row_nop : QueueRow .mgmtNop (fun c => cmdFn c == 0 || decide (9 ≤ cmdFn c)) (fun _ _ => false) fun _ s => (s, 0, 0) :=
  queueRow_of_exec fun _ => rfl

theorem row_read : QueueRow .mgmtRead (cmdFn · == 1) accessStays mgmtReadFn := queueRow_of_access fun _ => rfl

theorem row_write : QueueRow .mgmtWrite (cmdFn · == 2) accessStays mgmtWriteFn := queueRow_of_access fun _ => rfl

theorem row_mode : QueueRow .mgmtMode (cmdFn · == 3) (fun _ _ => false) mgmtModeFn := queueRow_of_exec fun _ => rfl

theorem row_gate : QueueRow .mgmtGate (cmdFn · == 4) (fun _ _ => false) mgmtGateFn := queueRow_of_exec fun _ => rfl

theorem row_commit : QueueRow .mgmtCommit (cmdFn · == 5) (fun _ _ => false) fun _ => mgmtCommitFn :=
  queueRow_of_exec fun _ => rfl

theorem row_keyset : QueueRow .mgmtKeyset (cmdFn · == 6) (fun _ _ => false) mgmtKeysetFn := queueRow_of_exec fun _ => rfl

theorem row_begin : QueueRow (.contentBegin false) (contentCmd 1) (fun _ _ => false) mgmtContentFn :=
  queueRow_of_exec fun _ => rfl

theorem row_check : QueueRow (.contentCheck false) (contentCmd 2) (fun _ _ => false) mgmtContentFn :=
  queueRow_of_exec fun _ => rfl

theorem row_activate : QueueRow (.contentActivate false) (contentCmd 3) (fun _ _ => false) mgmtContentFn :=
  queueRow_of_exec fun _ => rfl

theorem row_abort : QueueRow (.contentAbort false) (contentCmd 4) (fun _ _ => false) mgmtContentFn :=
  queueRow_of_exec fun _ => rfl

theorem row_logclr : QueueRow (.faultLogClear false) (cmdFn · == 8) (fun _ _ => false) fun _ => mgmtLogclrFn :=
  queueRow_of_exec fun _ => rfl

theorem contentCmd_fn {sub : Nat} {c : List Byte} (h : contentCmd sub c = true) : cmdFn c = 7 := by
  simp only [contentCmd, Bool.and_eq_true, beq_iff_eq] at h
  exact h.1

theorem contentCmd_sub {sub : Nat} {c : List Byte} (hfn : cmdFn c = 7) (h : cmdByte c 1 = sub) : contentCmd sub c = true := by
  simp [contentCmd, hfn, h]

/-- The answer to a command that a check fails (R384, R387). -/
theorem failed_spec (c : List Byte) (rest : List (List Byte)) (r : Nat) (s : State) :
    mgmtEnd c (dequeued s rest, r, 0) = { s with
        mgt := (mgmtEnd c (dequeued s rest, r, 0)).mgt, host := (mgmtEnd c (dequeued s rest, r, 0)).host } ∧
      (2 ≤ cmdFn c → raised .mgmt (mgmtEnd c (dequeued s rest, r, 0)) = true) ∧
      (cmdFn c = 1 → (mgmtEnd c (dequeued s rest, r, 0)).host = s.host) ∧
      (mgmtEnd c (dequeued s rest, r, 0)).mgt = { s.mgt with
        queue := rest, rseq := cmdSeq c, rfn := BitVec.ofNat 8 (cmdFn c), rres := BitVec.ofNat 8 r, rdata := 0 } := by
  obtain ⟨hframe, hraised, hquiet⟩ := mgmtEnd_spec c (dequeued s rest) r 0
  refine ⟨by rw [hframe]; rfl, hraised, fun h => ?_, mgmtEnd_mgt c (dequeued s rest) r 0⟩
  rw [hquiet (h ▸ by decide)]
  rfl

end Sys2Proof.Machine

/-! SUPPORT. What the functions of the management queue do once every check has passed (R262, R383-R386, R390). -/

namespace Sys2Proof.Machine

theorem office_fields {s t : State} (h : t.office = s.office) :
    t.mgt.queue = s.mgt.queue ∧ t.mgt.mseq = s.mgt.mseq ∧ t.mgt.mkey = s.mgt.mkey := by
  have hqueue : t.office.queue = s.office.queue := congrArg Mgt.queue h
  have hmseq : t.office.mseq = s.office.mseq := congrArg Mgt.mseq h
  have hmkey : t.office.mkey = s.office.mkey := congrArg Mgt.mkey h
  exact ⟨hqueue, hmseq, hmkey⟩

theorem authFn_of_two_le (m : Mgt) {n : Nat} (h : 2 ≤ n) : authFn m n = true := by
  simp only [authFn, decide_eq_true_eq]
  exact ⟨by omega, .inl (by omega)⟩

theorem admitted_mseq (s : State) {c : List Byte} (rest : List (List Byte)) (h : 2 ≤ cmdFn c) :
    (Admitted s c rest).mgt.mseq = cmdSeq c := if_pos (authFn_of_two_le s.mgt h)

/-- What every command that passed leaves of the queue and the response: its function `u` reaches the log alone. -/
theorem passed_response {s u t : State} {c : List Byte} {rest : List (List Byte)} {res : Nat} {d : Word}
    (ht : t = mgmtEnd c (u, res, d)) (h : u.office = (Admitted s c rest).office) (hfn : 2 ≤ cmdFn c) :
    t.mgt.queue = rest ∧ t.mgt.mseq = cmdSeq c ∧ t.mgt.rseq = cmdSeq c ∧ t.mgt.rres = BitVec.ofNat 8 res ∧
      raised .mgmt t = true := by
  obtain ⟨hqueue, hmseq, -⟩ := office_fields h
  rw [ht, mgmtEnd_mgt]
  exact ⟨hqueue, hmseq.trans (admitted_mseq s rest hfn), rfl, rfl, (mgmtEnd_spec c u res d).2.1 hfn⟩

theorem result_toNat (e : Ending) : (BitVec.ofNat 8 e.result).toNat = e.result := by cases e <;> rfl

/-- An access ends alike before and after its command has left the queue. -/
theorem ending_admitted (s : State) (c : List Byte) (rest : List (List Byte)) (a : Nat) (q : Ask) :
    ending (Admitted s c rest) .mgmt a q = ending s .mgmt a q := rfl

/-! ## READ and WRITE (R386) -/

theorem mgmtReadFn_of_data {c : List Byte} {s : State} (h : ending s .mgmt ((cmdAddr c).toNat / 4 * 4) .read = .data) :
    mgmtReadFn c s =
      (if (mapRead s ((cmdAddr c).toNat / 4 * 4)).2 then
          { peekEffect ((cmdAddr c).toNat / 4 * 4) s with
            mgt := { (peekEffect ((cmdAddr c).toNat / 4 * 4) s).mgt with rpois := true } }
        else peekEffect ((cmdAddr c).toNat / 4 * 4) s, 0, (mapRead s ((cmdAddr c).toNat / 4 * 4)).1) := by
  simp only [mgmtReadFn, h]

theorem mgmtReadFn_of_not_data {c : List Byte} {s : State} (h : ending s .mgmt ((cmdAddr c).toNat / 4 * 4) .read ≠ .data) :
    mgmtReadFn c s = (s, (ending s .mgmt ((cmdAddr c).toNat / 4 * 4) .read).result, 0) := by
  cases hend : ending s .mgmt ((cmdAddr c).toNat / 4 * 4) .read
  case data => exact absurd hend h
  all_goals simp only [mgmtReadFn, hend]

theorem mgmtReadFn_queue (c : List Byte) (s : State) : (mgmtReadFn c s).1.mgt.queue = s.mgt.queue := by
  obtain ⟨hqueue, -⟩ := office_fields (peekEffect_office ((cmdAddr c).toNat / 4 * 4) s)
  by_cases h : ending s .mgmt ((cmdAddr c).toNat / 4 * 4) .read = .data
  · rw [mgmtReadFn_of_data h]
    dsimp only
    split
    · exact hqueue
    · exact hqueue
  · rw [mgmtReadFn_of_not_data h]

theorem mgmtReadFn_result (c : List Byte) (s : State) :
    (mgmtReadFn c s).2.1 = (ending s .mgmt ((cmdAddr c).toNat / 4 * 4) .read).result := by
  by_cases h : ending s .mgmt ((cmdAddr c).toNat / 4 * 4) .read = .data
  · rw [mgmtReadFn_of_data h, h]
    rfl
  · rw [mgmtReadFn_of_not_data h]

/-- What a READ that passed leaves (R386). -/
theorem read_spec {s : State} {c : List Byte} (rest : List (List Byte)) (hfn : cmdFn c = 1) :
    let a := (cmdAddr c).toNat / 4 * 4
    let t := mgmtEnd c (mgmtReadFn c (Admitted s c rest))
    t.mgt.queue = rest ∧ t.mgt.rseq = cmdSeq c ∧ t.mgt.rres.toNat = (ending s .mgmt a .read).result ∧
      (ending s .mgmt a .read = .data → t.mgt.rdata = (mapRead (Admitted s c rest) a).1 ∧
        ((mapRead (Admitted s c rest) a).2 = true → t.mgt.rpois = true)) ∧
      (ending s .mgmt a .read ≠ .data → t = { s with mgt := t.mgt } ∧ t.mgt.rdata = 0) := by
  intro a t
  have hmgt : t.mgt = (mgmtReadFn c (Admitted s c rest)).1.mgt.respond c (mgmtReadFn c (Admitted s c rest)).2.1
      (mgmtReadFn c (Admitted s c rest)).2.2 := mgmtEnd_mgt c _ _ _
  rw [hmgt]
  refine ⟨mgmtReadFn_queue c _, rfl, ?_, fun h => ?_, fun h => ?_⟩
  · rw [Mgt.respond, mgmtReadFn_result, ending_admitted]
    exact result_toNat _
  · rw [mgmtReadFn_of_data (s := Admitted s c rest) h]
    exact ⟨rfl, fun hpois => by rw [if_pos hpois]; rfl⟩
  · have hread := mgmtReadFn_of_not_data (s := Admitted s c rest) h
    have ht : t = answered c (Admitted s c rest) (ending s .mgmt a .read).result 0 := by
      rw [show t = mgmtEnd c (mgmtReadFn c (Admitted s c rest)) from rfl, hread]
      exact (mgmtEnd_spec c _ _ _).2.2 (hfn ▸ by decide)
    rw [hread]
    exact ⟨by rw [ht]; rfl, rfl⟩

/-- A 32-bit write of a memory reaches of the management block the log alone. -/
theorem mapWrite_office {a m : Nat} (hm : memOf a = some m) (r : Requester) (src : BitVec 4) (v : Word) (s : State) :
    (mapWrite r src a 4 v false s).office = s.office := by
  rw [mapWrite, hm, Option.isSome_some, if_pos rfl]
  exact (mergedWrite_office _ _ _ _ _ _).trans (slideReads_office s)

theorem otherWords_of_mem {s t u : State} {a : Nat} (hmem : t.mem = u.mem) (h : OtherWords s u a) : OtherWords s t a := by
  unfold OtherWords SameWord at h ⊢
  rw [hmem]
  exact h

/-- What a WRITE that passed leaves (R386). -/
theorem write_spec {s : State} {c : List Byte} (rest : List (List Byte)) (hfn : cmdFn c = 2) :
    let a := (cmdAddr c).toNat / 4 * 4
    let q : Ask := .write 4 (cmdData c) false
    let t := mgmtEnd c (mgmtWriteFn c (Admitted s c rest))
    t.mgt.rseq = cmdSeq c ∧ raised .mgmt t = true ∧ t.mgt.rres.toNat = (ending s .mgmt a q).result ∧
      (ending s .mgmt a q ≠ .data → t = { s with mgt := t.mgt, host := t.host } ∧ t.mgt.mseq = cmdSeq c) ∧
      (ending s .mgmt a q = .data → s.mem.wf = true → ∀ m : Nat, memOf a = some m → t.mgt.mseq = cmdSeq c ∧
        rawWord t.mem a = mergedWord s m a 4 (cmdData c) false ∧ OtherWords s t a) := by
  intro a q t
  have htwo : 2 ≤ cmdFn c := hfn.ge
  obtain ⟨hframe, hraised, -⟩ :=
    mgmtEnd_spec c (accessEffect .mgmt a q (Admitted s c rest)) (ending (Admitted s c rest) .mgmt a q).result 0
  have hmgt := mgmtEnd_mgt c (accessEffect .mgmt a q (Admitted s c rest)) (ending (Admitted s c rest) .mgmt a q).result 0
  have ht : t = mgmtEnd c (accessEffect .mgmt a q (Admitted s c rest), (ending (Admitted s c rest) .mgmt a q).result, 0) := rfl
  rw [← ht] at hframe hraised hmgt
  rw [ending_admitted] at hmgt
  refine ⟨by rw [hmgt]; rfl, hraised htwo, by rw [hmgt]; exact result_toNat _, fun h => ?_, fun h hwf m hm => ?_⟩
  · rw [accessEffect_of_not_data (s := Admitted s c rest) h] at hframe hmgt
    exact ⟨by rw [hframe]; rfl, by rw [hmgt]; exact admitted_mseq s rest htwo⟩
  · rw [accessEffect_of_data (s := Admitted s c rest) h] at hframe hmgt
    obtain ⟨hself, hother⟩ := mapWrite_memory (s := Admitted s c rest) hwf hm .mgmt (eccSrc .mgmt s.free) 4 (cmdData c) false
    obtain ⟨-, hmseq, -⟩ := office_fields (mapWrite_office hm .mgmt (eccSrc .mgmt s.free) (cmdData c) (Admitted s c rest))
    have hmem : t.mem = (mapWrite .mgmt (eccSrc .mgmt s.free) a 4 (cmdData c) false (Admitted s c rest)).mem := by rw [hframe]; rfl
    refine ⟨by rw [hmgt]; exact hmseq.trans (admitted_mseq s rest htwo), ?_, ?_⟩
    · rw [hmem]
      exact hself
    · exact otherWords_of_mem hmem hother

theorem mgmtEnd_frame (c : List Byte) (r : State × Nat × Word) :
    mgmtEnd c r = { r.1 with mgt := (mgmtEnd c r).mgt, host := (mgmtEnd c r).host } := by
  obtain ⟨u, res, d⟩ := r
  rw [mgmtEnd_mgt]
  exact (mgmtEnd_spec c u res d).1

/-! ## MODE, GATE and COMMIT (R39, R91, R262) -/

/-- What a MODE that passed leaves (R39). -/
theorem mode_spec {s : State} {c : List Byte} (rest : List (List Byte)) (hfn : cmdFn c = 3) :
    let t := mgmtEnd c (mgmtModeFn c (Admitted s c rest))
    t.mode = { s.mode with mgmtReq := some (BitVec.ofNat 3 (cmdByte c 1)) } ∧ t.mgt.rres = 0 ∧ t.mgt.mseq = cmdSeq c ∧
      t.mgt.queue = rest ∧ raised .mgmt t = true := by
  intro t
  have hoffice : (mgmtRequest (BitVec.ofNat 3 (cmdByte c 1)) (Admitted s c rest)).office = (Admitted s c rest).office := rfl
  obtain ⟨hqueue, hmseq, -, hres, hraised⟩ :=
    passed_response (t := t) (res := 0) (d := (mgmtModeFn c (Admitted s c rest)).2.2) rfl hoffice (hfn ▸ by decide)
  refine ⟨?_, hres, hmseq, hqueue, hraised⟩
  exact congrArg State.mode (mgmtEnd_frame c (mgmtModeFn c (Admitted s c rest)))

theorem pd1_on_of_runs {s : State} (h : chainRuns s = true) : s.gate.pd[(1 : Fin 67)] = .on := by
  have hpd : pdOn s 1 = true := by
    simp only [chainRuns, pd1Up, Bool.and_eq_true] at h
    exact h.1.2
  simpa [pdOn] using hpd

/-- A refused command leaves every domain as it is (R92). -/
theorem gateCommand_refused_pd {g : GateCmd} {r : Requester} {pd : BitVec 7} {s : State}
    (h : gateRefuses s g r (gateDomain pd) = true) : (gateCommand r g pd s).gate.pd = s.gate.pd := by
  obtain ⟨hnop, hany⟩ := (Bool.and_eq_true _ _).mp h
  rw [gateCommand_refused (bne_iff_ne.mp hnop) rfl hany]
  rfl

theorem mgmtGateFn_admitted (s : State) (c : List Byte) (rest : List (List Byte)) :
    mgmtGateFn c (Admitted s c rest) =
      (gateCommand .mgmt (GateCmd.ofCode (cmdByte c 1 % 8)) ((cmdAddr c).setWidth 7) (Admitted s c rest),
        if gateRefuses s (GateCmd.ofCode (cmdByte c 1 % 8)) .mgmt (gateDomain ((cmdAddr c).setWidth 7)) then 5 else 0,
        (mgmtGateFn c (Admitted s c rest)).2.2) := rfl

/-- What a GATE that passed leaves (R91, R92). -/
theorem gate_spec {s : State} {c : List Byte} (rest : List (List Byte)) (hfn : cmdFn c = 4) (hruns : chainRuns s = true) :
    let g := GateCmd.ofCode (cmdByte c 1 % 8)
    let pd := (cmdAddr c).setWidth 7
    let t := mgmtEnd c (mgmtGateFn c (Admitted s c rest))
    t.mgt.mseq = cmdSeq c ∧ t.mgt.queue = rest ∧ raised .mgmt t = true ∧
      t.gate = (gateCommand .mgmt g pd (Admitted s c rest)).gate ∧
      (gateRefuses s g .mgmt (gateDomain pd) = true → t.mgt.rres = 5 ∧ t.gate.pd = s.gate.pd) ∧
      (gateRefuses s g .mgmt (gateDomain pd) = false → t.mgt.rres = 0) := by
  intro g pd t
  have ht : t = mgmtEnd c (mgmtGateFn c (Admitted s c rest)) := rfl
  have hoffice : (gateCommand .mgmt g pd (Admitted s c rest)).office = (Admitted s c rest).office :=
    gateCommand_office (s := Admitted s c rest) (pd1_on_of_runs hruns) .mgmt g pd
  have hrefused (h : gateRefuses (Admitted s c rest) g .mgmt (gateDomain pd) = true) :
      (gateCommand .mgmt g pd (Admitted s c rest)).gate.pd = s.gate.pd := gateCommand_refused_pd h
  rw [mgmtGateFn_admitted] at ht
  obtain ⟨hqueue, hmseq, -, hres, hraised⟩ := passed_response ht hoffice (hfn ▸ by decide)
  have hgate : t.gate = (gateCommand .mgmt g pd (Admitted s c rest)).gate := by rw [ht, mgmtEnd_frame]
  refine ⟨hmseq, hqueue, hraised, hgate, fun h => ⟨?_, hgate ▸ hrefused h⟩, fun h => ?_⟩
  · rw [hres, if_pos h]
    rfl
  · rw [hres, if_neg (Bool.eq_false_iff.mp h)]
    rfl

/-- What a COMMIT that passed leaves (R262). -/
theorem commit_spec {s : State} {c : List Byte} (rest : List (List Byte)) (hfn : cmdFn c = 5) :
    let t := mgmtEnd c (mgmtCommitFn (Admitted s c rest))
    t.mgt.rres = 0 ∧ t.mgt.mseq = cmdSeq c ∧ t.mgt.queue = rest ∧ t.epoch = (commit (Admitted s c rest)).epoch ∧
      raised .mgmt t = true := by
  intro t
  have ht : t = mgmtEnd c (commit (Admitted s c rest), 0, epochRead (commit (Admitted s c rest)).epoch) := rfl
  obtain ⟨hqueue, hmseq, -, hres, hraised⟩ := passed_response ht (commit_office (Admitted s c rest)) (hfn ▸ by decide)
  have hepoch : t.epoch = (commit (Admitted s c rest)).epoch := by rw [ht, mgmtEnd_frame]
  exact ⟨hres, hmseq, hqueue, hepoch, hraised⟩

/-! ## KEYSET (R384, R390) -/

section

variable {c : List Byte} {s : State}

theorem mgmtKeysetFn_beyond (h : 16 < cmdByte c 1) : mgmtKeysetFn c s = (s, 5, 0) := by
  simp only [mgmtKeysetFn, if_pos h]

theorem mgmtKeysetFn_management (h : cmdByte c 1 = 16) :
    mgmtKeysetFn c s = ({ s with mgt := setMkey (aesDecrypt s.mgt.mkey (slice c 20 16)) s.mgt }, 0, 0) := by
  simp only [mgmtKeysetFn, if_neg (show ¬16 < cmdByte c 1 by omega), if_pos h]

theorem mgmtKeysetFn_session (h : cmdByte c 1 < 16) :
    mgmtKeysetFn c s =
      if pdOn s 12 then (setKey (cmdByte c 1) (aesDecrypt s.mgt.mkey (slice c 20 16)) s, 0, 0) else (s, 6, 0) := by
  simp only [mgmtKeysetFn, if_neg (show ¬16 < cmdByte c 1 by omega), if_neg (show ¬cmdByte c 1 = 16 by omega)]

end

theorem keyset_management {s : State} {c : List Byte} (rest : List (List Byte)) (hfn : cmdFn c = 6) (h : cmdByte c 1 = 16) :
    let t := mgmtEnd c (mgmtKeysetFn c (Admitted s c rest))
    t = { s with mgt := t.mgt, host := t.host } ∧ t.mgt.rres = 0 ∧ t.mgt.mseq = 0 ∧
      t.mgt.mkey = aesDecrypt s.mgt.mkey (slice c 20 16) ∧ raised .mgmt t = true := by
  intro t
  have ht : t = mgmtEnd c (mgmtKeysetFn c (Admitted s c rest)) := rfl
  rw [mgmtKeysetFn_management h] at ht
  obtain ⟨hframe, hraised, -⟩ := mgmtEnd_spec c
    { Admitted s c rest with mgt := setMkey (aesDecrypt (Admitted s c rest).mgt.mkey (slice c 20 16)) (Admitted s c rest).mgt } 0 0
  rw [← ht] at hframe hraised
  have hmgt := congrArg State.mgt hframe
  exact ⟨by rw [hframe]; rfl, by rw [hmgt]; rfl, by rw [hmgt]; rfl, by rw [hmgt]; rfl, hraised (hfn ▸ by decide)⟩

theorem keyset_session {s : State} {c : List Byte} (rest : List (List Byte)) (hfn : cmdFn c = 6) {n : SIdx}
    (h : cmdByte c 1 = n.val) (hpd : pdOn s 12 = true) :
    let t := mgmtEnd c (mgmtKeysetFn c (Admitted s c rest))
    t.mgt.rres = 0 ∧ sess t n = { sess s n with key := aesDecrypt s.mgt.mkey (slice c 20 16), seq := 0 } ∧
      (∀ m : SIdx, m ≠ n → sess t m = sess s m) ∧ t.mgt.mkey = s.mgt.mkey ∧ raised .mgmt t = true := by
  intro t
  have ht : t = mgmtEnd c (mgmtKeysetFn c (Admitted s c rest)) := rfl
  rw [mgmtKeysetFn_session (by omega), if_pos (show pdOn (Admitted s c rest) 12 = true from hpd), h] at ht
  obtain ⟨hframe, hraised, -⟩ :=
    mgmtEnd_spec c (setKey n (aesDecrypt (Admitted s c rest).mgt.mkey (slice c 20 16)) (Admitted s c rest)) 0 0
  rw [← ht] at hframe hraised
  have hmgt := congrArg State.mgt hframe
  have hsess (m : Nat) : sess t m = sess (setKey n (aesDecrypt s.mgt.mkey (slice c 20 16)) (Admitted s c rest)) m := by
    rw [hframe]
    rfl
  refine ⟨by rw [hmgt]; rfl, ?_, fun m hm => ?_, by rw [hmgt]; rfl, hraised (hfn ▸ by decide)⟩
  · rw [hsess, setKey, sess_modSess_self]
    rfl
  · rw [hsess, setKey, sess_modSess_other hm]
    rfl

theorem keyset_refused {s : State} {c : List Byte} (rest : List (List Byte)) (hfn : cmdFn c = 6)
    (h : 16 < cmdByte c 1 ∨ cmdByte c 1 < 16 ∧ pdOn s 12 = false) :
    let t := mgmtEnd c (mgmtKeysetFn c (Admitted s c rest))
    t = { s with mgt := t.mgt, host := t.host } ∧ t.mgt.rres = (if 16 < cmdByte c 1 then 5 else 6) ∧
      t.mgt.mkey = s.mgt.mkey ∧ raised .mgmt t = true := by
  intro t
  have hcode : mgmtKeysetFn c (Admitted s c rest) = (Admitted s c rest, if 16 < cmdByte c 1 then 5 else 6, 0) := by
    obtain hbeyond | ⟨hlt, hpd⟩ := h
    · rw [mgmtKeysetFn_beyond hbeyond, if_pos hbeyond]
    · have hoff : pdOn (Admitted s c rest) 12 = false := hpd
      rw [mgmtKeysetFn_session hlt, hoff, if_neg Bool.false_ne_true, if_neg (show ¬16 < cmdByte c 1 by omega)]
  have ht : t = mgmtEnd c (Admitted s c rest, if 16 < cmdByte c 1 then 5 else 6, 0) := by rw [← hcode]
  obtain ⟨hframe, hraised, -⟩ := mgmtEnd_spec c (Admitted s c rest) (if 16 < cmdByte c 1 then 5 else 6) 0
  rw [← ht] at hframe hraised
  have hmgt := congrArg State.mgt hframe
  refine ⟨by rw [hframe]; rfl, ?_, by rw [hmgt]; rfl, hraised (hfn ▸ by decide)⟩
  rw [hmgt]
  split <;> rfl

/-! ## CONTENT and LOGCLR (R391, R393-R395) -/

/-- A sub-operation changes the management block alone, and its result is OK, REFUSED or BUSY. -/
theorem contentOp_frame (sub : Nat) (cid : Word) (len : Nat) (s : State) :
    (contentOp sub cid len s).1 = { s with mgt := (contentOp sub cid len s).1.mgt } ∧ (contentOp sub cid len s).2 ≤ 8 := by
  unfold contentOp
  extract_lets m
  split
  · split
    · exact ⟨rfl, by simp⟩
    · split <;> exact ⟨rfl, by simp⟩
  · split
    · exact ⟨rfl, by simp⟩
    · split <;> exact ⟨rfl, by simp⟩
  · split
    · exact ⟨rfl, by simp⟩
    · split <;> exact ⟨rfl, by simp⟩
  · split <;> exact ⟨rfl, by simp⟩
  · exact ⟨rfl, by simp⟩

theorem contentOp_unlisted {sub : Nat} (h : sub = 0 ∨ 4 < sub) (cid : Word) (len : Nat) (s : State) :
    contentOp sub cid len s = (s, 5) := by
  unfold contentOp
  split
  iterate 4 omega
  rfl

/-- What a CONTENT that passed leaves (R384). -/
theorem content_spec {s : State} {c : List Byte} (rest : List (List Byte)) (hfn : cmdFn c = 7) :
    let r := contentOp (cmdByte c 1) (cmdAddr c) (cmdData c).toNat (Admitted s c rest)
    let t := mgmtEnd c (mgmtContentFn c (Admitted s c rest))
    t = { s with mgt := t.mgt, host := t.host } ∧ t.mgt.rres.toNat = r.2 ∧ raised .mgmt t = true ∧
      t.mgt = { r.1.mgt with rseq := cmdSeq c, rfn := 7, rres := t.mgt.rres, rdata := t.mgt.rdata } := by
  intro r t
  obtain ⟨hop, hres⟩ := contentOp_frame (cmdByte c 1) (cmdAddr c) (cmdData c).toNat (Admitted s c rest)
  obtain ⟨hframe, hraised, -⟩ := mgmtEnd_spec c r.1 r.2 (mgtRead r.1 0x40)
  have hmgt : t.mgt = r.1.mgt.respond c r.2 (mgtRead r.1 0x40) := mgmtEnd_mgt c r.1 r.2 (mgtRead r.1 0x40)
  have ht : t = { r.1 with mgt := t.mgt, host := t.host } := by rw [hmgt]; exact hframe
  refine ⟨?_, ?_, hraised (hfn ▸ by decide), ?_⟩
  · exact ht.trans (by rw [show r.1 = _ from hop]; rfl)
  · rw [hmgt]
    exact Nat.mod_eq_of_lt (Nat.lt_of_le_of_lt hres (by decide))
  · rw [hmgt, Mgt.respond, hfn]
    rfl

/-- What a LOGCLR that passed leaves (R391). -/
theorem logclr_spec {s : State} {c : List Byte} (rest : List (List Byte)) (hfn : cmdFn c = 8) :
    let t := mgmtEnd c (mgmtLogclrFn (Admitted s c rest))
    t = { s with mgt := t.mgt, host := t.host } ∧ t.mgt.rres = 0 ∧ t.mgt.log = [] ∧ t.mgt.logTotal = 0 ∧
      t.mgt.mseq = cmdSeq c := by
  intro t
  have hframe := (mgmtEnd_spec c { Admitted s c rest with mgt := clearLog (Admitted s c rest).mgt } 0 0).1
  have hmgt : t.mgt = (clearLog (Admitted s c rest).mgt).respond c 0 0 := mgmtEnd_mgt c _ _ _
  have ht : t = { s with mgt := t.mgt, host := t.host } := by
    rw [hmgt]
    exact hframe
  exact ⟨ht, by rw [hmgt]; rfl, by rw [hmgt]; rfl, by rw [hmgt]; rfl,
    by rw [hmgt]; exact admitted_mseq s rest (hfn ▸ by decide)⟩

end Sys2Proof.Machine

/-! SUPPORT. The content engine and the cells of the management block (R382, R387, R390, R393-R395). -/

namespace Sys2Proof.Machine

/-! ## The host's commands (R390, R391, R393-R395) -/

/-- A host command of the content engine, once MGT can be written. -/
theorem contentRow_host {sub : Nat} (hsub : 1 ≤ sub ∧ sub ≤ 4) (s : State) :
    contentRow sub true s = if hostUp s then (contentOp sub s.mgt.hostCid s.mgt.hostLen.toNat s).1 else s := by
  rw [contentRow, if_pos rfl, writeCcmd, if_pos hsub]

theorem exec_contentBegin (host : Bool) (s : State) : exec (.contentBegin host) s = .next (contentRow 1 host s) := rfl

theorem exec_contentCheck (host : Bool) (s : State) : exec (.contentCheck host) s = .next (contentRow 2 host s) := rfl

theorem exec_contentActivate (host : Bool) (s : State) : exec (.contentActivate host) s = .next (contentRow 3 host s) := rfl

theorem exec_contentAbort (host : Bool) (s : State) : exec (.contentAbort host) s = .next (contentRow 4 host s) := rfl

theorem exec_faultLogClear_host (s : State) :
    exec (.faultLogClear true) s = .next (if hostUp s then { s with mgt := clearLog s.mgt } else s) := rfl

section

variable {s : State} (h : hostUp s = true)

include h

theorem exec_contentBegin_host :
    exec (.contentBegin true) s = .next (contentOp 1 s.mgt.hostCid s.mgt.hostLen.toNat s).1 := by
  rw [exec_contentBegin, contentRow_host (by decide), if_pos h]

theorem exec_contentCheck_host :
    exec (.contentCheck true) s = .next (contentOp 2 s.mgt.hostCid s.mgt.hostLen.toNat s).1 := by
  rw [exec_contentCheck, contentRow_host (by decide), if_pos h]

theorem exec_contentActivate_host :
    exec (.contentActivate true) s = .next (contentOp 3 s.mgt.hostCid s.mgt.hostLen.toNat s).1 := by
  rw [exec_contentActivate, contentRow_host (by decide), if_pos h]

theorem exec_contentAbort_host :
    exec (.contentAbort true) s = .next (contentOp 4 s.mgt.hostCid s.mgt.hostLen.toNat s).1 := by
  rw [exec_contentAbort, contentRow_host (by decide), if_pos h]

end

section

variable {cid : Word} {len : Nat} {s : State}

theorem contentOp_one : contentOp 1 cid len s =
    if contentBusy s.mgt then (s, 8)
    else if beginAllowed s.mgt len then ({ s with mgt := contentStart cid len s.mgt }, 0) else (s, 5) := rfl

theorem contentOp_two : contentOp 2 cid len s =
    if contentBusy s.mgt then (s, 8)
    else if s.mgt.cstate = 1 ∨ s.mgt.cstate = 3 then ({ s with mgt := checkStart s.mgt }, 0) else (s, 5) := rfl

theorem contentOp_three : contentOp 3 cid len s =
    if contentBusy s.mgt then (s, 8)
    else if s.mgt.cstate = 3 ∧ s.mode.code = .service then ({ s with mgt := { s.mgt with cstate := 4, abort := false } }, 0)
    else (s, 5) := rfl

theorem contentOp_four : contentOp 4 cid len s =
    if s.mgt.cstate = 4 then ({ s with mgt := { s.mgt with abort := true } }, 0)
    else ({ s with mgt := { s.mgt with cstate := 0, reason := 0, chunks := [] } }, 0) := rfl

/-- While the engine checks or activates, only ABORT acts (R384). -/
theorem contentOp_busy (h : contentBusy s.mgt = true) {sub : Nat} (hsub : sub = 1 ∨ sub = 2 ∨ sub = 3) :
    (contentOp sub cid len s).1 = s := by
  obtain rfl | rfl | rfl := hsub
  · rw [contentOp_one, if_pos h]
  · rw [contentOp_two, if_pos h]
  · rw [contentOp_three, if_pos h]

theorem contentOp_begin_refused (h : beginAllowed s.mgt len = false) : (contentOp 1 cid len s).1 = s := by
  rw [contentOp_one, h, if_neg Bool.false_ne_true]
  split <;> rfl

theorem contentOp_begin (hbusy : contentBusy s.mgt = false) (h : beginAllowed s.mgt len = true) :
    (contentOp 1 cid len s).1 = { s with mgt := contentStart cid len s.mgt } := by
  rw [contentOp_one, hbusy, if_neg Bool.false_ne_true, if_pos h]

theorem contentOp_check (h : s.mgt.cstate = 1 ∨ s.mgt.cstate = 3) :
    (contentOp 2 cid len s).1 = { s with mgt := checkStart s.mgt } := by
  have hbusy : contentBusy s.mgt = false := by rcases h with h | h <;> rw [contentBusy, h] <;> rfl
  rw [contentOp_two, hbusy, if_neg Bool.false_ne_true, if_pos h]

theorem contentOp_check_refused (h : ¬(s.mgt.cstate = 1 ∨ s.mgt.cstate = 3)) : (contentOp 2 cid len s).1 = s := by
  rw [contentOp_two, if_neg h]
  split <;> rfl

theorem contentOp_activate (hready : s.mgt.cstate = 3) (hmode : s.mode.code = .service) :
    (contentOp 3 cid len s).1 = { s with mgt := { s.mgt with cstate := 4, abort := false } } := by
  have hbusy : contentBusy s.mgt = false := by rw [contentBusy, hready]; rfl
  rw [contentOp_three, hbusy, if_neg Bool.false_ne_true, if_pos ⟨hready, hmode⟩]

theorem contentOp_activate_refused (h : ¬(s.mgt.cstate = 3 ∧ s.mode.code = .service)) : (contentOp 3 cid len s).1 = s := by
  rw [contentOp_three, if_neg h]
  split <;> rfl

theorem contentOp_abort_copy (h : s.mgt.cstate = 4) :
    (contentOp 4 cid len s).1 = { s with mgt := { s.mgt with abort := true } } := by rw [contentOp_four, if_pos h]

theorem contentOp_abort (h : s.mgt.cstate ≠ 4) :
    (contentOp 4 cid len s).1 = { s with mgt := { s.mgt with cstate := 0, reason := 0, chunks := [] } } := by
  rw [contentOp_four, if_neg h]

end

theorem exec_mgmtKeyWrite (v : Word) (s : State) :
    exec (.mgmtKeyWrite v) s =
      .next (if pd1Up s && !(s.mode.code == .roost) then { s with mgt := writeMkey 3 v s.mgt } else s) := rfl

/-- The management key that a write of word 3 completes (R390). -/
def joinedKey (v : Word) (m : Mgt) : BitVec 128 :=
  BitVec.ofNat 128 ((((vget m.mkeyStage 0 0).toNat * 4294967296 + (vget m.mkeyStage 1 0).toNat) * 4294967296
    + (vget m.mkeyStage 2 0).toNat) * 4294967296 + v.toNat)

theorem writeMkey_last {v : Word} {m : Mgt} (h : Config.mklock = false) : writeMkey 3 v m = setMkey (joinedKey v m) m := by
  rw [writeMkey, h, if_neg Bool.false_ne_true]
  rfl

theorem joinedKey_toNat (v : Word) (m : Mgt) :
    (joinedKey v m).toNat =
      ((m.mkeyStage[0].toNat * 4294967296 + m.mkeyStage[1].toNat) * 4294967296 + m.mkeyStage[2].toNat) * 4294967296 + v.toNat := by
  have h0 := m.mkeyStage[0].isLt
  have h1 := m.mkeyStage[1].isLt
  have h2 := m.mkeyStage[2].isLt
  have hv := v.isLt
  rw [joinedKey, show vget m.mkeyStage 0 0 = m.mkeyStage[0] from vget_fin m.mkeyStage 0 0,
    show vget m.mkeyStage 1 0 = m.mkeyStage[1] from vget_fin m.mkeyStage 1 0,
    show vget m.mkeyStage 2 0 = m.mkeyStage[2] from vget_fin m.mkeyStage 2 0, BitVec.toNat_ofNat]
  refine Nat.mod_eq_of_lt ?_
  omega

theorem joinedKey_words (v : Word) (m : Mgt) :
    (joinedKey v m).setWidth 32 = v ∧
      joinedKey v m >>> 32 = ((m.mkeyStage[0] ++ m.mkeyStage[1] : BitVec 64) ++ m.mkeyStage[2]).setWidth 128 := by
  have h0 := m.mkeyStage[0].isLt
  have h1 := m.mkeyStage[1].isLt
  have h2 := m.mkeyStage[2].isLt
  have hv := v.isLt
  have hkey := joinedKey_toNat v m
  constructor <;> apply BitVec.eq_of_toNat_eq
  · rw [BitVec.toNat_setWidth, hkey]
    omega
  · rw [BitVec.toNat_ushiftRight, hkey, BitVec.toNat_setWidth, BitVec.toNat_append, BitVec.toNat_append,
      ← Nat.shiftLeft_add_eq_or_of_lt h1, ← Nat.shiftLeft_add_eq_or_of_lt h2]
    simp only [Nat.shiftLeft_eq, Nat.shiftRight_eq_div_pow]
    omega

/-! ## CHECK and ACTIVATE end (R394, R395) -/

theorem exec_contentCheckDone (s : State) : exec .contentCheckDone s = .next (if s.mgt.cstate = 2 then checkEnd s else s) := rfl

theorem exec_contentActivateDone (s : State) :
    exec .contentActivateDone s = .next (if s.mgt.cstate = 4 then activateEnd s else s) := rfl

theorem checkReason_absent (m : Mgt) (img : List Byte) (bad : Bool) : checkReason m img bad true = some 5 := rfl

theorem checkReason_ne_zero {m : Mgt} {img : List Byte} {bad absent : Bool} {r : BitVec 3}
    (h : checkReason m img bad absent = some r) : r ≠ 0 := by
  unfold checkReason at h
  split_ifs at h <;> (obtain rfl := Option.some.inj h; decide)

/-- The outcome of the CHECK that ends in `s`. -/
def checkOutcome (s : State) : Option (BitVec 3) :=
  checkReason s.mgt (engineRead s s.mgt.cstage.toNat s.mgt.len).1 (engineRead s s.mgt.cstage.toNat s.mgt.len).2.1
    (engineRead s s.mgt.cstage.toNat s.mgt.len).2.2

/-- The state in which the end of a CHECK stores its outcome. -/
def checkRead (s : State) : State :=
  if (engineRead s s.mgt.cstage.toNat s.mgt.len).2.2 then s
  else readWordsEffect 8 s.mgt.cstage.toNat ((s.mgt.len + 7) / 8) s

theorem checkEnd_spec (s : State) :
    raised .mgmt (checkEnd s) = true ∧ (checkEnd s).mgt.cstate = (if (checkOutcome s).isSome then 6 else 3) ∧
      (checkEnd s).mgt.reason = (checkOutcome s).getD 0 ∧ (checkEnd s).mem = (checkRead s).mem :=
  ⟨raised_raise .mgmt _, rfl, rfl, rfl⟩

/-- A copy fails for poison or for an access that ends ABSENT. -/
theorem copySection_reason {base : Nat} {x : Section} {s : State} {r : BitVec 3} (h : (copySection base x s).2 = some r) :
    r = 4 ∨ r = 5 := by
  unfold copySection at h
  dsimp only at h
  split at h
  · exact .inr (Option.some.inj h).symm
  · split at h
    · exact .inl (Option.some.inj h).symm
    · dsimp only at h
      split at h
      · exact absurd h (by simp)
      · exact .inr (Option.some.inj h).symm

theorem copySections_reason {base : Nat} {xs : List Section} {s : State} {r : BitVec 3}
    (h : (copySections base xs s).2 = some r) : r = 4 ∨ r = 5 := by
  induction xs generalizing s with
  | nil => exact absurd h (by simp [copySections])
  | cons x xs ih =>
    rw [copySections] at h
    split at h
    · next t q heq =>
      obtain rfl := Option.some.inj h
      exact copySection_reason (congrArg Prod.snd heq)
    · exact ih h

/-- Poison, ABSENT, or the ABORT itself. -/
theorem activateEnd_spec (s : State) :
    ((activateEnd s).mgt.cstate = 5 ∧ (activateEnd s).mgt.reason = 0 ∧ s.mgt.abort = false) ∨
      ((activateEnd s).mgt.cstate = 6 ∧ ((activateEnd s).mgt.reason = 4 ∨ (activateEnd s).mgt.reason = 5 ∨
        (activateEnd s).mgt.reason = 6 ∧ s.mgt.abort = true)) := by
  unfold activateEnd
  dsimp only
  split
  · next habort =>
    refine .inr ⟨rfl, ?_⟩
    dsimp only
    generalize hcopy : copySections s.mgt.cstage.toNat _ _ = q
    cases hr : q.2
    case none => exact .inr (.inr ⟨rfl, habort⟩)
    case some r =>
      obtain rfl | rfl := copySections_reason (hcopy ▸ hr)
      · exact .inl rfl
      · exact .inr (.inl rfl)
  · next habort =>
    split
    · exact .inl ⟨rfl, rfl, Bool.eq_false_iff.mpr habort⟩
    · next t r heq =>
      refine .inr ⟨rfl, ?_⟩
      obtain h | h := copySections_reason (congrArg Prod.snd heq)
      · exact .inl h
      · exact .inr (.inl h)

/-! ## Cells (R382, R387, R393) -/

theorem tapCell_delivers {want : Nat} {c : CellRx} {s : State} (htap : tapRuns s (ringPort c.ring) = true)
    (hgood : (c.ok && cellCrcOk c.bytes) = true) (hhere : (addressedHere s c.bytes && !cellSeen s c) = true)
    (htype : cellType c.bytes = want) (hwant : want ≠ 0) :
    tapCell want c s = consumeCell (c.frame, c.flag, c.idx) c.bytes (recordCell c s) := by
  obtain ⟨hok, hcrc⟩ := (Bool.and_eq_true _ _).mp hgood
  obtain ⟨haddr, hnew⟩ := (Bool.and_eq_true _ _).mp hhere
  have hseen : cellSeen s c = false := by simpa using hnew
  have htype0 : cellType c.bytes ≠ 0 := htype ▸ hwant
  simp [tapCell, deliverCell, htap, hok, hcrc, haddr, hseen, htype, hwant]

theorem exec_mgmtCommandQueue (c : CellRx) (s : State) : exec (.mgmtCommandQueue c) s = .next (tapCell 5 c s) := rfl

theorem exec_bulkCell (c : CellRx) (s : State) : exec (.bulkCell c) s = .next (tapCell 7 c s) := rfl

section

variable {c : CellRx} {s : State} (htap : tapRuns s (ringPort c.ring) = true) (hgood : (c.ok && cellCrcOk c.bytes) = true)
  (hhere : (addressedHere s c.bytes && !cellSeen s c) = true)

include htap hgood hhere

theorem exec_mgmtCommandQueue_delivers (htype : cellType c.bytes = 5) :
    exec (.mgmtCommandQueue c) s = .next (queueCommand c.bytes (recordCell c s)) := by
  rw [exec_mgmtCommandQueue, tapCell_delivers htap hgood hhere htype (by decide)]
  simp only [consumeCell, htype]

theorem exec_bulkCell_delivers (htype : cellType c.bytes = 7) :
    exec (.bulkCell c) s = .next (bulkChunk c.bytes (recordCell c s)) := by
  rw [exec_bulkCell, tapCell_delivers htap hgood hhere htype (by decide)]
  simp only [consumeCell, htype]

end

/-- The chunks of the image in load once the chunk of cell `c` is there. -/
def chunksWith (c : CellBytes) (m : Mgt) : List Nat :=
  if m.chunks.contains (payNum c 4 4 / 56) then m.chunks else payNum c 4 4 / 56 :: m.chunks

/-- The management block `m` with the chunks `l` stored; the last one starts the CHECK. -/
def withChunks (l : List Nat) (m : Mgt) : Mgt :=
  if l.length = chunkCount m.len then checkStart { m with chunks := l } else { m with chunks := l }

theorem withChunks_fields (l : List Nat) (m : Mgt) :
    (withChunks l m).chunks = l ∧ (withChunks l m).bulkdrop = m.bulkdrop ∧
      (withChunks l m).cstate = if l.length = chunkCount m.len then 2 else m.cstate := by
  unfold withChunks
  split <;> exact ⟨rfl, rfl, rfl⟩

section

variable {c : CellBytes} {s : State} (htakes : takesMgmt s = true)

include htakes

theorem queueCommand_eq : queueCommand c s =
    if cellAux c / 256 % 16 ≠ 4 then { s with mgt := { s.mgt with badform := satInc s.mgt.badform } }
    else if 8 ≤ s.mgt.queue.length then { s with mgt := { s.mgt with cdrop := satInc s.mgt.cdrop } }
    else { s with mgt := { s.mgt with queue := s.mgt.queue ++ [c.toList.take 68] } } := by
  rw [queueCommand, htakes]
  rfl

theorem queueCommand_badform (h : cellAux c / 256 % 16 ≠ 4) :
    queueCommand c s = { s with mgt := { s.mgt with badform := satInc s.mgt.badform } } := by
  rw [queueCommand_eq htakes, if_pos h]

theorem queueCommand_full (h : cellAux c / 256 % 16 = 4) (hfull : 8 ≤ s.mgt.queue.length) :
    queueCommand c s = { s with mgt := { s.mgt with cdrop := satInc s.mgt.cdrop } } := by
  rw [queueCommand_eq htakes, if_neg (not_not_intro h), if_pos hfull]

theorem queueCommand_room (h : cellAux c / 256 % 16 = 4) (hroom : s.mgt.queue.length < 8) :
    queueCommand c s = { s with mgt := { s.mgt with queue := s.mgt.queue ++ [c.toList.take 68] } } := by
  rw [queueCommand_eq htakes, if_neg (not_not_intro h), if_neg (Nat.not_le.mpr hroom)]

/-- A chunk that the image in load does not want counts BULKDROP (R393). -/
theorem bulkChunk_dropped (h : ¬(s.mgt.cstate = 1 ∧ payNum c 0 4 = s.mgt.cid.toNat ∧ payNum c 4 4 % 56 = 0 ∧
    payNum c 4 4 < s.mgt.len)) :
    bulkChunk c s = { s with mgt := { s.mgt with bulkdrop := satInc s.mgt.bulkdrop } } := by
  rw [bulkChunk, htakes]
  exact if_neg h

/-- A chunk of the image in load is stored; the last one starts the CHECK (R393). -/
theorem bulkChunk_taken (h : s.mgt.cstate = 1 ∧ payNum c 0 4 = s.mgt.cid.toNat ∧ payNum c 4 4 % 56 = 0 ∧
    payNum c 4 4 < s.mgt.len) :
    (bulkChunk c s).mgt.chunks = chunksWith c s.mgt ∧ (bulkChunk c s).mgt.bulkdrop = s.mgt.bulkdrop ∧
      (bulkChunk c s).mgt.cstate = if (chunksWith c s.mgt).length = chunkCount s.mgt.len then 2 else 1 := by
  have hchunk : (bulkChunk c s).mgt = withChunks (chunksWith c s.mgt) (mewsWrites (s.mgt.cstage.toNat + payNum c 4 4)
      (packWords ((List.range 56).map fun i => payByte c (8 + i))) s).mgt := by
    rw [bulkChunk, htakes]
    exact congrArg State.mgt (if_pos h)
  have hkept := mewsWrites_office (s.mgt.cstage.toNat + payNum c 4 4)
    (packWords ((List.range 56).map fun i => payByte c (8 + i))) s
  rw [hchunk]
  generalize mewsWrites _ _ s = u at hkept
  have hbulkdrop : u.office.bulkdrop = s.office.bulkdrop := congrArg Mgt.bulkdrop hkept
  have hlen : u.office.len = s.office.len := congrArg Mgt.len hkept
  have hcstate : u.office.cstate = s.office.cstate := congrArg Mgt.cstate hkept
  obtain ⟨hchunks, hdrop, hstate⟩ := withChunks_fields (chunksWith c s.mgt) u.mgt
  refine ⟨hchunks, hdrop.trans hbulkdrop, hstate.trans ?_⟩
  rw [show u.mgt.len = s.mgt.len from hlen, show u.mgt.cstate = 1 from hcstate.trans h.1]

end

end Sys2Proof.Machine

/-! SUPPORT. The rows of the management queue as the statement takes them: by FN and SUB (R384, R387, Table 16.2). -/

namespace Sys2Proof.Machine

/-- Instruction `i` leaves a command that is not of function `fn`, and answers one of its own (`P`) that a check fails. -/
def AnswersFailures (i : Instr) (fn : Nat) (P : Prop) (c : List Byte) (rest : List (List Byte)) (s : State) : Prop :=
  (cmdFn c ≠ fn → exec i s = .next s) ∧
    ∀ r : Nat, cmdCheck s.mgt c = some r → cmdFn c = fn → P → Gives i s fun t =>
      t = { s with mgt := t.mgt, host := t.host } ∧ (2 ≤ fn → raised .mgmt t = true) ∧ (fn = 1 → t.host = s.host) ∧
      t.mgt = { s.mgt with queue := rest, rseq := cmdSeq c, rfn := BitVec.ofNat 8 (cmdFn c), rres := BitVec.ofNat 8 r
                           rdata := 0 }

section

variable {i : Instr} {waits : State → List Byte → Bool} {f : List Byte → State → State × Nat × Word} {c : List Byte}
  {rest : List (List Byte)} {s : State} (hruns : chainRuns s = true) (hqueue : s.mgt.queue = c :: rest)

include hruns hqueue

theorem QueueRow.answers {row : List Byte → Bool} (h : QueueRow i row waits f) {fn : Nat} {P : Prop}
    (hfn : row c = true → cmdFn c = fn) (hrow : cmdFn c = fn → P → row c = true) : AnswersFailures i fn P c rest s := by
  refine ⟨fun hne => h.other hqueue (Bool.eq_false_iff.mpr fun hr => hne (hfn hr)), fun r hcheck heq hp => ?_⟩
  refine ⟨_, h.failed hqueue hruns (hrow heq hp) hcheck, ?_⟩
  rw [← heq]
  exact failed_spec c rest r s

theorem QueueRow.answers_fn {fn : Nat} (h : QueueRow i (cmdFn · == fn) waits f) {P : Prop} : AnswersFailures i fn P c rest s :=
  h.answers hruns hqueue (fun hr => beq_iff_eq.mp hr) fun heq _ => beq_iff_eq.mpr heq

theorem QueueRow.answers_content {k : Nat} (h : QueueRow i (contentCmd k) waits f) {P : Prop} (hP : P → cmdByte c 1 = k) :
    AnswersFailures i 7 P c rest s :=
  h.answers hruns hqueue contentCmd_fn fun heq hp => contentCmd_sub heq (hP hp)

end

section

variable {c : List Byte}

theorem contentCmd_eq_false {k : Nat} (hne : cmdByte c 1 ≠ k) (h : k = 1 → 1 ≤ cmdByte c 1 ∧ cmdByte c 1 ≤ 4) :
    contentCmd k c = false := by
  rw [contentCmd, beq_false_of_ne hne, Bool.false_or]
  by_cases hk : k = 1
  · obtain ⟨hlo, hhi⟩ := h hk
    rw [beq_false_of_ne (show cmdByte c 1 ≠ 0 by omega), decide_eq_false (show ¬4 < cmdByte c 1 by omega), Bool.or_false,
      Bool.and_false, Bool.and_false]
  · rw [beq_false_of_ne hk, Bool.false_and, Bool.and_false]

theorem contentCmd_unlisted (hfn : cmdFn c = 7) (h : cmdByte c 1 = 0 ∨ 4 < cmdByte c 1) : contentCmd 1 c = true := by
  rcases h with h | h <;> simp [contentCmd, hfn, h]

theorem cmdCheck_nop (m : Mgt) (h : cmdFn c = 0) : cmdCheck m c = none := by
  simp [cmdCheck, authFn, h]

theorem cmdCheck_badfn (m : Mgt) (h : 9 ≤ cmdFn c) : cmdCheck m c = some 3 := if_pos h

end

/-- What a CONTENT command of an unlisted SUB leaves: it is refused (R384). -/
theorem content_unlisted_spec {s : State} {c : List Byte} (rest : List (List Byte)) (hfn : cmdFn c = 7)
    (h : cmdByte c 1 = 0 ∨ 4 < cmdByte c 1) :
    let t := mgmtEnd c (mgmtContentFn c (Admitted s c rest))
    t = { s with mgt := t.mgt, host := t.host } ∧ t.mgt.rres = 5 ∧ t.mgt.cstate = s.mgt.cstate ∧ raised .mgmt t = true := by
  intro t
  obtain ⟨hframe, hres, hraised, hmgt⟩ := content_spec (s := s) rest hfn
  rw [contentOp_unlisted h] at hres hmgt
  have hcstate := congrArg Mgt.cstate hmgt
  exact ⟨hframe, BitVec.eq_of_toNat_eq hres, hcstate, hraised⟩

/-- Settles O59: a command goes through its row (`QueueRow`), its checks and its function; the content engine and the cells
have one lemma per case. -/
theorem managementAndContent : Obligations.ManagementAndContent := by
  unfold Obligations.ManagementAndContent
  refine ⟨fun s h => ?idle,
    fun c rest s hruns hqueue => ⟨?rows, ?subs, fun hlo hhi => ?nopIdle, fun hfn => ?nop, fun hfn => ?badfn,
      fun hcheck => ⟨?waits, fun hfn hgo => ?read, fun hfn hgo => ?write, fun hfn => ?mode, fun hfn => ?gate, fun hfn => ?commit,
        fun hfn => ⟨fun h => ?keyManagement, fun n h hpd => ?keySession, fun h => ?keyRefused⟩, ?content,
        fun hfn h => ?unlisted, fun hfn => ?logclr⟩⟩,
    fun s => ⟨fun h => ?hostDown,
      fun h => ⟨fun hbusy => ?hostBusy, fun hno => ?beginRefused, fun hidle hallowed => ?begin, fun hstate => ?check,
        fun hload hready => ?checkRefused, fun hready hmode => ?activate, fun hno => ?activateRefused, fun hcopy => ?abortCopy,
        fun hno => ?abort, ?logClear⟩,
      fun v => ⟨fun h => ?keyHeld, fun hlock hpd hmode => ?keyWrite⟩⟩,
    fun s => ⟨fun h => ?checkDoneIdle, fun h => ?checkDone, fun h => ?activateDoneIdle, fun h => ?activateDone⟩,
    fun c s htap hgood hhere htakes =>
      ⟨fun htype => ⟨fun hform => ?badform, fun hform hroom => ?queued, fun hform hfull => ?cdrop⟩,
      fun htype => ⟨fun h => ?bulkDropped, fun hload hcid halign hlen => ?bulk⟩⟩⟩
  case idle =>
    simp only [List.forall_mem_cons]
    exact ⟨row_nop.idle s h, row_read.idle s h, row_write.idle s h, row_mode.idle s h, row_gate.idle s h, row_commit.idle s h,
      row_keyset.idle s h, row_begin.idle s h, row_check.idle s h, row_activate.idle s h, row_abort.idle s h,
      row_logclr.idle s h, List.forall_mem_nil _⟩
  case rows =>
    intro x hx
    simp only [List.mem_cons, List.not_mem_nil, or_false] at hx
    rcases hx with rfl | rfl | rfl | rfl | rfl | rfl | rfl | rfl | rfl | rfl | rfl
    · exact row_read.answers_fn hruns hqueue
    · exact row_write.answers_fn hruns hqueue
    · exact row_mode.answers_fn hruns hqueue
    · exact row_gate.answers_fn hruns hqueue
    · exact row_commit.answers_fn hruns hqueue
    · exact row_keyset.answers_fn hruns hqueue
    · exact row_begin.answers_content hruns hqueue fun h => h (_, 1) (by simp) rfl
    · exact row_check.answers_content hruns hqueue fun h => h (_, 2) (by simp) rfl
    · exact row_activate.answers_content hruns hqueue fun h => h (_, 3) (by simp) rfl
    · exact row_abort.answers_content hruns hqueue fun h => h (_, 4) (by simp) rfl
    · exact row_logclr.answers_fn hruns hqueue
  case subs =>
    intro x hx hne h
    simp only [List.mem_cons, List.not_mem_nil, or_false] at hx
    rcases hx with rfl | rfl | rfl | rfl
    · exact row_begin.other hqueue (contentCmd_eq_false hne h)
    · exact row_check.other hqueue (contentCmd_eq_false hne h)
    · exact row_activate.other hqueue (contentCmd_eq_false hne h)
    · exact row_abort.other hqueue (contentCmd_eq_false hne h)
  case nopIdle =>
    refine row_nop.other hqueue ?_
    rw [beq_false_of_ne (by omega), decide_eq_false (by omega), Bool.or_false]
  case nop =>
    have hexec := row_nop.passed hqueue hruns (by simp [hfn]) (cmdCheck_nop s.mgt hfn) rfl
    rw [(mgmtEnd_spec c _ 0 0).2.2 (by omega)] at hexec
    refine ⟨_, hexec, rfl, rfl, rfl, ?_, rfl⟩
    exact if_neg (by simp [authFn, hfn])
  case badfn =>
    have hexec := row_nop.failed hqueue hruns (by simp [hfn]) (cmdCheck_badfn s.mgt hfn)
    obtain ⟨hframe, hraised, -, hmgt⟩ := failed_spec c rest 3 s
    exact ⟨_, hexec, hframe, by rw [hmgt]; rfl, by rw [hmgt], by rw [hmgt], hraised (by omega)⟩
  case waits =>
    simp only [List.forall_mem_cons]
    refine ⟨fun hfn h => row_read.stays hqueue hcheck (beq_iff_eq.mpr hfn) ?_,
      fun hfn h => row_write.stays hqueue hcheck (beq_iff_eq.mpr hfn) ?_, List.forall_mem_nil _⟩
    all_goals
      rw [accessStays, hfn]
      exact h
  case read =>
    exact ⟨_, row_read.passed hqueue hruns (beq_iff_eq.mpr hfn) hcheck (by rw [accessStays, hfn]; exact hgo),
      read_spec rest hfn⟩
  case write =>
    exact ⟨_, row_write.passed hqueue hruns (beq_iff_eq.mpr hfn) hcheck (by rw [accessStays, hfn]; exact hgo),
      write_spec rest hfn⟩
  case mode => exact ⟨_, row_mode.passed hqueue hruns (beq_iff_eq.mpr hfn) hcheck rfl, mode_spec rest hfn⟩
  case gate => exact ⟨_, row_gate.passed hqueue hruns (beq_iff_eq.mpr hfn) hcheck rfl, gate_spec rest hfn hruns⟩
  case commit => exact ⟨_, row_commit.passed hqueue hruns (beq_iff_eq.mpr hfn) hcheck rfl, commit_spec rest hfn⟩
  case keyManagement =>
    exact ⟨_, row_keyset.passed hqueue hruns (beq_iff_eq.mpr hfn) hcheck rfl, keyset_management rest hfn h⟩
  case keySession =>
    exact ⟨_, row_keyset.passed hqueue hruns (beq_iff_eq.mpr hfn) hcheck rfl, keyset_session rest hfn h hpd⟩
  case keyRefused =>
    exact ⟨_, row_keyset.passed hqueue hruns (beq_iff_eq.mpr hfn) hcheck rfl, keyset_refused rest hfn h⟩
  case content =>
    simp only [List.forall_mem_cons]
    refine ⟨fun hfn hsub => ⟨_, row_begin.passed hqueue hruns (contentCmd_sub hfn hsub) hcheck rfl, ?_⟩,
      fun hfn hsub => ⟨_, row_check.passed hqueue hruns (contentCmd_sub hfn hsub) hcheck rfl, ?_⟩,
      fun hfn hsub => ⟨_, row_activate.passed hqueue hruns (contentCmd_sub hfn hsub) hcheck rfl, ?_⟩,
      fun hfn hsub => ⟨_, row_abort.passed hqueue hruns (contentCmd_sub hfn hsub) hcheck rfl, ?_⟩, List.forall_mem_nil _⟩
    all_goals
      rw [← hsub]
      exact content_spec rest hfn
  case unlisted =>
    exact ⟨_, row_begin.passed hqueue hruns (contentCmd_unlisted hfn h) hcheck rfl, content_unlisted_spec rest hfn h⟩
  case logclr => exact ⟨_, row_logclr.passed hqueue hruns (beq_iff_eq.mpr hfn) hcheck rfl, logclr_spec rest hfn⟩
  case hostDown =>
    simp [exec_contentBegin, exec_contentCheck, exec_contentActivate, exec_contentAbort, exec_faultLogClear_host,
      contentRow_host, h]
  case hostBusy =>
    simp only [List.forall_mem_cons]
    exact ⟨by rw [exec_contentBegin_host h, contentOp_busy hbusy (by decide)],
      by rw [exec_contentCheck_host h, contentOp_busy hbusy (by decide)],
      by rw [exec_contentActivate_host h, contentOp_busy hbusy (by decide)], List.forall_mem_nil _⟩
  case beginRefused => rw [exec_contentBegin_host h, contentOp_begin_refused hno]
  case begin =>
    refine ⟨_, exec_contentBegin_host h, ?_⟩
    rw [contentOp_begin hidle hallowed]
    exact ⟨rfl, rfl, rfl, rfl⟩
  case check =>
    rw [exec_contentCheck_host h, contentOp_check hstate]
    rfl
  case checkRefused => rw [exec_contentCheck_host h, contentOp_check_refused (not_or.mpr ⟨hload, hready⟩)]
  case activate => rw [exec_contentActivate_host h, contentOp_activate hready hmode]
  case activateRefused =>
    rw [exec_contentActivate_host h, contentOp_activate_refused fun hboth => hno.elim (· hboth.1) (· hboth.2)]
  case abortCopy => rw [exec_contentAbort_host h, contentOp_abort_copy hcopy]
  case abort => rw [exec_contentAbort_host h, contentOp_abort hno]
  case logClear =>
    rw [exec_faultLogClear_host, if_pos h]
    rfl
  case keyHeld =>
    rw [exec_mgmtKeyWrite]
    rcases h with h | h | h
    · rw [writeMkey, h, if_pos rfl, ite_self]
    · rw [h, Bool.false_and, if_neg Bool.false_ne_true]
    · simp [h]
  case keyWrite =>
    refine gives_of_pos (exec_mgmtKeyWrite v s) (by simp [hpd, hmode]) ?_
    rw [writeMkey_last hlock]
    exact ⟨rfl, joinedKey_words v s.mgt⟩
  case checkDoneIdle => rw [exec_contentCheckDone, if_neg h]
  case checkDone =>
    obtain ⟨hraised, hcstate, hreason, hmem⟩ := checkEnd_spec s
    refine gives_of_pos (exec_contentCheckDone s) h ⟨hraised, ?_, fun habsent => ?_⟩
    · rw [hcstate, hreason]
      cases hout : checkOutcome s
      case none => exact .inl ⟨rfl, rfl⟩
      case some r => exact .inr ⟨rfl, checkReason_ne_zero hout⟩
    · rw [hreason, hmem, checkOutcome, checkRead, habsent, if_pos rfl, checkReason_absent]
      exact ⟨rfl, rfl⟩
  case activateDoneIdle => rw [exec_contentActivateDone, if_neg h]
  case activateDone => exact gives_of_pos (exec_contentActivateDone s) h (activateEnd_spec s)
  case badform =>
    refine ⟨_, exec_mgmtCommandQueue_delivers htap hgood hhere htype, ?_⟩
    rw [queueCommand_badform (s := recordCell c s) htakes hform]
    rfl
  case queued =>
    refine ⟨_, exec_mgmtCommandQueue_delivers htap hgood hhere htype, ?_⟩
    rw [queueCommand_room (s := recordCell c s) htakes hform hroom]
    rfl
  case cdrop =>
    refine ⟨_, exec_mgmtCommandQueue_delivers htap hgood hhere htype, ?_⟩
    rw [queueCommand_full (s := recordCell c s) htakes hform hfull]
    rfl
  case bulkDropped =>
    refine ⟨_, exec_bulkCell_delivers htap hgood hhere htype, ?_⟩
    rw [bulkChunk_dropped (s := recordCell c s) htakes fun hall => ?_]
    · rfl
    · obtain ⟨hload, hcid, halign, hlen⟩ := hall
      rcases h with h | h | h | h
      · exact h hload
      · exact h hcid
      · exact h halign
      · exact absurd hlen (Nat.not_lt.mpr h)
  case bulk =>
    obtain ⟨hchunks, hdrop, hstate⟩ :=
      bulkChunk_taken (c := c.bytes) (s := recordCell c s) htakes ⟨hload, hcid, halign, hlen⟩
    refine ⟨_, exec_bulkCell_delivers htap hgood hhere htype, hchunks, hdrop, ?_⟩
    rw [hchunks]
    exact hstate

end Sys2Proof.Machine
